-- ==== Sys2Proof/Word.lean ====
section
/-! DEFINITION. The word types of the Larras model: bytes, register words and the byte strings of frames,
entries and blobs. Nothing here can be mended later, so it holds no arithmetic beyond the types. -/

namespace Sys2Proof

/-- A byte. -/
abbrev Byte := BitVec 8

/-- A 32-bit register word (R530). -/
abbrev Reg32 := BitVec 32

/-- A byte string in wire or memory order, first byte first. -/
abbrev Bytes := List Byte

/-- A sparse table by key: (key, value) pairs with strictly rising keys. A key that is not listed holds
the table's default, which every reader names. -/
abbrev Tab (α : Type) := List (Nat × α)

end Sys2Proof
end

