-- ==== Sys2Proof/Syntax.lean ====
section
/-! DEFINITION. The commands of the block: one constructor per row of spec/opcode_table.json, in the table's
order. The table gives its rows no operands; the operands here are what the outside world decides (which frame
arrived on which lane, what the host read back, which register was written with what) and the numbers that say
which packet, die, function or context the event concerns. Times inside an edge (`phase`) are in units of
2⁻¹⁶ ns after the last REFCLK edge. -/

namespace Sys2Proof

/-- The three masters of register space (R527). -/
inductive Master where
  | tether | steward | tenant
deriving DecidableEq, Repr

/-- A lookup of the ingress or owner stage (R90). -/
inductive Lookup where
  | ternary | flow | direct | lpm | mac
deriving DecidableEq, Repr

/-- The two exact-match tables (R147). -/
inductive ExactTable where
  | mac | flow
deriving DecidableEq, Repr

/-- A function of the part: the PF of a link (host port, PF index), or VF `vf` of that PF (R316, R317). -/
inductive FnId where
  | pf (port link : Nat)
  | vf (port link vf : Nat)
deriving DecidableEq, Repr

/-- Completion status of a read completion (R331). -/
inductive CplStatus where
  | success | unsupported | abort | retry | poisoned
deriving DecidableEq, Repr

/-- What a scrubber visit found in its codeword (R503). -/
inductive ScrubOutcome where
  | clean | corrected (symbols : Nat) | uncorrectable
deriving DecidableEq, Repr

/-- What a table read of a packet concerns: a lookup's codewords, an action record, a template. -/
inductive TabRead where
  | lookup (l : Lookup)
  | action (idx : Nat)
  | template (idx : Nat)
deriving DecidableEq, Repr

/-- What a read of the cells of a packet or transfer finds (R498, R502, R504): sound cells, a corrected codeword with its
symbols, an uncorrectable codeword or a failed CRC in cell `cell`, counted from the first cell read. -/
inductive CellRead where
  | good | corrected (symbols : Nat) | uncorrectable (cell : Nat) | crc (cell : Nat)
deriving DecidableEq, Repr

/-- Comparison of the Pilot with REFCLK at a trim tick (R471). -/
inductive PilotCompare where
  | slow | within | fast
deriving DecidableEq, Repr

/-- Power-stage fault causes (R484). `vbusRange` is VBUS outside its operating range while regulating. -/
inductive StageFault where
  | vbusHigh | vbusRange | railLimit | overTemp | channel
deriving DecidableEq, Repr

/-- Cause of a conventional reset of a link (R337). -/
inductive LinkResetCause where
  | perst | hotReset | linkDisable | linkDown
deriving DecidableEq, Repr

/-- How a sideband message is addressed (R465): its SMBus target address, and whether its PEC is there and right. -/
structure Smb where
  addr : BitVec 7
  pec : Bool
deriving DecidableEq, Repr

/-- The transport an SPDM request arrives on (R464): DOE on the steward PF or MCTP on the sideband. -/
inductive SpdmVia where
  | doe | sideband (smb : Smb)
deriving DecidableEq, Repr

/-- On-die memories that debug instructions reach (R461), by byte: node records of 64 bytes, transitions of 16, the automaton, microwords
of 24, templates of 128, the packet buffer by packet number × 65,536, the option image. -/
inductive DebugMem where
  | nodes | transitions | automaton | controlStore | templates | packets | option
deriving DecidableEq, Repr

/-- IEEE 1149.1 instructions of the test port (R461). -/
inductive TestInstr where
  | bypass | idcode | samplePreload | extest
  | debugHalt
  | debugRegRead (offset : Nat)
  | debugRegWrite (offset : Nat) (value : Reg32)
  | debugMemRead (die : Nat) (mem : DebugMem) (addr : Nat)
  | debugMemWrite (die : Nat) (mem : DebugMem) (addr : Nat) (value : Byte)
deriving DecidableEq, Repr

/-- MCTP control discovery requests (R465). -/
inductive MctpDiscovery where
  | endpointId | version | messageTypes
deriving DecidableEq, Repr

/-- The engine ports of R293. -/
inductive EnginePort where
  | ts | hb | pb | ci | dma | hash
deriving DecidableEq, Repr

/-- One constructor per row of spec/opcode_table.json. -/
inductive Instr where
  /-- FRAME_ARRIVAL (R54). `bytes` is the frame from its destination address to the byte before the FCS; `slotErr`: what the
  key slot of a secured port reads as (R266, R502). -/
  | frameArrival (lane phase : Nat) (bytes : Bytes) (slotErr : ScrubOutcome)
  /-- OVERSIZE_DETECTED (R226). -/
  | oversizeDetected (lane : Nat)
  /-- FRAME_END (R230): FCS check result, codewords corrected and uncorrected, reassembly error (R239). -/
  | frameEnd (lane : Nat) (fcsOk reasmErr : Bool) (fecCorrected fecUncorrected : Nat)
  /-- RX_STOP (R231): receive data stops after `received` bytes of the frame, and `suspended` of one between its fragments. -/
  | rxStop (lane received suspended : Nat)
  /-- WALK_BEGIN (R75). `memErr`: the word of the parse memories that reads in error and how (R72, R502): node record
  `n` is word `n`, entry `t` of the transition memory word 256 + `t`. -/
  | walkBegin (pkt : Nat) (memErr : Option (Nat × ScrubOutcome))
  /-- SCAN_RESULT_READY (R132). `memErr`: what the automaton store's codewords read as (R133, R502). -/
  | scanResultReady (pkt : Nat) (memErr : ScrubOutcome)
  /-- INGRESS_STAGE (R88). `bad`: lookups that fail their check (R508); `memErr`: the table codewords that read in error and
  how (R502, R505). -/
  | ingressStage (pkt : Nat) (bad : List Lookup) (memErr : List (TabRead × ScrubOutcome))
  /-- CULVERT_ARRIVAL (R26), after `replays` flit replays (R507). `cells`: what the packet's cells read as (R504). -/
  | culvertArrival (pkt replays : Nat) (cells : CellRead)
  /-- FLOW_LOOKUP_RESULT (R161). `memErr`: what the table's codeword reads as (R502, R505); `bad`: R508. -/
  | flowLookupResult (pkt : Nat) (memErr : ScrubOutcome) (bad : Bool)
  /-- FLOW_REREAD_RESULT (R151), with `memErr` and `bad` as for FLOW_LOOKUP_RESULT. -/
  | flowRereadResult (pkt : Nat) (memErr : ScrubOutcome) (bad : Bool)
  /-- SPILLWAY_READBACK (R195). `cells`: what the packet's cells read as (R502, R504). -/
  | spillwayReadback (pkt : Nat) (cells : CellRead)
  /-- GRANT (R197): destination of kind port (`inst = false`) or instance. -/
  | grant (inst : Bool) (dest : Nat)
  /-- TENANT_FRAME_START (R200). `slotErr`: what the key slot of a secured port reads as (R266, R502);
  `cells`: what the packet's cells read as (R504). -/
  | tenantFrameStart (lane : Nat) (slotErr : ScrubOutcome) (cells : CellRead)
  /-- THROUGH_DEPARTURE (R54). `slotErr` and `cells` as for TENANT_FRAME_START. -/
  | throughDeparture (pkt : Nat) (slotErr : ScrubOutcome) (cells : CellRead)
  /-- TRANSMIT_COMPLETE (R521). -/
  | transmitComplete (lane : Nat)
  /-- RX_DELIVERY (R399): the next write of the packet's data. `cells`: what its cells read as (R504). -/
  | rxDelivery (pkt : Nat) (cells : CellRead)
  /-- PAUSE_RECEIVED (R234): the MAC Control frame without FCS. -/
  | pauseReceived (lane : Nat) (frame : Bytes)
  /-- PAUSE_EXPIRY (R234): PAUSE (`none`) or PFC priority. -/
  | pauseExpiry (lane : Nat) (prio : Option Nat)
  /-- PAUSE_RESEND (R236). -/
  | pauseResend (lane : Nat) (prio : Option Nat)
  /-- PREEMPT_VERIFY (R237). -/
  | preemptVerify (lane : Nat)
  /-- VERIFY_TIMEOUT (R237). -/
  | verifyTimeout (lane : Nat)
  /-- LINK_STATE_CHANGE (R223). -/
  | linkStateChange (lane : Nat) (up localFault remoteFault anDone : Bool)
  /-- CULVERT_LINK_FAIL (R507). -/
  | culvertLinkFail (die port : Nat)
  /-- FLT_CUL_RETRAIN (R507): the word written. -/
  | fltCulRetrain (m : Master) (die : Nat) (value : Reg32)
  /-- CULVERT_RETRAIN_DONE (R507). -/
  | culvertRetrainDone (die port : Nat) (ok : Bool)
  /-- LEARN_ORIGINATE (R167). -/
  | learnOriginate (die : Nat)
  /-- LEARN_NOTICE (R169): the oldest learn notice on its way to the die. -/
  | learnNotice (die : Nat)
  /-- LEARN_REPLICA_FAIL (R171): the oldest failure report on its way to origin `die`. -/
  | learnReplicaFail (die : Nat)
  /-- LEARN_WITHDRAWAL (R171). -/
  | learnWithdrawal (die : Nat)
  /-- HIT_NOTICE (R177). -/
  | hitNotice (die : Nat)
  /-- CLEAR_NOTICE (R177). -/
  | clearNotice (die : Nat)
  /-- SWEEPER_VISIT (R174). -/
  | sweeperVisit (die : Nat) (table : ExactTable) (bucket : Nat)
  /-- MAC_REMOVAL (R180). -/
  | macRemoval (die : Nat)
  /-- COMMIT_OPEN (R107): the started entry of the steward's ring. -/
  | commitOpen
  /-- RULE_CHANGE (R110). -/
  | ruleChange
  /-- COMMIT_CLOSE (R113). -/
  | commitClose
  /-- COMMIT_ABORT (R111). -/
  | commitAbort
  /-- CHANGES_CONFIRMED (R113). -/
  | changesConfirmed
  /-- DIE_CONFIRM_TIMEOUT (R110). -/
  | dieConfirmTimeout
  /-- COMMIT_UNDO_DONE (R111). -/
  | commitUndoDone
  /-- EPOCH_SWITCH (R113). -/
  | epochSwitch
  /-- QOS_APPLY (R196). -/
  | qosApply (die : Nat)
  /-- EPOCH_RETIRE (R116). -/
  | epochRetire
  /-- RETIREMENT_SWEEP_DONE (R117). -/
  | retirementSweepDone
  /-- EPOCH_STALL (R120): slot `slot` has been draining for `elapsedMs`. -/
  | epochStall (slot elapsedMs : Nat)
  /-- GROUP_UPDATE (R144). -/
  | groupUpdate
  /-- GROUP_UPDATE_CONFIRMED (R145). -/
  | groupUpdateConfirmed
  /-- FLOW_WRITE (R182). `memErr`: what the table's codeword reads as (R502, R505). -/
  | flowWrite (memErr : ScrubOutcome)
  /-- FLOW_DELETE (R182). `memErr` as for FLOW_WRITE. -/
  | flowDelete (memErr : ScrubOutcome)
  /-- MAC_FLUSH (R183). -/
  | macFlush
  /-- ASSOC_WRITE (R267). -/
  | assocWrite
  /-- KEY_LOAD (R262), started on function `f` (4096 is the steward). -/
  | keyLoad (f : Nat)
  /-- KEY_CLEAR (R265). -/
  | keyClear (f : Nat)
  /-- KEY_SLOT_SETTLED (R265). -/
  | keySlotSettled (f : Nat)
  /-- KEK_QUERY (R260). -/
  | kekQuery (f : Nat)
  /-- CIPHER_JOB (R275). -/
  | cipherJob (f : Nat)
  /-- CIPHER_UNIT_DISPATCH (R248). `slotErr`: what the key slot's codeword reads as (R266, R502);
  `cells`: what the cells of its input read as (R504). -/
  | cipherUnitDispatch (die unit : Nat) (slotErr : ScrubOutcome) (cells : CellRead)
  /-- CIPHER_UNIT_COMPLETE (R249). -/
  | cipherUnitComplete (die unit : Nat)
  /-- ENGINE_CONTEXT_START (R282): the engine's oldest packet, or the storage command of function `job`. -/
  | engineContextStart (die engine : Nat) (job : Option Nat)
  /-- MICROWORD_ISSUE (R279). `csErr`: what the control store's codeword reads as; `mismatch`: the pair disagrees. -/
  | microwordIssue (die engine ctx : Nat) (csErr : ScrubOutcome) (mismatch : Bool)
  /-- TS_READ_ACTION (R293). `memErr`: what the table SRAM's codeword reads as (R294, R502). -/
  | tsReadAction (die engine ctx : Nat) (memErr : ScrubOutcome)
  /-- TS_COUNTER_ADD (R293). -/
  | tsCounterAdd (die engine ctx : Nat)
  /-- TS_MAC_LOOKUP (R293), with `memErr` and `bad` as for FLOW_LOOKUP_RESULT. -/
  | tsMacLookup (die engine ctx : Nat) (memErr : ScrubOutcome) (bad : Bool)
  /-- HB_STATE_READ (R293). `memErr`: what the HBM codeword reads as (R294, R502). -/
  | hbStateRead (die engine ctx : Nat) (memErr : ScrubOutcome)
  /-- HB_STATE_WRITE (R293). -/
  | hbStateWrite (die engine ctx : Nat)
  /-- HB_ATOMIC_ADD (R293). `memErr`: what the HBM codeword reads as (R294, R502). -/
  | hbAtomicAdd (die engine ctx : Nat) (memErr : ScrubOutcome)
  /-- HB_FLOW_LOOKUP (R293), with `memErr` and `bad` as for FLOW_LOOKUP_RESULT. -/
  | hbFlowLookup (die engine ctx : Nat) (memErr : ScrubOutcome) (bad : Bool)
  /-- HB_FLOW_INSERT (R162). `memErr`: what the table's codeword reads as (R502, R505). -/
  | hbFlowInsert (die engine ctx : Nat) (memErr : ScrubOutcome)
  /-- HB_FLOW_DELETE (R293). `memErr` as for HB_FLOW_INSERT. -/
  | hbFlowDelete (die engine ctx : Nat) (memErr : ScrubOutcome)
  /-- HB_FLOW_REWRITE (R293). `memErr` as for HB_FLOW_INSERT. -/
  | hbFlowRewrite (die engine ctx : Nat) (memErr : ScrubOutcome)
  /-- PB_READ (R293). `cells`: what the cell read finds, cell 0 the one read (R294, R504). -/
  | pbRead (die engine ctx : Nat) (cells : CellRead)
  /-- PB_WRITE (R293). -/
  | pbWrite (die engine ctx : Nat)
  /-- PB_SET_LENGTH (R293). -/
  | pbSetLength (die engine ctx : Nat)
  /-- PB_PREPEND (R293). -/
  | pbPrepend (die engine ctx : Nat)
  /-- PB_REMOVE (R293). -/
  | pbRemove (die engine ctx : Nat)
  /-- PB_ALLOCATE (R293). -/
  | pbAllocate (die engine ctx : Nat)
  /-- HASH_H1_H2 (R293). -/
  | hashH1H2 (die engine ctx : Nat)
  /-- HASH_SYMMETRIC (R293). -/
  | hashSymmetric (die engine ctx : Nat)
  /-- HASH_CRC (R293). -/
  | hashCrc (die engine ctx : Nat)
  /-- CIPHER_TLS_RECORD (R295). -/
  | cipherTlsRecord (die engine ctx : Nat)
  /-- CIPHER_XTS_UNIT (R295). -/
  | cipherXtsUnit (die engine ctx : Nat)
  /-- DMA_POST (R295). -/
  | dmaPost (die engine ctx : Nat)
  /-- PORT_OP_COMPLETE (R297). -/
  | portOpComplete (die engine ctx : Nat) (port : EnginePort)
  /-- ENGINE_PAUSE_END (R286). -/
  | enginePauseEnd (die engine ctx : Nat)
  /-- REINJECT (R299). -/
  | reinject (die engine ctx : Nat)
  /-- REINJECT_SLOT (R41): the packet's walk begins, with `memErr` as for WALK_BEGIN. -/
  | reinjectSlot (die : Nat) (memErr : Option (Nat × ScrubOutcome))
  /-- ENQUEUE (R299). -/
  | enqueue (die engine ctx : Nat)
  /-- DROP (R299). -/
  | drop (die engine ctx : Nat)
  /-- COMPLETE (R299). -/
  | complete (die engine ctx : Nat)
  /-- DRE_CTX_KILL (R301). -/
  | dreCtxKill (m : Master) (die : Nat) (value : Reg32)
  /-- ENGINE_BLOCK_IDLE (R302). -/
  | engineBlockIdle (die : Nat)
  /-- CHN_DS_PROD (R369). -/
  | chnDsProd (f : Nat) (value : Reg32)
  /-- CHN_CQ_CONS (R369). -/
  | chnCqCons (f : Nat) (value : Reg32)
  /-- CHN_DS_RESTART (R385). -/
  | chnDsRestart (f : Nat) (value : Reg32)
  /-- CHN_CQ_RESTART (R385). -/
  | chnCqRestart (f : Nat) (value : Reg32)
  /-- CHN_INVALIDATE (R378). -/
  | chnInvalidate (f : Nat) (value : Reg32)
  /-- CHN_ABORT (R402). -/
  | chnAbort (f : Nat) (value : Reg32)
  /-- ENTRY_FETCH (R375): a read of the next entry's slots is issued, or what the last one returned is taken. -/
  | entryFetch (f : Nat)
  /-- ENTRY_START (R376). -/
  | entryStart (f : Nat)
  /-- PAD (R374). -/
  | pad (f : Nat)
  /-- NOP (R379). -/
  | nop (f : Nat)
  /-- TX_SEND (R380). -/
  | txSend (f : Nat)
  /-- RX_POST (R381). -/
  | rxPost (f : Nat)
  /-- DMA_COPY (R382). -/
  | dmaCopy (f : Nat)
  /-- STORAGE_CMD (R383). -/
  | storageCmd (f : Nat)
  /-- SHADOW_WRITE (R389). -/
  | shadowWrite (f : Nat)
  /-- BURST_ISSUE (R392): the die's read (`write = false`) or write engine takes its next turn. `cells`: what the cells
  of a write burst read as, counted from its first byte (R504). -/
  | burstIssue (die : Nat) (write : Bool) (cells : CellRead)
  /-- READ_COMPLETION (R331). -/
  | readCompletion (port link tag : Nat) (status : CplStatus) (byteCount : Nat) (data : Bytes)
  /-- READ_TIMEOUT (R330). -/
  | readTimeout (port link tag : Nat)
  /-- TAG_HOLD_EXPIRY (R331). -/
  | tagHoldExpiry (port link tag : Nat)
  /-- TRANSFER_END (R396). -/
  | transferEnd (die xfer : Nat)
  /-- DMA_MOD_ARM (R413). -/
  | dmaModArm (f : Nat) (value : Reg32)
  /-- MODERATION_TIMER (R413). -/
  | moderationTimer (f : Nat)
  /-- BUS_MASTER_ENABLE_CLEAR (R332). -/
  | busMasterEnableClear (fn : FnId)
  /-- BUS_MASTER_ENABLE_SET (R333). -/
  | busMasterEnableSet (fn : FnId)
  /-- D3HOT_ENTRY (R334). -/
  | d3hotEntry (fn : FnId)
  /-- D0_RETURN (R334). -/
  | d0Return (fn : FnId)
  /-- INITIATE_FLR (R335). -/
  | initiateFlr (fn : FnId)
  /-- CONVENTIONAL_RESET (R337). -/
  | conventionalReset (port link : Nat) (cause : LinkResetCause)
  /-- PERST_RELEASE (R493). -/
  | perstRelease (port : Nat)
  /-- HOST_LINK_CHANGE (R312). -/
  | hostLinkChange (port link : Nat) (up : Bool) (speed width : Nat) (flit : Bool)
  /-- VF_ENABLE_CLEAR (R318). -/
  | vfEnableClear (port link : Nat)
  /-- NUMVFS_WRITE (R318). -/
  | numvfsWrite (port link value : Nat)
  /-- MSIX_UNMASK (R325): one vector, or the function mask (`none`). -/
  | msixUnmask (fn : FnId) (vector : Option Nat)
  /-- INSTANCE_CREATE (R346). -/
  | instanceCreate
  /-- INSTANCE_DESTROY (R348). -/
  | instanceDestroy
  /-- INSTANCE_RESET (R360). -/
  | instanceReset
  /-- INSTANCE_RESET_DONE (R360). -/
  | instanceResetDone (i : Nat)
  /-- MAP_SET (R354). -/
  | mapSet
  /-- MAP_CLEAR (R354). -/
  | mapClear
  /-- MAP_SETTLED (R355). -/
  | mapSettled
  /-- DIRTY_START (R361). -/
  | dirtyStart
  /-- DIRTY_SYNC (R362). -/
  | dirtySync
  /-- DIRTY_STOP (R361). -/
  | dirtyStop
  /-- FREEZE (R363). -/
  | freeze
  /-- FREEZE_DRAINED (R363). -/
  | freezeDrained (i : Nat)
  /-- THAW (R363). -/
  | thaw
  /-- SAVE (R364). -/
  | save
  /-- RESTORE (R366): the read of the blob begins, or the blob that has been read is restored. -/
  | restore
  /-- HELLO_TIMER (R419). -/
  | helloTimer (die : Nat)
  /-- HELLO (R422): the received frame without FCS. -/
  | hello (lane : Nat) (frame : Bytes)
  /-- NEIGHBOUR_HOLD_EXPIRY (R422). -/
  | neighbourHoldExpiry (lane : Nat)
  /-- PUBLISH (R425). -/
  | publish (lane : Nat) (frame : Bytes)
  /-- PUB_ACK (R424). -/
  | pubAck (lane : Nat) (frame : Bytes)
  /-- PUBLISH_RESEND (R424). -/
  | publishResend (lane : Nat)
  /-- SPAN_BARRIER_GROUP (R427). -/
  | spanBarrierGroup
  /-- SPAN_NEIGHBOURS (R432). -/
  | spanNeighbours
  /-- SPAN_REPUBLISH (R426). -/
  | spanRepublish
  /-- BARRIER_START (R428). -/
  | barrierStart
  /-- BARRIER_PREPARE (R428). -/
  | barrierPrepare (lane : Nat) (frame : Bytes)
  /-- BARRIER_ECHO (R428). -/
  | barrierEcho (lane : Nat) (frame : Bytes)
  /-- BARRIER_GO (R429). -/
  | barrierGo (lane : Nat) (frame : Bytes)
  /-- BARRIER_ABORT (R429). -/
  | barrierAbort (lane : Nat) (frame : Bytes)
  /-- BARRIER_TIMEOUT (R428). -/
  | barrierTimeout
  /-- SPN_BARRIER_STALL (R430). -/
  | spnBarrierStall
  /-- BARRIER_CANCEL (R430). -/
  | barrierCancel (m : Master) (value : Reg32)
  /-- HBM_SCRUB_VISIT (R503). `wrote`: an ordinary write fell between read and write-back; `overrun`: R503. -/
  | hbmScrubVisit (die : Nat) (found : ScrubOutcome) (wrote overrun : Bool)
  /-- SRAM_SCRUB_VISIT (R503). -/
  | sramScrubVisit (die : Nat) (found : ScrubOutcome) (wrote overrun : Bool)
  /-- CFG_CRC_SWEEP (R544): a sweep ends and is compared. -/
  | cfgCrcSweep
  /-- CFG_CRC_COMMIT (R546): a write of PKG_CFG_CRC_CTRL with commit set. -/
  | cfgCrcCommit (m : Master) (value : Reg32)
  /-- CFG_CRC_HOLD_LONG (R548). -/
  | cfgCrcHoldLong
  /-- FLT_PIN_RELEASE (R515). -/
  | fltPinRelease (m : Master) (die : Nat) (value : Reg32)
  /-- FLT_CLASS_SEL (R513). -/
  | fltClassSel (m : Master) (die : Nat) (value : Reg32)
  /-- FLT_LOG_CONS (R518). -/
  | fltLogCons (m : Master) (value : Reg32)
  /-- LOG_MESSAGE (R520). -/
  | logMessage
  /-- LOG_SETUP (R517). -/
  | logSetup
  /-- LOG_STOP (R517). -/
  | logStop
  /-- VERDICT_SETUP (R524). -/
  | verdictSetup
  /-- VERDICT_STOP (R524). -/
  | verdictStop
  /-- TET_WATCHDOG (R509). -/
  | tetWatchdog
  /-- REGISTER_WRITE (R531): a BAR4 access of `size` bytes at `offset`. -/
  | registerWrite (m : Master) (offset size : Nat) (value : BitVec 64)
  /-- BLOCK_ENABLE (R532): a write of the block's control register with enable set. -/
  | blockEnable (m : Master) (die block : Nat) (value : Reg32)
  /-- BLOCK_DISABLE (R532): a write of the block's control register with enable clear. -/
  | blockDisable (m : Master) (die block : Nat) (value : Reg32)
  /-- SPILL_DISABLE (R65): a write of BUF_CTRL with spill_enable clear. -/
  | spillDisable (m : Master) (die : Nat) (value : Reg32)
  /-- PKG_TENANT_MODE (R65). -/
  | pkgTenantMode (m : Master) (value : Reg32)
  /-- COUNTER_READ_CLEAR (R537): a read of `size` bytes at `offset`, with the attributes of its request (R328). -/
  | counterReadClear (m : Master) (offset size attr : Nat)
  /-- CLS_CNT_SEL (R537). `memErr`: what the counter's codeword reads as (R502, R506). -/
  | clsCntSel (m : Master) (die : Nat) (value : Reg32) (memErr : ScrubOutcome)
  /-- BUF_OCC_SEL (R537). -/
  | bufOccSel (m : Master) (die : Nat) (value : Reg32)
  /-- BUF_DROP_SEL (R537). -/
  | bufDropSel (m : Master) (die : Nat) (value : Reg32)
  /-- SCH_SHP_SEL (R537). -/
  | schShpSel (m : Master) (die : Nat) (value : Reg32)
  /-- WEI_CNT_SEL (R537). -/
  | weiCntSel (m : Master) (die : Nat) (value : Reg32)
  /-- MAC_CNT_SEL (R537). -/
  | macCntSel (m : Master) (die : Nat) (value : Reg32)
  /-- CIP_SLOT_SEL (R537). -/
  | cipSlotSel (m : Master) (die : Nat) (value : Reg32)
  /-- DRE_CTX_SEL (R537). -/
  | dreCtxSel (m : Master) (die : Nat) (value : Reg32)
  /-- SHAPER_REFILL (R205): local shaper `idx` of the die; `late`: done a slot late (R209). -/
  | shaperRefill (die idx : Nat) (late : Bool)
  /-- CLK_GATE (R478). -/
  | clkGate (m : Master) (die : Nat) (value : Reg32)
  /-- GATE_FORCE_TIMEOUT (R479). -/
  | gateForceTimeout (die block : Nat)
  /-- PWR_SOFT_RST (R494). -/
  | pwrSoftRst (m : Master) (die : Nat) (value : Reg32)
  /-- SOFT_RESET_DONE (R494). -/
  | softResetDone (die block : Nat)
  /-- CLK_TB_RATE (R470). -/
  | clkTbRate (m : Master) (value : Reg32)
  /-- CLK_TB_STEP (R470): the write of CLK_TB_STEP_HI. -/
  | clkTbStep (m : Master) (value : Reg32)
  /-- FUSE_ARM (R460): a first write of TET_FUSE_CTRL. -/
  | fuseArm (m : Master) (value : Reg32)
  /-- FUSE_ARM_EXPIRY (R460). -/
  | fuseArmExpiry
  /-- ADVANCE_COUNTER (R460): a write of TET_FUSE_CTRL with op 0x1 and key 0. -/
  | advanceCounter (m : Master)
  /-- DEBUG_LOCK (R460): a write of TET_FUSE_CTRL with op 0x2 and key 0. -/
  | debugLock (m : Master)
  /-- FUSE_BLOW_DONE (R460): the blow ends; `verified`: the bits read back blown. -/
  | fuseBlowDone (verified : Bool)
  /-- AUX_POWER_ON (R487). -/
  | auxPowerOn
  /-- AUX_POWER_LOSS (R490). -/
  | auxPowerLoss
  /-- PKG_RST_ASSERT (R492). -/
  | pkgRstAssert
  /-- PKG_RST_RELEASE (R455): the straps as sampled. -/
  | pkgRstRelease (bootSel rcvPort smbAddr : BitVec 2)
  /-- PILOT_ARMED (R472). -/
  | pilotArmed
  /-- REFCLK_QUALIFIED (R472). -/
  | refclkQualified
  /-- PLL_LOCK_ALL (R472). -/
  | pllLockAll
  /-- PLL_LOCK_TIMEOUT (R473). -/
  | pllLockTimeout (die : Nat)
  /-- PILOT_TRIM_TICK (R471). -/
  | pilotTrimTick (cmp : PilotCompare)
  /-- BOOT_STEP_COMPLETE (R455). `hwFail`: a die whose PLL lock, HBM or Culvert training failed (R454). -/
  | bootStepComplete (hwFail : Option Nat)
  /-- REFCLK_LOST (R474). -/
  | refclkLost
  /-- PLL_UNLOCKED (R474). -/
  | pllUnlocked (die : Nat)
  /-- DOMAIN_COUNT_WINDOW (R474): the edges counted in die `die`'s domain `domain` over the window. -/
  | domainCountWindow (die domain edges : Nat)
  /-- REFCLK_FREQ_WINDOW (R474): REFCLK edges counted over the window. -/
  | refclkFreqWindow (edges : Nat)
  /-- PILOT_EDGE_TIMEOUT (R476). -/
  | pilotEdgeTimeout
  /-- RCV_READ (R457): TET_RCV_ADDR and TET_RCV_LEN, then the command. -/
  | rcvRead (addr : BitVec 28) (len : BitVec 16)
  /-- RCV_ERASE (R457). -/
  | rcvErase (addr : BitVec 28) (len : BitVec 16)
  /-- RCV_PROGRAM (R457): `data` is what the host put into the buffer. -/
  | rcvProgram (addr : BitVec 28) (len : BitVec 16) (data : Bytes)
  /-- RCV_OP_DONE (R457). `nvmOk`: the NVM reported success. -/
  | rcvOpDone (nvmOk : Bool)
  /-- PS_EN_CHANGE (R483). -/
  | psEnChange (level : Bool)
  /-- PS_PG_RISE (R487). -/
  | psPgRise
  /-- PS_PG_FALL (R489): the die of the first rail out of tolerance. -/
  | psPgFall (die : Nat)
  /-- POWER_STAGE_FAULT (R484). -/
  | powerStageFault (cause : StageFault) (die rail : Nat)
  /-- TELEMETRY_UPDATE (R485): VBUS in mV, current in mA, power in 0.1 W, the status of each rail in the link's order. -/
  | telemetryUpdate (vbus ibus power : BitVec 16) (rails : List (BitVec 8))
  /-- TELEMETRY_TIMEOUT (R485). -/
  | telemetryTimeout
  /-- SENSOR_UPDATE (R561): die, its sixteen readings in °C. -/
  | sensorUpdate (die : Nat) (readings : List Int)
  /-- SET_ENDPOINT_ID (R465). -/
  | setEndpointId (smb : Smb) (eid : Byte)
  /-- PLDM_SENSOR_READ (R465): sensor number 16 × die + sensor, or 128, 129, 130 for VBUS, IBUS, power. -/
  | pldmSensorRead (smb : Smb) (sensor : Nat)
  /-- VENDOR_BOOT_STATUS (R465). -/
  | vendorBootStatus (smb : Smb)
  /-- VENDOR_CLASS_READ (R515). -/
  | vendorClassRead (smb : Smb) (die cls : Nat)
  /-- GET_VERSION (R464). -/
  | getVersion (via : SpdmVia)
  /-- GET_CAPABILITIES (R464). `req`: the request's bytes from 4 on. -/
  | getCapabilities (via : SpdmVia) (req : Bytes)
  /-- NEGOTIATE_ALGORITHMS (R464). `req`: the request's bytes from 4 on. -/
  | negotiateAlgorithms (via : SpdmVia) (req : Bytes)
  /-- GET_DIGESTS (R464). -/
  | getDigests (via : SpdmVia)
  /-- GET_CERTIFICATE (R464). -/
  | getCertificate (via : SpdmVia) (slot offset len : Nat)
  /-- CHALLENGE (R464). `summary`: the measurement summary asked for. -/
  | challenge (via : SpdmVia) (slot : Nat) (summary : Byte) (nonce : Bytes)
  /-- GET_MEASUREMENTS (R464): index 0 asks for their number, 255 for all. -/
  | getMeasurements (via : SpdmVia) (index : Nat) (signed : Bool) (nonce : Bytes) (slot : Nat)
  /-- DOE_ABORT (R341). -/
  | doeAbort
  /-- REFCLK_STOP_BEFORE_LOCK (R473). -/
  | refclkStopBeforeLock
  /-- STANDBY_RAILS_CHANGE (R481). -/
  | standbyRailsChange (up : Bool)
  /-- PS_FLT_FALL (R484). -/
  | psFltFall
  /-- VF_ENABLE_SET (R318). -/
  | vfEnableSet (port link : Nat)
  /-- DOE_DISCOVERY (R341): vendor, object type and length in DW of the object; index of the query. -/
  | doeDiscovery (vendor objType lengthDw index : Nat)
  /-- MCTP_CONTROL_DISCOVERY (R465). -/
  | mctpControlDiscovery (smb : Smb) (what : MctpDiscovery)
  /-- TEST_PORT_INSTRUCTION (R461). -/
  | testPortInstruction (instr : TestInstr)
  /-- WAVE_MEMORY_EXPIRY (R428): the wave of barrier identifier `id` from coordinator `coord`. -/
  | waveMemoryExpiry (coord id : Nat)
deriving DecidableEq, Repr

end Sys2Proof
end

