-- ==== Sys2Proof/Machine/Bits.lean ====
section
/-! DEFINITION. Bit fields and byte orders: fields of register words and descriptors, big- and little-endian
numbers in byte strings (R12), saturating and wrapping counters. -/

namespace Sys2Proof.Machine

/-- Bits [lo + w − 1 : lo] of a number. -/
def bitsN (v lo w : Nat) : Nat := v / 2 ^ lo % 2 ^ w

/-- Bit `i` of a number. -/
def bitN (v i : Nat) : Bool := v / 2 ^ i % 2 == 1

/-- A flag as a number. -/
def b2n (b : Bool) : Nat := if b then 1 else 0

/-- `v` with bits [lo + w − 1 : lo] replaced by `x`. -/
def setBitsN (v lo w x : Nat) : Nat := v - bitsN v lo w * 2 ^ lo + x % 2 ^ w * 2 ^ lo

/-- `v` with bit `i` set to `b`. -/
def setBitN (v i : Nat) (b : Bool) : Nat := setBitsN v i 1 (b2n b)

/-- Number of set bits among the low `n`. -/
def popN : Nat → Nat → Nat
  | _, 0 => 0
  | v, n + 1 => v % 2 + popN (v / 2) n

/-- Indices of the set bits among the low `n`, rising. -/
def bitList (v n : Nat) : List Nat := (List.range n).filter (bitN v)

/-- The mask with the bits of a list set. -/
def maskOf (l : List Nat) : Nat := l.foldl (fun a i => setBitN a i true) 0

/-- Saturating increment of a `w`-bit counter. -/
def satAdd (w v n : Nat) : Nat := min (v + n) (2 ^ w - 1)

/-- Wrapping sum of a `w`-bit index. -/
def wrapAdd (w v n : Nat) : Nat := (v + n) % 2 ^ w

/-- Free-running difference a − b of 32-bit indices. -/
def diff32 (a b : Nat) : Nat := (a + 2 ^ 32 - b % 2 ^ 32) % 2 ^ 32

/-- Ceiling of a / b. -/
def ceilDiv (a b : Nat) : Nat := (a + b - 1) / b

/-- Big-endian number of a byte string (network byte order, R12). -/
def beNat (b : Bytes) : Nat := b.foldl (fun a x => a * 256 + x.toNat) 0

/-- Little-endian number of a byte string. -/
def leNat (b : Bytes) : Nat := b.foldr (fun x a => x.toNat + 256 * a) 0

/-- A number as `n` bytes, most significant first. -/
def toBE (n v : Nat) : Bytes := ((List.range n).map fun i => BitVec.ofNat 8 (v / 256 ^ i)).reverse

/-- A number as `n` bytes, least significant first. -/
def toLE (n v : Nat) : Bytes := (List.range n).map fun i => BitVec.ofNat 8 (v / 256 ^ i)

/-- Byte `i` of a string; zero past its end. -/
def byteAt (b : Bytes) (i : Nat) : Nat := (b.getD i 0).toNat

/-- `n` bytes of a string from `i`, zero past its end. -/
def slice (b : Bytes) (i n : Nat) : Bytes :=
  let t := (b.drop i).take n
  t ++ List.replicate (n - t.length) 0

/-- Big-endian field of `n` bytes at byte `i`. -/
def beAt (b : Bytes) (i n : Nat) : Nat := beNat (slice b i n)

/-- Little-endian field of `n` bytes at byte `i`. -/
def leAt (b : Bytes) (i n : Nat) : Nat := leNat (slice b i n)

/-- `b` with bytes from `i` replaced by `x`, grown with zeros where it is shorter. -/
def splice (b : Bytes) (i : Nat) (x : Bytes) : Bytes :=
  slice b 0 i ++ x ++ b.drop (i + x.length)

/-- Signed reading of a `w`-bit number. -/
def toSigned (w v : Nat) : Int := if v % 2 ^ w < 2 ^ (w - 1) then (v % 2 ^ w : Nat) else (v % 2 ^ w : Nat) - (2 ^ w : Nat)

/-- A number split into `n` big-endian bits, most significant first. -/
def bitsBE (n v : Nat) : List Bool := ((List.range n).map fun i => bitN v i).reverse

/-- The bits of a byte string, bit 7 of the first byte first. -/
def bytesBits (b : Bytes) : List Bool := b.flatMap fun x => bitsBE 8 x.toNat

/-- Bits [i, i + n) of a byte string counted from bit 7 of byte 0, as a number. -/
def bitFieldBE (b : Bytes) (i n : Nat) : Nat :=
  let bs := (bytesBits (slice b (i / 8) (n / 8 + 2))).drop (i % 8)
  (bs.take n).foldl (fun a x => 2 * a + b2n x) 0

end Sys2Proof.Machine
end

