-- ==== Sys2Proof/Machine/Sm3.lean ====
section
/-! DEFINITION. The digest SM3 (GB/T 32905) and the SM2 key derivation function over it (GB/T 32918.4), which R259,
R261, R305 and R452 name. Words are numbers below 2³². -/

namespace Sys2Proof.Machine

/-- A 32-bit rotation to the left. -/
def rotl32 (x n : Nat) : Nat := x * 2 ^ n % 2 ^ 32 + x / 2 ^ (32 - n)

/-- The permutations P0 and P1. -/
def sm3P0 (x : Nat) : Nat := x ^^^ rotl32 x 9 ^^^ rotl32 x 17
def sm3P1 (x : Nat) : Nat := x ^^^ rotl32 x 15 ^^^ rotl32 x 23

/-- The boolean functions of round `j`. -/
def sm3FF (j x y z : Nat) : Nat := if j < 16 then x ^^^ y ^^^ z else (x &&& y) ||| (x &&& z) ||| (y &&& z)
def sm3GG (j x y z : Nat) : Nat := if j < 16 then x ^^^ y ^^^ z else (x &&& y) ||| ((x ^^^ 0xFFFFFFFF) &&& z)

/-- Round `j` on the registers A to H, with the message words `w` and `w4` (the word four later). -/
def sm3Round (j w w4 : Nat) : List Nat → List Nat
  | [a, b, c, d, e, f, g, h] =>
    let ss1 := rotl32 ((rotl32 a 12 + e + rotl32 (if j < 16 then 0x79CC4519 else 0x7A879D8A) (j % 32)) % 2 ^ 32) 7
    let tt1 := (sm3FF j a b c + d + (ss1 ^^^ rotl32 a 12) + (w ^^^ w4)) % 2 ^ 32
    let tt2 := (sm3GG j e f g + h + ss1 + w) % 2 ^ 32
    [tt1, a, rotl32 b 9, c, sm3P0 tt2, e, rotl32 f 19, g]
  | v => v

/-- The message word 16 after the first of a window of 16. -/
def sm3Next (w : List Nat) : Nat :=
  sm3P1 (w.getD 0 0 ^^^ w.getD 7 0 ^^^ rotl32 (w.getD 13 0) 15) ^^^ rotl32 (w.getD 3 0) 7 ^^^ w.getD 10 0

/-- `n` rounds from round `j`, over a window of 16 message words that moves on. -/
def sm3Rounds : Nat → Nat → List Nat → List Nat → List Nat
  | 0, _, _, v => v
  | n + 1, j, w, v => sm3Rounds n (j + 1) (w.drop 1 ++ [sm3Next w]) (sm3Round j (w.getD 0 0) (w.getD 4 0) v)

/-- The compression of the 64-byte block at byte 64 × `k`. -/
def sm3Block (m : Bytes) (v : List Nat) (k : Nat) : List Nat :=
  let w := (List.range 16).map fun i => beAt m (64 * k + 4 * i) 4
  List.zipWith (· ^^^ ·) v (sm3Rounds 64 0 w v)

/-- The initial value. -/
def sm3Iv : List Nat :=
  [0x7380166F, 0x4914B2B9, 0x172442D7, 0xDA8A0600, 0xA96F30BC, 0x163138AA, 0xE38DEE4D, 0xB0FB0E4E]

/-- A message padded to whole blocks: a 1 bit, zeros, its length in bits. -/
def sm3Pad (m : Bytes) : Bytes := m ++ [0x80] ++ List.replicate ((119 - m.length % 64) % 64) 0 ++ toBE 8 (8 * m.length)

/-- The SM3 digest of a byte string, as a 256-bit number. Logs 6 (PRESUMED), 38 (PRESUMED). -/
def sm3 (m : Bytes) : Nat :=
  let p := sm3Pad m
  ((List.range (p.length / 64)).foldl (sm3Block p) sm3Iv).foldl (fun a x => a * 2 ^ 32 + x) 0

/-- The first 256 bits of the SM2 key derivation function over a 256-bit seed or coordinate and the bytes after it.
Log 6 (PRESUMED). -/
def kdf (seed : Nat) (input : Bytes) : Nat := sm3 (toBE 32 seed ++ input ++ toBE 4 1)

end Sys2Proof.Machine
end

