-- ==== Sys2Proof/Machine/BlockCiphers.lean ====
section
/-! DEFINITION. The block ciphers of R252: AES (FIPS 197) and SM4 (GB/T 32907). A block is 16 bytes as numbers. -/

namespace Sys2Proof.Machine

/-! ### AES -/

/-- The substitution tables, entry 0 most significant. -/
def aesBox : Nat :=
    (0x637C777BF26B6FC53001672BFED7AB76CA82C97DFA5947F0ADD4A2AF9CA472C0B7FD9326363FF7CC34A5E5F171D8311504C723C31896059A071280E2EB27B275 * 2 ^ 1536) +
    (0x09832C1A1B6E5AA0523BD6B329E32F8453D100ED20FCB15B6ACBBE394A4C58CFD0EFAAFB434D338545F9027F503C9FA851A3408F929D38F5BCB6DA2110FFF3D2 * 2 ^ 1024) +
    (0xCD0C13EC5F974417C4A77E3D645D197360814FDC222A908846EEB814DE5E0BDBE0323A0A4906245CC2D3AC629195E479E7C8376D8DD54EA96C56F4EA657AAE08 * 2 ^ 512) +
    0xBA78252E1CA6B4C6E8DD741F4BBD8B8A703EB5664803F60E613557B986C11D9EE1F8981169D98E949B1E87E9CE5528DF8CA1890DBFE6426841992D0FB054BB16
def aesInvBox : Nat :=
    (0x52096AD53036A538BF40A39E81F3D7FB7CE339829B2FFF87348E4344C4DEE9CB547B9432A6C2233DEE4C950B42FAC34E082EA16628D924B2765BA2496D8BD125 * 2 ^ 1536) +
    (0x72F8F66486689816D4A45CCC5D65B6926C704850FDEDB9DA5E154657A78D9D8490D8AB008CBCD30AF7E45805B8B34506D02C1E8FCA3F0F02C1AFBD0301138A6B * 2 ^ 1024) +
    (0x3A9111414F67DCEA97F2CFCEF0B4E67396AC7422E7AD3585E2F937E81C75DF6E47F11A711D29C5896FB7620EAA18BE1BFC563E4BC6D279209ADBC0FE78CD5AF4 * 2 ^ 512) +
    0x1FDDA8338807C731B11210592780EC5F60517FA919B54A0D2DE57A9F93C99CEFA0E03B4DAE2AF5B0C8EBBB3C83539961172B047EBA77D626E169146355210C7D

/-- Entry `x` of a table of 256 bytes. -/
def boxAt (t x : Nat) : Nat := t / 256 ^ (255 - x) % 256

/-- A byte times x in the field of AES; times `k` below 16. -/
def xtime (a : Nat) : Nat := if a < 128 then 2 * a else (2 * a - 256) ^^^ 0x1B
def aesTimes (k a : Nat) : Nat :=
  let b := xtime a
  let c := xtime b
  (if bitN k 0 then a else 0) ^^^ (if bitN k 1 then b else 0) ^^^ (if bitN k 2 then c else 0) ^^^ (if bitN k 3 then xtime c else 0)

/-- A word with its four bytes substituted. -/
def subWord (t w : Nat) : Nat :=
  boxAt t (w / 2 ^ 24 % 256) * 2 ^ 24 + boxAt t (w / 2 ^ 16 % 256) * 2 ^ 16 + boxAt t (w / 2 ^ 8 % 256) * 2 ^ 8 + boxAt t (w % 256)

/-- The next `n` words of a key schedule from word `i`, given the words before it, latest first. -/
def aesExpand (nk : Nat) : Nat → Nat → List Nat → List Nat
  | 0, _, ws => ws.reverse
  | n + 1, i, ws =>
    let p := ws.headD 0
    let t := if i % nk = 0 then
        subWord aesBox (rotl32 p 8) ^^^ ([1, 2, 4, 8, 16, 32, 64, 128, 0x1B, 0x36].getD (i / nk - 1) 0) * 2 ^ 24
      else if nk = 8 ∧ i % 8 = 4 then subWord aesBox p else p
    aesExpand nk n (i + 1) ((ws.getD (nk - 1) 0 ^^^ t) :: ws)

/-- The round keys of a key of 16 or 32 bytes, 16 bytes each. -/
def aesKeys (key : Bytes) : List (List Nat) :=
  let nk := key.length / 4
  let ws := aesExpand nk (4 * (nk + 7) - nk) nk ((List.range nk).map fun i => beAt key (4 * i) 4).reverse
  (List.range (nk + 7)).map fun r => (List.range 4).flatMap fun c =>
    (List.range 4).map fun i => ws.getD (4 * r + c) 0 / 256 ^ (3 - i) % 256

def xorBlock (a b : List Nat) : List Nat := List.zipWith (· ^^^ ·) a b

/-- The columns of a block multiplied by a circulant matrix with first row `m`. -/
def mixColumns (m s : List Nat) : List Nat :=
  (List.range 16).map fun i =>
    (List.range 4).foldl (fun a k => a ^^^ aesTimes (m.getD ((k + 4 - i % 4) % 4) 0) (s.getD (i / 4 * 4 + k) 0)) 0

/-- Substitution and the rotation of the rows. -/
def subShift (s : List Nat) : List Nat := (List.range 16).map fun i => boxAt aesBox (s.getD ((i + 4 * (i % 4)) % 16) 0)
def invSubShift (s : List Nat) : List Nat := (List.range 16).map fun i => boxAt aesInvBox (s.getD ((i + 12 * (i % 4)) % 16) 0)

/-- The rounds between the first key and the last. -/
def aesRounds : List (List Nat) → List Nat → List Nat
  | [], s => s
  | [k], s => xorBlock (subShift s) k
  | k :: ks, s => aesRounds ks (xorBlock (mixColumns [2, 3, 1, 1] (subShift s)) k)
def aesInvRounds : List (List Nat) → List Nat → List Nat
  | [], s => s
  | [k], s => xorBlock (invSubShift s) k
  | k :: ks, s => aesInvRounds ks (mixColumns [14, 11, 13, 9] (xorBlock (invSubShift s) k))

/-- AES of a block under round keys, and its inverse. -/
def aesEnc (ks : List (List Nat)) (s : List Nat) : List Nat := aesRounds (ks.drop 1) (xorBlock s (ks.headD []))
def aesDec (ks : List (List Nat)) (s : List Nat) : List Nat :=
  aesInvRounds (ks.reverse.drop 1) (xorBlock s (ks.reverse.headD []))

/-! ### SM4 -/

def sm4Box : Nat :=
    (0xD690E9FECCE13DB716B614C228FB2C052B679A762ABE04C3AA441326498606999C4250F491EF987A33540B43EDCFAC62E4B31CA9C908E89580DF94FA758F3FA6 * 2 ^ 1536) +
    (0x4707A7FCF37317BA83593C19E6854FA8686B81B27164DA8BF8EB0F4B70569D351E240E5E6358D1A225227C3B01217887D40046579FD327524C3602E7A0C4C89E * 2 ^ 1024) +
    (0xEABF8AD240C738B5A3F7F2CEF96115A1E0AE5DA49B341A55AD933230F58CB1E31DF6E22E8266CA60C02923AB0D534E6FD5DB3745DEFD8E2F03FF6A726D6C5B51 * 2 ^ 512) +
    0x8D1BAF92BBDDBC7F11D95C411F105AD80AC13188A5CD7BBD2D74D012B8E5B4B08969974A0C96777E65B9F109C56EC68418F07DEC3ADC4D2079EE5F3ED7CB3948

/-- The round transformation T and that of the key schedule. -/
def sm4T (x : Nat) : Nat :=
  let b := subWord sm4Box x
  b ^^^ rotl32 b 2 ^^^ rotl32 b 10 ^^^ rotl32 b 18 ^^^ rotl32 b 24
def sm4TK (x : Nat) : Nat :=
  let b := subWord sm4Box x
  b ^^^ rotl32 b 13 ^^^ rotl32 b 23

/-- The constant CK of round `i`. -/
def sm4Ck (i : Nat) : Nat := (List.range 4).foldl (fun a j => a * 256 + (4 * i + j) * 7 % 256) 0

/-- The round keys: the next `n` from round `i` on the four words before them. -/
def sm4Expand : Nat → Nat → List Nat → List Nat
  | n + 1, i, [a, b, c, d] =>
    let k := a ^^^ sm4TK (b ^^^ c ^^^ d ^^^ sm4Ck i)
    k :: sm4Expand n (i + 1) [b, c, d, k]
  | _, _, _ => []

def sm4Keys (key : Bytes) : List Nat :=
  sm4Expand 32 0 (xorBlock ((List.range 4).map fun i => beAt key (4 * i) 4) [0xA3B1BAC6, 0x56AA3350, 0x677D9197, 0xB27022DC])

/-- The rounds of SM4 under keys in order; decryption takes them in reverse. -/
def sm4Rounds : List Nat → List Nat → List Nat
  | k :: ks, [a, b, c, d] => sm4Rounds ks [b, c, d, a ^^^ sm4T (b ^^^ c ^^^ d ^^^ k)]
  | _, w => w.reverse

/-- SM4 of a block under round keys in order. -/
def sm4Crypt (ks : List Nat) (s : List Nat) : List Nat :=
  let w := (List.range 4).map fun i => (List.range 4).foldl (fun a j => a * 256 + s.getD (4 * i + j) 0) 0
  (sm4Rounds ks w).flatMap fun x => (List.range 4).map fun j => x / 256 ^ (3 - j) % 256

end Sys2Proof.Machine
end

