-- ==== Sys2Proof/Machine/CipherModes.lean ====
section
/-! DEFINITION. The modes of R252: GCM and GMAC (SP 800-38D), CTR, CBC, XTS (IEEE 1619), ChaCha20-Poly1305 (RFC 8439). -/

namespace Sys2Proof.Machine

/-- A block cipher under a key: key kinds 1 and 2 AES, 3 SM4 (R261). Log 6 (PRESUMED). -/
def blockEnc (kind : Nat) (key : Bytes) : Bytes → Bytes :=
  if kind = 3 then
    let ks := sm4Keys key
    fun b => (sm4Crypt ks ((slice b 0 16).map BitVec.toNat)).map (BitVec.ofNat 8)
  else
    let ks := aesKeys key
    fun b => (aesEnc ks ((slice b 0 16).map BitVec.toNat)).map (BitVec.ofNat 8)
def blockDec (kind : Nat) (key : Bytes) : Bytes → Bytes :=
  if kind = 3 then
    let ks := (sm4Keys key).reverse
    fun b => (sm4Crypt ks ((slice b 0 16).map BitVec.toNat)).map (BitVec.ofNat 8)
  else
    let ks := aesKeys key
    fun b => (aesDec ks ((slice b 0 16).map BitVec.toNat)).map (BitVec.ofNat 8)

def xorBytes (a b : Bytes) : Bytes := List.zipWith (· ^^^ ·) a b

/-- A string cut into pieces of 16 bytes, the last as it is; by fuel. -/
def chunk16 : Nat → Bytes → List Bytes
  | 0, _ => []
  | n + 1, b => if b.isEmpty then [] else b.take 16 :: chunk16 n (b.drop 16)
def blocks16 (b : Bytes) : List Bytes := chunk16 b.length b

/-- Counter mode from an initial counter block, whose low 32 bits count (R252). -/
def ctrMode (enc : Bytes → Bytes) (iv data : Bytes) : Bytes :=
  ((blocks16 data).zipIdx.map fun x => xorBytes x.1 (enc (slice iv 0 12 ++ toBE 4 (beAt iv 12 4 + x.2)))).flatten

/-- CBC over whole blocks. -/
def cbcEncrypt (enc : Bytes → Bytes) : Bytes → List Bytes → Bytes
  | _, [] => []
  | iv, b :: bs => let c := enc (xorBytes iv b); c ++ cbcEncrypt enc c bs
def cbcDecrypt (dec : Bytes → Bytes) : Bytes → List Bytes → Bytes
  | _, [] => []
  | iv, b :: bs => xorBytes (dec b) iv ++ cbcDecrypt dec b bs

/-! ### GCM -/

/-- The product of two blocks of GHASH, bit 0 most significant; `n` bits of `x` are left. -/
def ghashMul (x : Nat) : Nat → Nat → Nat → Nat
  | 0, _, z => z
  | n + 1, v, z => ghashMul x n (if v % 2 = 1 then v / 2 ^^^ 0xE1 * 2 ^ 120 else v / 2) (if bitN x n then z ^^^ v else z)

/-- GHASH of blocks, each filled with zeros to 16 bytes. -/
def ghash (h : Nat) (bs : List Bytes) : Nat := bs.foldl (fun y b => ghashMul (y ^^^ beNat (slice b 0 16)) 128 h 0) 0

/-- The tag over AAD and ciphertext. -/
def gcmTag (enc : Bytes → Bytes) (nonce aad ct : Bytes) : Bytes :=
  let s := ghash (beNat (enc (List.replicate 16 0))) (blocks16 aad ++ blocks16 ct ++ [toBE 8 (8 * aad.length) ++ toBE 8 (8 * ct.length)])
  xorBytes (toBE 16 s) (enc (slice nonce 0 12 ++ toBE 4 1))

/-- The data under GCM: counter mode from the second counter block. -/
def gcmData (enc : Bytes → Bytes) (nonce data : Bytes) : Bytes := ctrMode enc (slice nonce 0 12 ++ toBE 4 2) data

/-! ### XTS -/

/-- The tweak of the next block: times x, as a little-endian number. -/
def xtsNext (t : Nat) : Nat := if t < 2 ^ 127 then 2 * t else (2 * t - 2 ^ 128) ^^^ 0x87

/-- A block under a tweak. -/
def xtsBlock (f : Bytes → Bytes) (t : Nat) (b : Bytes) : Bytes := xorBytes (f (xorBytes b (toLE 16 t))) (toLE 16 t)

/-- XTS of a data unit's blocks from tweak `t`; a last piece shorter than a block steals from the one before it. -/
def xtsRun (f : Bytes → Bytes) (dec : Bool) : Nat → List Bytes → Bytes
  | _, [] => []
  | t, [a, b] =>
    if b.length = 16 then xtsBlock f t a ++ xtsBlock f (xtsNext t) b
    else
      let t1 := if dec then xtsNext t else t
      let t2 := if dec then t else xtsNext t
      let c := xtsBlock f t1 a
      xtsBlock f t2 (b ++ c.drop b.length) ++ c.take b.length
  | t, a :: bs => xtsBlock f t a ++ xtsRun f dec (xtsNext t) bs

/-- XTS under a double key: kinds 5 to 7 are two keys of kinds 1 to 3. Log 6 (PRESUMED). -/
def xts (kind : Nat) (dec : Bool) (key tweak data : Bytes) : Bytes :=
  let n := key.length / 2
  let k1 := key.take n
  xtsRun (if dec then blockDec (kind - 4) k1 else blockEnc (kind - 4) k1) dec (leNat (blockEnc (kind - 4) (key.drop n) tweak)) (blocks16 data)

/-! ### ChaCha20-Poly1305 -/

/-- The state with the quarter round on four of its words. -/
def quarter (s : List Nat) (i j k l : Nat) : List Nat :=
  let a := (s.getD i 0 + s.getD j 0) % 2 ^ 32
  let d := rotl32 (s.getD l 0 ^^^ a) 16
  let c := (s.getD k 0 + d) % 2 ^ 32
  let b := rotl32 (s.getD j 0 ^^^ c) 12
  let a := (a + b) % 2 ^ 32
  let d := rotl32 (d ^^^ a) 8
  let c := (c + d) % 2 ^ 32
  let b := rotl32 (b ^^^ c) 7
  (((s.set i a).set j b).set k c).set l d

/-- A column round and a diagonal round. -/
def chachaDouble (s : List Nat) : List Nat :=
  let s := quarter (quarter (quarter (quarter s 0 4 8 12) 1 5 9 13) 2 6 10 14) 3 7 11 15
  quarter (quarter (quarter (quarter s 0 5 10 15) 1 6 11 12) 2 7 8 13) 3 4 9 14

def chachaRounds : Nat → List Nat → List Nat
  | 0, s => s
  | n + 1, s => chachaRounds n (chachaDouble s)

/-- A key stream block of 64 bytes. -/
def chachaBlock (key nonce : Bytes) (counter : Nat) : Bytes :=
  let s := [0x61707865, 0x3320646E, 0x79622D32, 0x6B206574] ++ ((List.range 8).map fun i => leAt key (4 * i) 4) ++ [counter] ++
    ((List.range 3).map fun i => leAt nonce (4 * i) 4)
  (List.zipWith (fun a b => (a + b) % 2 ^ 32) s (chachaRounds 10 s)).flatMap (toLE 4)

/-- ChaCha20 of a string from block 1. -/
def chacha20 (key nonce data : Bytes) : Bytes :=
  xorBytes data ((List.range ((data.length + 63) / 64)).flatMap fun i => chachaBlock key nonce (i + 1))

/-- Poly1305 of a message under a one-time key. -/
def poly1305 (key m : Bytes) : Bytes :=
  let r := leAt key 0 16 &&& 0x0FFFFFFC0FFFFFFC0FFFFFFC0FFFFFFF
  toLE 16 ((blocks16 m).foldl (fun a b => (a + leNat (b ++ [1])) * r % (2 ^ 130 - 5)) 0 + leAt key 16 16)

def pad16 (b : Bytes) : Bytes := b ++ List.replicate ((16 - b.length % 16) % 16) 0

/-- The tag over AAD and ciphertext. -/
def chachaTag (key nonce aad ct : Bytes) : Bytes :=
  poly1305 (slice (chachaBlock key nonce 0) 0 32) (pad16 aad ++ pad16 ct ++ toLE 8 aad.length ++ toLE 8 ct.length)

/-! ### By suite and by mode -/

/-- Authenticated encryption: suite, key, nonce, AAD, plaintext to ciphertext and tag. Suites 1 to 3 GCM, 4 ChaCha20-Poly1305, 5 to 7
GMAC, which is GCM over AAD alone (R267). Log 6 (PRESUMED). -/
def aeadSeal (suite : Nat) (key nonce aad plain : Bytes) : Bytes × Bytes :=
  if suite = 4 then
    let ct := chacha20 key nonce plain
    (ct, chachaTag key nonce aad ct)
  else
    let enc := blockEnc (if 5 ≤ suite then suite - 4 else suite) key
    let ct := gcmData enc nonce plain
    (ct, gcmTag enc nonce aad ct)

/-- The inverse of `aeadSeal`: the plaintext that the ciphertext deciphers to, and whether the tag verifies. Log 6 (PRESUMED). -/
def aeadOpen (suite : Nat) (key nonce aad ct tag : Bytes) : Bytes × Bool :=
  if suite = 4 then (chacha20 key nonce ct, chachaTag key nonce aad ct == tag)
  else
    let enc := blockEnc (if 5 ≤ suite then suite - 4 else suite) key
    (gcmData enc nonce ct, gcmTag enc nonce aad ct == tag)

/-- A bare mode (R252): 2 CTR, 3 CBC, 4 XTS. Log 6 (PRESUMED). -/
def cipherBare (mode kind : Nat) (dec : Bool) (key iv data : Bytes) : Bytes :=
  if mode = 4 then xts kind dec key iv data
  else if mode = 3 then
    (if dec then cbcDecrypt (blockDec kind key) iv (blocks16 data) else cbcEncrypt (blockEnc kind key) iv (blocks16 data))
  else ctrMode (blockEnc kind key) iv data

end Sys2Proof.Machine
end

