-- ==== Sys2Proof/Config.lean ====
section
/-! DEFINITION. What an implementation or the outside world fixes and the spec leaves open: free values without a
body. No statement can evaluate them or prove a value of them. -/

namespace Sys2Proof.Config

/-- Draw number `n` of the part's free values: random draws (R259, R347, R364), victims of pseudo-LRU replacement
(R356), unstated results. Every use reduces it to the range the spec gives. Log 7 (DESIGN CHOICE). -/
opaque free : Nat → Nat

/-- The random number of an SM2 signature by a private scalar over a message (GB/T 32918.2 leaves it to the signer).
Log 6 (PRESUMED). -/
opaque signNonce (scalar : Nat) (message : Bytes) : Nat

/-- The distinguishing identifier of the device identity key's signatures, which the spec does not give (R260, R464).
Log 6 (PRESUMED). -/
opaque identityId : Bytes

/-- Whether a DER certificate's SubjectPublicKeyInfo is a given public key (R463). Log 7 (DESIGN CHOICE). -/
opaque certHasKey (cert key : Bytes) : Bool

/-- Whether the embedded automaton `store` matches pattern `id` in the scanned bytes (R128, R129). Log 7 (DESIGN CHOICE). -/
opaque automatonMatches (store : Bytes) (id : Nat) (scanned : Bytes) : Bool

/-- The Shuwick-assigned PCI vendor identifier (R316) and manufacturer identity (R461). Log 7 (DESIGN CHOICE). -/
opaque vendorId : Nat
opaque manufacturerId : Nat

/-- The routing ID that a host's enumeration gives the PF of a link (R317): bus and function number. Log 7 (DESIGN CHOICE). -/
opaque pfId (pf : Nat) : Nat

/-- The identifier of the extended capability that PCI Express 7.0 requires at 128 GT/s (R320). Log 7 (DESIGN CHOICE). -/
opaque gen7Capability : Nat

/-- What the part's SPDM CAPABILITIES says of itself, which the spec leaves to the implementation: 0 its time exponent, 1 its transfer
size, 2 its largest message (R464). Log 7 (DESIGN CHOICE). -/
opaque spdmLimits : Nat → Nat

/-- The stepping encoded as the Revision ID (R319, R564). -/
def revision : BitVec 8 := 0x21#8

/-- SRAM codewords of a die (R503). Log 39 (DESIGN CHOICE). -/
opaque sramWords : Nat

/-- The carry flag that an ALU operation other than an addition leaves (R288 names none): operation, A, B. Log 64 (DESIGN CHOICE). -/
opaque aluCarry (op a b : Nat) : Bool

end Sys2Proof.Config
end

