-- ==== Sys2Proof/Machine/Map.lean ====
section
/-! DEFINITION. Sparse tables: every memory, register file and per-object array of the part is a list of
(key, value) pairs with strictly rising keys in which no entry holds the default `d`, so that equal contents
are equal lists. Byte memories (`List Host.Cell`) are the same thing at `α = Byte`. -/

namespace Sys2Proof.Machine

/-- The value at key `k`; `d` where nothing is listed. Log 1 (DESIGN CHOICE). -/
def tget {α : Type} (d : α) : Tab α → Nat → α
  | [], _ => d
  | (k', v) :: t, k => if k' = k then v else tget d t k

/-- Lists `v` at key `k`, keys rising. -/
def tins {α : Type} : Tab α → Nat → α → Tab α
  | [], k, v => [(k, v)]
  | (k', v') :: t, k, v =>
    if k < k' then (k, v) :: (k', v') :: t else if k = k' then (k, v) :: t else (k', v') :: tins t k v

/-- Writes `v` at key `k`; writing the default removes the entry. -/
def tput {α : Type} [DecidableEq α] (d : α) (t : Tab α) (k : Nat) (v : α) : Tab α :=
  if v = d then t.filter fun e => e.1 != k else tins t k v

/-- Applies `f` to the value at key `k`. -/
def tmod {α : Type} [DecidableEq α] (d : α) (t : Tab α) (k : Nat) (f : α → α) : Tab α :=
  tput d t k (f (tget d t k))

/-- The canonical form: keys strictly rise from `lo` and no entry holds the default. -/
def tabWfFrom {α : Type} [DecidableEq α] (d : α) : Nat → Tab α → Bool
  | _, [] => true
  | lo, (k, v) :: t => decide (lo ≤ k) && (!decide (v = d)) && tabWfFrom d (k + 1) t

/-- The canonical form of a table with default `d`. -/
def tabWf {α : Type} [DecidableEq α] (d : α) (t : Tab α) : Bool := tabWfFrom d 0 t

/-- The table without the keys that `p` picks. -/
def tdrop {α : Type} (p : Nat → Bool) (t : Tab α) : Tab α := t.filter fun e => !p e.1

/-- Reads `n` consecutive keys from `a`. Log 1 (DESIGN CHOICE). -/
def treadN {α : Type} (d : α) (t : Tab α) : Nat → Nat → List α
  | _, 0 => []
  | a, n + 1 => tget d t a :: treadN d t (a + 1) n

/-- Writes a list of values at consecutive keys from `a`. -/
def twriteN {α : Type} [DecidableEq α] (d : α) (t : Tab α) : Nat → List α → Tab α
  | _, [] => t
  | a, v :: vs => twriteN d (tput d t a v) (a + 1) vs

/-- Writes `v` at the `n` consecutive keys from `a`. -/
def tfillN {α : Type} [DecidableEq α] (d : α) (t : Tab α) (a n : Nat) (v : α) : Tab α :=
  if v = d then tdrop (fun k => decide (a ≤ k) && decide (k < a + n)) t
  else twriteN d t a (List.replicate n v)

/-- The canonical form of a byte memory whose unlisted bytes read `d`. -/
def Memory.wf (d : Byte) (m : List Host.Cell) : Bool := tabWf d m

end Sys2Proof.Machine
end

