-- ==== Sys2Proof/Machine/RegTable.lean ====
section
/-! DEFINITION. The register table of the spec, row by row: every register of the blocks' "Registers" sections
with its offset, its index strides, the masks of its fields by access kind (RW, RWD, W1C, W1S, WO, RC, RO; R15,
R16), the mask of its SEC fields (R527) and its reset value. Selected by block in `blockRegs` (R539, R540). A reset
value that depends on the index is stated in Machine/Registers.lean. -/

namespace Sys2Proof.Machine

/-- One register of the spec. `dims` are (count, stride) pairs of its indices. -/
structure RegDef where
  name : String
  off : Nat
  dims : List (Nat × Nat)
  rw : Nat
  rwd : Nat
  w1c : Nat
  w1s : Nat
  wo : Nat
  rc : Nat
  ro : Nat
  sec : Nat
  reset : Nat
deriving DecidableEq, Repr

/-- The address of a register: block number (R539; 32, 33, 34 for the three parts of the package block, R540; 35 a
doorbell page, 36 the recovery function's BAR0) and offset in the block. -/
structure RegAddr where
  blk : Nat
  off : Nat
deriving DecidableEq, Repr

/-- Registers of the Parser block (spec/03). -/
def regsParser : List RegDef := [
  ⟨"PGR_CTRL", 0, [], 1, 0, 2, 0, 0, 0, 0, 0, 0⟩,
  ⟨"PGR_GRAPH_INFO", 4, [], 0, 0, 0, 0, 0, 0, 0x1ff, 0, 0⟩,
  ⟨"PGR_GRAPH_ID", 8, [], 0, 0, 0, 0, 0, 0, 0xffffffff, 0, 0⟩,
  ⟨"PGR_START_NET_p", 0x100, [(64, 4)], 0, 0xff, 0, 0, 0, 0, 0, 0, 0⟩,
  ⟨"PGR_START_HOST", 0x200, [], 0, 0xff, 0, 0, 0, 0, 0, 0, 0⟩,
  ⟨"PGR_ERR_CNT_c", 0x1000, [(256, 4)], 0, 0, 0, 0, 0, 0xffffffff, 0, 0, 0⟩,
  ⟨"PGR_PORT_ERR_p", 0x1400, [(64, 4)], 0, 0, 0, 0, 0, 0xffffffff, 0, 0, 0⟩,
  ⟨"PGR_HOST_ERR_h", 0x1500, [(4, 4)], 0, 0, 0, 0, 0, 0xffffffff, 0, 0, 0⟩,
  ⟨"PGR_NODE_n", 0x10000, [(256, 64), (16, 4)], 0, 0, 0, 0, 0, 0, 0xffffffff, 0, 0⟩,
  ⟨"PGR_TRANS_n_j", 0x20000, [(4096, 16), (4, 4)], 0, 0, 0, 0, 0, 0, 0xffffffff, 0, 0⟩]

/-- Registers of the Headgate block (spec/05 and 21). -/
def regsHeadgate : List RegDef := [
  ⟨"HGT_CTRL", 0, [], 1, 0, 2, 0, 0, 0, 0, 0, 0⟩,
  ⟨"HGT_SCAN_CFG", 0x10, [], 0, 0x7f, 0, 0, 0, 0, 0, 0, 4⟩,
  ⟨"HGT_SCAN_PORT_EN_LO", 0x14, [], 0, 0xffffffff, 0, 0, 0, 0, 0, 0, 0⟩,
  ⟨"HGT_SCAN_PORT_EN_HI", 0x18, [], 0, 0xffffffff, 0, 0, 0, 0, 0, 0, 0⟩,
  ⟨"HGT_AUTOMATON_INFO", 0x20, [], 0, 0, 0, 0, 0, 0, 0x1ffff, 0, 0⟩,
  ⟨"HGT_AUTOMATON_ID", 0x24, [], 0, 0, 0, 0, 0, 0, 0xffffffff, 0, 0⟩,
  ⟨"HGT_SCAN_BUSY_CNT", 0x30, [], 0, 0, 0, 0, 0, 0xffffffff, 0, 0, 0⟩,
  ⟨"HGT_HASH_KEY_w", 0x100, [(10, 4)], 0, 0xffffffff, 0, 0, 0, 0, 0, 0, 0⟩,
  ⟨"HGT_INDIR_w", 0x200, [(32, 4)], 0, 0x77777777, 0, 0, 0, 0, 0, 0, 0⟩,
  ⟨"HGT_HASH_PROF_k", 0x400, [(16, 0x10)], 0, 0xffffff3f, 0, 0, 0, 0, 0, 0, 0⟩,
  ⟨"HGT_HASH_SRC_k", 0x404, [(16, 0x10)], 0, 0xffffff, 0, 0, 0, 0, 0, 0, 0⟩]

/-- Registers of the Classification block (spec/04). -/
def regsClassification : List RegDef := [
  ⟨"CLS_CTRL", 0, [], 1, 0, 2, 0, 0, 0, 0, 0, 0⟩,
  ⟨"CLS_PROFILE_MAP_n", 0x100, [(256, 4)], 0, 0xf, 0, 0, 0, 0, 0, 0, 0⟩,
  ⟨"CLS_PROF_CTRL_k", 0x1000, [(16, 0x80)], 0, 0xffff001f, 0, 0, 0, 0, 0, 0, 0⟩,
  ⟨"CLS_PROF_LPM_k", 0x1004, [(16, 0x80)], 0, 0x1ffff, 0, 0, 0, 0, 0, 0, 0⟩,
  ⟨"CLS_PROF_MAC_k", 0x1008, [(16, 0x80)], 0, 0xffff, 0, 0, 0, 0, 0, 0, 0⟩,
  ⟨"CLS_PROF_DIRECT_k", 0x100c, [(16, 0x80)], 0, 0xffffff, 0, 0, 0, 0, 0, 0, 0xffff00⟩,
  ⟨"CLS_PROF_TSEL_k_w", 0x1010, [(16, 0x80), (20, 4)], 0, 0xffffffff, 0, 0, 0, 0, 0, 0, 0xffffffff⟩,
  ⟨"CLS_CNT_SEL", 0x2000, [], 0, 0, 0, 0, 0xc00fffff, 0, 0, 0, 0⟩,
  ⟨"CLS_CNT_SNAP_PKTS_LO", 0x2008, [], 0, 0, 0, 0, 0, 0, 0xffffffff, 0, 0⟩,
  ⟨"CLS_CNT_SNAP_PKTS_HI", 0x200c, [], 0, 0, 0, 0, 0, 0, 0xffffffff, 0, 0⟩,
  ⟨"CLS_CNT_SNAP_BYTES_LO", 0x2010, [], 0, 0, 0, 0, 0, 0, 0xffffffff, 0, 0⟩,
  ⟨"CLS_CNT_SNAP_BYTES_HI", 0x2014, [], 0, 0, 0, 0, 0, 0, 0xffffffff, 0, 0⟩,
  ⟨"CLS_DEMOTED_p", 0x2100, [(64, 4)], 0, 0, 0, 0, 0, 0xffffffff, 0, 0, 0⟩]

/-- Registers of the Epoch block (spec/04). -/
def regsEpoch : List RegDef := [
  ⟨"EPC_STATUS", 0, [], 0, 0, 0, 0, 0, 0, 0xffffff, 0, 0x100000⟩,
  ⟨"EPC_SLOT_s", 0x10, [(4, 4)], 0, 0, 0, 0, 0, 0, 0x7ffff, 0, 0x20000⟩,
  ⟨"EPC_INFLIGHT_s", 0x20, [(4, 4)], 0, 0, 0, 0, 0, 0, 0xffffff, 0, 0⟩,
  ⟨"EPC_PKTS_LO_s", 0x40, [(4, 8)], 0, 0, 0, 0, 0, 0, 0xffffffff, 0, 0⟩,
  ⟨"EPC_PKTS_HI_s", 0x44, [(4, 8)], 0, 0, 0, 0, 0, 0, 0xffffffff, 0, 0⟩,
  ⟨"EPC_STALL_LIMIT", 0x80, [], 0xffff, 0, 0, 0, 0, 0, 0, 0, 0x3e8⟩]

/-- Registers of the Table block (spec/06). -/
def regsTable : List RegDef := [
  ⟨"TBL_CTRL", 0, [], 1, 0, 2, 0, 0, 0, 0, 0, 0⟩,
  ⟨"TBL_MAC_AGE", 0x10, [], 0, 0xfff, 0, 0, 0, 0, 0, 0, 0x12c⟩,
  ⟨"TBL_FLOW_AGE", 0x14, [], 0, 0xfff, 0, 0, 0, 0, 0, 0, 0x3c⟩,
  ⟨"TBL_GEN", 0x20, [], 0, 0, 0, 0, 0, 0, 0xffffffff, 0, 0⟩,
  ⟨"TBL_MAC_USED", 0x30, [], 0, 0, 0, 0, 0, 0, 0x1fffffff, 0, 0⟩,
  ⟨"TBL_FLOW_USED", 0x34, [], 0, 0, 0, 0, 0, 0, 0x1fffffff, 0, 0⟩,
  ⟨"TBL_LPM4_USED", 0x38, [], 0, 0, 0, 0, 0, 0, 0x1fffffff, 0, 0⟩,
  ⟨"TBL_LPM6_USED", 0x3c, [], 0, 0, 0, 0, 0, 0, 0x1fffffff, 0, 0⟩,
  ⟨"TBL_EVT_CNT_e", 0x40, [(12, 4)], 0, 0, 0, 0, 0, 0xffffffff, 0, 0, 0⟩,
  ⟨"TBL_LEARN_PROF_k", 0x100, [(16, 4)], 0, 0xff01, 0, 0, 0, 0, 0, 0, 0⟩,
  ⟨"TBL_LEARN_PORT_p", 0x200, [(64, 4)], 0, 0x1ffffff, 0, 0, 0, 0, 0, 0, 0⟩,
  ⟨"TBL_LEARN_PORT_CNT_p", 0x300, [(64, 4)], 0, 0, 0, 0, 0, 0, 0xffffff, 0, 0⟩,
  ⟨"TBL_LEARN_INST_i", 0x1000, [(512, 4)], 0, 0x1ffffff, 0, 0, 0, 0, 0, 0, 0⟩,
  ⟨"TBL_LEARN_INST_CNT_i", 0x1800, [(512, 4)], 0, 0, 0, 0, 0, 0, 0xffffff, 0, 0⟩]

/-- Registers of the Buffer block (spec/07). -/
def regsBuffer : List RegDef := [
  ⟨"BUF_CTRL", 0, [], 5, 0, 2, 0, 0, 0, 0, 0, 0⟩,
  ⟨"BUF_POOL_THROUGH", 0x10, [], 0, 0x7ffff, 0, 0, 0, 0, 0, 0, 0x10000⟩,
  ⟨"BUF_POOL_ENGINE", 0x14, [], 0, 0x7ffff, 0, 0, 0, 0, 0, 0, 0x8000⟩,
  ⟨"BUF_POOL_CULVERT", 0x18, [], 0, 0x7ffff, 0, 0, 0, 0, 0, 0, 0x8000⟩,
  ⟨"BUF_POOL_TENANT", 0x1c, [], 0, 0, 0, 0, 0, 0, 0xfffff, 0, 0x58c00⟩,
  ⟨"BUF_CLASS_FRAC_LO", 0x20, [], 0, 0xffffffff, 0, 0, 0, 0, 0, 0, 0⟩,
  ⟨"BUF_CLASS_FRAC_HI", 0x24, [], 0, 0xffffffff, 0, 0, 0, 0, 0, 0, 0⟩,
  ⟨"BUF_SPILL_USED", 0x30, [], 0, 0, 0, 0, 0, 0, 0x3ffffff, 0, 0⟩,
  ⟨"BUF_OCC_SEL", 0x40, [], 0, 0, 0, 0, 0x1fff, 0, 0, 0, 0⟩,
  ⟨"BUF_OCC_SNAP_TOTAL", 0x44, [], 0, 0, 0, 0, 0, 0, 0x3ffffff, 0, 0⟩,
  ⟨"BUF_OCC_SNAP_ONDIE", 0x48, [], 0, 0, 0, 0, 0, 0, 0x3ffffff, 0, 0⟩,
  ⟨"BUF_DROP_SEL", 0x50, [], 0, 0, 0, 0, 0x401fffff, 0, 0, 0, 0⟩,
  ⟨"BUF_DROP_SNAP", 0x54, [], 0, 0, 0, 0, 0, 0, 0xffffffff, 0, 0⟩,
  ⟨"BUF_DROP_TOTAL_r", 0x400, [(256, 4)], 0, 0, 0, 0, 0, 0xffffffff, 0, 0, 0⟩,
  ⟨"BUF_PORT_SHARE_n", 0x1000, [(512, 8)], 0, 0x3ffffff, 0, 0, 0, 0, 0, 0, 0x10000⟩,
  ⟨"BUF_PORT_ONDIE_n", 0x1004, [(512, 8)], 0, 0x3ffffff, 0, 0, 0, 0, 0, 0, 0x4000⟩]

/-- Registers of the Scheduling block (spec/07 and 02). -/
def regsScheduling : List RegDef := [
  ⟨"SCH_CTRL", 0, [], 1, 0, 2, 0, 0, 0, 0, 0, 0⟩,
  ⟨"SCH_REFILL_LATE", 0x20, [], 0, 0, 0, 0, 0, 0xffffffff, 0, 0, 0⟩,
  ⟨"SCH_SHP_SEL", 0x30, [], 0, 0, 0, 0, 0x1ffff, 0, 0, 0, 0⟩,
  ⟨"SCH_SHP_SNAP_RATE", 0x34, [], 0, 0, 0, 0, 0, 0, 0xffffffff, 0, 0⟩,
  ⟨"SCH_SHP_SNAP_BURST", 0x38, [], 0, 0, 0, 0, 0, 0, 0xffffffff, 0, 0⟩,
  ⟨"SCH_SHP_SNAP_CREDIT", 0x3c, [], 0, 0, 0, 0, 0, 0, 0xffffffff, 0, 0⟩,
  ⟨"SCH_FLUME_LAT_i", 0x800, [(8, 4)], 0, 0xffff, 0, 0, 0, 0, 0, 0, 0x438⟩,
  ⟨"SCH_FLUME_MAXWAIT_p", 0x900, [(64, 4)], 0, 0xffff, 0, 0, 0, 0, 0, 0, 0⟩,
  ⟨"SCH_HOST_SHP_h", 0xa00, [(4, 4)], 0, 0xffffff, 0, 0, 0, 0, 0, 0, 0xffffff⟩,
  ⟨"SCH_PORT_CTRL_p", 0x1000, [(64, 0x40)], 0, 0xffffffff, 0, 0, 0, 0, 0, 0, 0xffffff00⟩,
  ⟨"SCH_PORT_WT_LO_p", 0x1004, [(64, 0x40)], 0, 0xffffffff, 0, 0, 0, 0, 0, 0, 0x1010101⟩,
  ⟨"SCH_PORT_WT_HI_p", 0x1008, [(64, 0x40)], 0, 0xffffffff, 0, 0, 0, 0, 0, 0, 0x1010101⟩,
  ⟨"SCH_PORT_CSHP_p_c", 0x1010, [(64, 0x40), (8, 4)], 0, 0xffffff, 0, 0, 0, 0, 0, 0, 0xffffff⟩]

/-- Registers of the Weir block (spec/07). -/
def regsWeir : List RegDef := [
  ⟨"WEI_CTRL", 0, [], 1, 0, 2, 0, 0, 0, 0, 0, 0⟩,
  ⟨"WEI_CNT_SEL", 0x10, [], 0, 0, 0, 0, 0x4001ffff, 0, 0, 0, 0⟩,
  ⟨"WEI_CNT_GREEN_LO", 0x20, [], 0, 0, 0, 0, 0, 0, 0xffffffff, 0, 0⟩,
  ⟨"WEI_CNT_GREEN_HI", 0x24, [], 0, 0, 0, 0, 0, 0, 0xffffffff, 0, 0⟩,
  ⟨"WEI_CNT_YELLOW_LO", 0x28, [], 0, 0, 0, 0, 0, 0, 0xffffffff, 0, 0⟩,
  ⟨"WEI_CNT_YELLOW_HI", 0x2c, [], 0, 0, 0, 0, 0, 0, 0xffffffff, 0, 0⟩,
  ⟨"WEI_CNT_RED_LO", 0x30, [], 0, 0, 0, 0, 0, 0, 0xffffffff, 0, 0⟩,
  ⟨"WEI_CNT_RED_HI", 0x34, [], 0, 0, 0, 0, 0, 0, 0xffffffff, 0, 0⟩]

/-- Registers of the Mac block (spec/08). -/
def regsMac : List RegDef := [
  ⟨"MAC_CTRL", 0, [], 1, 0, 2, 0, 0, 0, 0, 0, 0⟩,
  ⟨"MAC_CNT_SEL", 0x20, [], 0, 0, 0, 0, 0x40001f3f, 0, 0, 0, 0⟩,
  ⟨"MAC_CNT_SNAP_LO", 0x28, [], 0, 0, 0, 0, 0, 0, 0xffffffff, 0, 0⟩,
  ⟨"MAC_CNT_SNAP_HI", 0x2c, [], 0, 0, 0, 0, 0, 0, 0xffffffff, 0, 0⟩,
  ⟨"MAC_LANE_CFG_l", 0x100, [(64, 4)], 0, 0xff, 0, 0, 0, 0, 0, 0, 0⟩,
  ⟨"MAC_PORT_CFG_p", 0x1000, [(64, 0x40)], 0, 0x7fff7f, 0, 0, 0, 0, 0, 0, 0x240000⟩,
  ⟨"MAC_PORT_FC_p", 0x1004, [(64, 0x40)], 0, 0x1fff01, 0, 0, 0, 0, 0, 0, 0⟩,
  ⟨"MAC_PORT_FCTHR_p", 0x1008, [(64, 0x40)], 0, 0xffffffff, 0, 0, 0, 0, 0, 0, 0x1000200⟩,
  ⟨"MAC_PORT_PMP_p", 0x100c, [(64, 0x40)], 0, 0x1ff, 0, 0, 0, 0, 0xc00, 0, 0x26⟩,
  ⟨"MAC_PORT_PTP_p", 0x1010, [(64, 0x40)], 0, 0x1ffffff, 0, 0, 0, 0, 0, 0, 0⟩,
  ⟨"MAC_PORT_STATUS_p", 0x1014, [(64, 0x40)], 0, 0, 2, 0, 0, 0, 0x3ffd, 0, 0⟩]

/-- Registers of the Cipher block (spec/09). -/
def regsCipher : List RegDef := [
  ⟨"CIP_CTRL", 0, [], 1, 0, 2, 0, 0, 0, 0, 0, 0⟩,
  ⟨"CIP_SHARE", 0x10, [], 0, 0xff00ff, 0, 0, 0, 0, 0, 0, 0x11⟩,
  ⟨"CIP_CORES", 0x14, [], 0, 0, 0, 0, 0, 0, 0x3fffffff, 0, 0x30000000⟩,
  ⟨"CIP_POOL_USED", 0x18, [], 0, 0, 0, 0, 0, 0, 0x3fff, 0, 0⟩,
  ⟨"CIP_SLOT_SEL", 0x20, [], 0, 0, 0, 0, 0x4000ffff, 0, 0, 0, 0⟩,
  ⟨"CIP_SLOT_AUTHFAIL", 0x24, [], 0, 0, 0, 0, 0, 0, 0xffffffff, 0, 0⟩,
  ⟨"CIP_SLOT_REPLAY", 0x28, [], 0, 0, 0, 0, 0, 0, 0xffffffff, 0, 0⟩,
  ⟨"CIP_EVT_CNT_e", 0x30, [(4, 4)], 0, 0, 0, 0, 0, 0xffffffff, 0, 0, 0⟩]

/-- Registers of the Macsec block (spec/09). -/
def regsMacsec : List RegDef := [
  ⟨"CIP_MACSEC_CTRL", 0, [], 1, 0, 2, 0, 0, 0, 0, 0, 0⟩,
  ⟨"CIP_MACSEC_PORT_p", 0x1000, [(64, 4)], 0, 0x7f, 0, 0, 0, 0, 0, 0, 0x60⟩]

/-- Registers of the Engine block (spec/10). -/
def regsEngine : List RegDef := [
  ⟨"DRE_CTRL", 0, [], 1, 4, 2, 0, 0, 0, 0, 0, 0⟩,
  ⟨"DRE_STATUS", 4, [], 0, 0, 0, 0, 0, 0, 1, 0, 1⟩,
  ⟨"DRE_CS_INFO", 8, [], 0, 0, 0, 0, 0, 0, 0xffffffff, 0, 0⟩,
  ⟨"DRE_CS_ID", 0xc, [], 0, 0, 0, 0, 0, 0, 0xffffffff, 0, 0⟩,
  ⟨"DRE_WATCHDOG", 0x20, [], 0xffff, 0, 0, 0, 0, 0, 0, 0, 0x40⟩,
  ⟨"DRE_CTX_SEL", 0x40, [], 0, 0, 0, 0, 0x1fff, 0, 0, 0, 0⟩,
  ⟨"DRE_CTX_SNAP_STATE", 0x44, [], 0, 0, 0, 0, 0, 0, 0x7ffff, 0, 0⟩,
  ⟨"DRE_CTX_SNAP_WORDS", 0x48, [], 0, 0, 0, 0, 0, 0, 0xffffffff, 0, 0⟩,
  ⟨"DRE_CTX_KILL", 0x50, [], 0, 0, 0, 0, 0x80001fff, 0, 0, 0, 0⟩,
  ⟨"DRE_CTX_USE", 0x60, [], 0, 0, 0, 0, 0, 0, 0xfffffff, 0, 0⟩,
  ⟨"DRE_FAULT_CNT_c", 0x80, [(8, 4)], 0, 0, 0, 0, 0, 0xffffffff, 0, 0, 0⟩,
  ⟨"DRE_WORDS_LO", 0xc0, [], 0, 0, 0, 0, 0, 0, 0xffffffff, 0, 0⟩,
  ⟨"DRE_WORDS_HI", 0xc4, [], 0, 0, 0, 0, 0, 0, 0xffffffff, 0, 0⟩,
  ⟨"DRE_STARTS_LO", 0xc8, [], 0, 0, 0, 0, 0, 0, 0xffffffff, 0, 0⟩,
  ⟨"DRE_STARTS_HI", 0xcc, [], 0, 0, 0, 0, 0, 0, 0xffffffff, 0, 0⟩,
  ⟨"DRE_ENTRY_n", 0x400, [(256, 4)], 0, 0, 0, 0, 0, 0, 0x7fff, 0x7fff, 0⟩]

/-- Registers of the HostEp block (spec/11). -/
def regsHostEp : List RegDef := [
  ⟨"HEP_CTRL", 0, [], 1, 0, 2, 0, 0, 0, 0, 0, 0⟩,
  ⟨"HEP_SUBSYS", 0x10, [], 0, 0xffffffff, 0, 0, 0, 0, 0, 0, 0⟩,
  ⟨"HEP_ROM_CFG", 0x14, [], 0, 0x1f, 0, 0, 0, 0, 0x7fff00, 0, 0x14⟩,
  ⟨"HEP_QUAR_HOLD", 0x18, [], 0xffff, 0, 0, 0, 0, 0, 0, 0, 0x3e8⟩,
  ⟨"HEP_EP_CFG_h", 0x100, [(4, 0x40)], 0, 0x3ffffc1, 0, 0, 0, 0, 0, 0, 0⟩,
  ⟨"HEP_EP_STATUS_h", 0x104, [(4, 0x40)], 0, 0, 0x4000400, 0, 0, 0, 0x3ff03ff, 0, 0⟩,
  ⟨"HEP_TAGS_h", 0x108, [(4, 0x40)], 0, 0, 0, 0, 0, 0, 0xffffff, 0, 0⟩,
  ⟨"HEP_EVT_CNT_h_e", 0x120, [(4, 0x40), (8, 4)], 0, 0, 0, 0, 0, 0xffffffff, 0, 0, 0⟩]

/-- Registers of the Instance block (spec/12). -/
def regsInstance : List RegDef := [
  ⟨"INS_CTRL", 0, [], 1, 0, 2, 0, 0, 0, 0, 0, 0⟩,
  ⟨"INS_XLT_FREE", 0x10, [], 0, 0, 0, 0, 0, 0, 0x7ffff, 0, 0x60000⟩,
  ⟨"INS_XLT_HITS", 0x14, [], 0, 0, 0, 0, 0, 0xffffffff, 0, 0, 0⟩,
  ⟨"INS_XLT_MISSES", 0x18, [], 0, 0, 0, 0, 0, 0xffffffff, 0, 0, 0⟩,
  ⟨"INS_EVT_CNT_e", 0x20, [(4, 4)], 0, 0, 0, 0, 0, 0xffffffff, 0, 0, 0⟩,
  ⟨"INS_STATE_i", 0x1000, [(512, 0x20)], 0, 0, 0, 0, 0, 0, 0x7ffff, 0, 0⟩,
  ⟨"INS_VF_i", 0x1004, [(512, 0x20)], 0, 0, 0, 0, 0, 0, 0x3ff, 0, 0⟩,
  ⟨"INS_KEYGEN_i", 0x1008, [(512, 0x20)], 0, 0, 0, 0, 0, 0, 0xffffffff, 0, 0⟩,
  ⟨"INS_KEYS_i", 0x100c, [(512, 0x20)], 0, 0, 0, 0, 0, 0, 0x1fffffff, 0, 0⟩,
  ⟨"INS_XLT_USED_i", 0x1010, [(512, 0x20)], 0, 0, 0, 0, 0, 0, 0x7ffff, 0, 0⟩,
  ⟨"INS_XLT_QUOTA_i", 0x1014, [(512, 0x20)], 0, 0, 0, 0, 0, 0, 0x7ffff, 0, 0⟩,
  ⟨"INS_XLT_FAULT_i", 0x1018, [(512, 0x20)], 0, 0, 0, 0, 0, 0xffffffff, 0, 0, 0⟩]

/-- Registers of the Channel block (spec/13). -/
def regsChannel : List RegDef := [
  ⟨"CHN_CTRL", 0, [], 1, 0, 2, 0, 0, 0, 0, 0, 0⟩,
  ⟨"CHN_HALT_CNT_c", 0x100, [(16, 4)], 0, 0, 0, 0, 0, 0xffffffff, 0, 0, 0⟩,
  ⟨"CHN_EVT_CNT_e", 0x200, [(3, 4)], 0, 0, 0, 0, 0, 0xffffffff, 0, 0, 0⟩]

/-- Registers of the Dma block (spec/14). -/
def regsDma : List RegDef := [
  ⟨"DMA_CTRL", 0, [], 1, 0, 2, 0, 0, 0, 0, 0, 0⟩,
  ⟨"DMA_STAGE_CAP", 0x10, [], 0, 0x7ff, 0, 0, 0, 0, 0, 0, 0x40⟩,
  ⟨"DMA_STAGE_USED", 0x14, [], 0, 0, 0, 0, 0, 0, 0x7ff, 0, 0⟩,
  ⟨"DMA_EVT_CNT_e", 0x20, [(4, 4)], 0, 0, 0, 0, 0, 0xffffffff, 0, 0, 0⟩,
  ⟨"DMA_FULL_CNT_i", 0x1000, [(513, 4)], 0, 0, 0, 0, 0, 0xffffffff, 0, 0, 0⟩]

/-- Registers of the Span block (spec/15). -/
def regsSpan : List RegDef := [
  ⟨"SPN_CTRL", 0, [], 1, 0, 2, 0, 0, 0, 0, 0, 0⟩,
  ⟨"SPN_DEVICE", 0x10, [], 0, 0x3fff, 0, 0, 0, 0, 0, 0x3fff, 0⟩,
  ⟨"SPN_DOMAIN", 0x14, [], 0, 0xffffffff, 0, 0, 0, 0, 0, 0xffffffff, 0⟩,
  ⟨"SPN_BASE_MAC_LO", 0x18, [], 0, 0xfffffe00, 0, 0, 0, 0, 0, 0xfffffe00, 0⟩,
  ⟨"SPN_BASE_MAC_HI", 0x1c, [], 0, 0xffff, 0, 0, 0, 0, 0, 0xffff, 0⟩,
  ⟨"SPN_HELLO", 0x20, [], 0, 0xff3fff, 0, 0, 0, 0, 0, 0, 0x303e8⟩,
  ⟨"SPN_PORT_EN_LO", 0x30, [], 0, 0xffffffff, 0, 0, 0, 0, 0, 0, 0⟩,
  ⟨"SPN_PORT_EN_HI", 0x34, [], 0, 0xffffffff, 0, 0, 0, 0, 0, 0, 0⟩,
  ⟨"SPN_PORT_INSTALL_LO", 0x38, [], 0, 0xffffffff, 0, 0, 0, 0, 0, 0, 0⟩,
  ⟨"SPN_PORT_INSTALL_HI", 0x3c, [], 0, 0xffffffff, 0, 0, 0, 0, 0, 0, 0⟩,
  ⟨"SPN_TIME", 0x40, [], 0xffff0001, 0, 0, 0, 0, 0, 0, 0, 0⟩,
  ⟨"SPN_GM_ID_LO", 0x44, [], 0xffffffff, 0, 0, 0, 0, 0, 0, 0, 0⟩,
  ⟨"SPN_GM_ID_HI", 0x48, [], 0xffffffff, 0, 0, 0, 0, 0, 0, 0, 0⟩,
  ⟨"SPN_BARRIER_CTRL", 0x50, [], 0, 0, 0, 0, 1, 0, 0x700, 0, 0⟩,
  ⟨"SPN_NEIGH_p", 0x100, [(64, 4)], 0, 0, 8, 0, 0, 0, 0x3ffff7, 0, 0⟩,
  ⟨"SPN_EVT_CNT_e", 0x200, [(8, 4)], 0, 0, 0, 0, 0, 0xffffffff, 0, 0, 0⟩]

/-- Registers of the Clock block (spec/18). -/
def regsClock : List RegDef := [
  ⟨"CLK_STATUS", 0, [], 0, 0, 0, 0, 0, 0, 0x1ff7f7f, 0, 0x4010⟩,
  ⟨"CLK_DIV_k", 0x10, [(7, 4)], 0, 0, 0, 0, 0, 0, 0x1fff, 0, 0⟩,
  ⟨"CLK_GATE", 0x40, [], 0x1ffff, 0, 0, 0, 0, 0, 0, 0, 0x1ffff⟩,
  ⟨"CLK_GATE_FLAGS", 0x44, [], 0, 0, 3, 0, 0, 0, 0, 0, 0⟩,
  ⟨"CLK_TRIP_CNT", 0x48, [], 0, 0, 0, 0, 0, 0xffffffff, 0, 0, 0⟩,
  ⟨"CLK_TB_NS_LO", 0x100, [], 0, 0, 0, 0, 0, 0, 0xffffffff, 0, 0⟩,
  ⟨"CLK_TB_NS_HI", 0x104, [], 0, 0, 0, 0, 0, 0, 0xffffffff, 0, 0⟩,
  ⟨"CLK_TB_FRAC", 0x108, [], 0, 0, 0, 0, 0, 0, 0xffffffff, 0, 0⟩,
  ⟨"CLK_TB_RATE", 0x10c, [], 0xffffffff, 0, 0, 0, 0, 0, 0, 0, 0⟩,
  ⟨"CLK_TB_STEP_LO", 0x110, [], 0, 0, 0, 0, 0xffffffff, 0, 0, 0, 0⟩,
  ⟨"CLK_TB_STEP_HI", 0x114, [], 0, 0, 0, 0, 0xffffffff, 0, 0, 0, 0⟩]

/-- Registers of the PowerDie block (spec/19). -/
def regsPowerDie : List RegDef := [
  ⟨"PWR_SOFT_RST", 0, [], 0, 0, 0, 0x1ffff, 0, 0, 0, 0, 0⟩,
  ⟨"PWR_SOFT_FLAGS", 4, [], 0, 0, 1, 0, 0, 0, 0, 0, 0⟩]

/-- Registers of the Fault block (spec/20). -/
def regsFault : List RegDef := [
  ⟨"FLT_GUARANTEE", 0, [], 0, 0, 0, 0, 0, 0, 0x1f, 0, 0⟩,
  ⟨"FLT_SCRUB_CTRL", 4, [], 3, 0, 4, 0, 0, 0, 0, 0, 3⟩,
  ⟨"FLT_MASK_w", 0x10, [(8, 4)], 0xffffffff, 0, 0, 0, 0, 0, 0, 0, 0⟩,
  ⟨"FLT_CLASS_SEL", 0x40, [], 0, 0, 0, 0, 0x400000ff, 0, 0, 0, 0⟩,
  ⟨"FLT_SNAP_COUNT", 0x44, [], 0, 0, 0, 0, 0, 0, 0xffffffff, 0, 0⟩,
  ⟨"FLT_SNAP_FIRST_w", 0x60, [(8, 4)], 0, 0, 0, 0, 0, 0, 0xffffffff, 0, 0⟩,
  ⟨"FLT_SNAP_LAST_w", 0x80, [(8, 4)], 0, 0, 0, 0, 0, 0, 0xffffffff, 0, 0⟩,
  ⟨"FLT_PIN", 0xa0, [], 0, 0, 0, 0, 4, 0, 3, 0, 0⟩,
  ⟨"FLT_CUL_RETRAIN", 0xa4, [], 0, 0, 0, 0, 0x80000007, 0, 0, 0, 0⟩,
  ⟨"FLT_LOG_PROD", 0x100, [], 0, 0, 0, 0, 0, 0, 0xffffffff, 0, 0⟩,
  ⟨"FLT_LOG_CONS", 0x104, [], 0xffffffff, 0, 0, 0, 0, 0, 0, 0, 0⟩,
  ⟨"FLT_LOG_STATUS", 0x108, [], 0, 0, 2, 0, 0, 0, 1, 0, 0⟩,
  ⟨"FLT_LOG_OVF", 0x10c, [], 0, 0, 0, 0, 0, 0xffffffff, 0, 0, 0⟩,
  ⟨"FLT_LOG_SEQ", 0x110, [], 0, 0, 0, 0, 0, 0, 0xffffffff, 0, 0⟩,
  ⟨"FLT_VRING_PROD", 0x120, [], 0, 0, 0, 0, 0, 0, 0xffffffff, 0, 0⟩,
  ⟨"FLT_VRING_CONS", 0x124, [], 0xffffffff, 0, 0, 0, 0, 0, 0, 0, 0⟩,
  ⟨"FLT_VERDICT_OVF", 0x128, [], 0, 0, 0, 0, 0, 0xffffffff, 0, 0, 0⟩]

/-- Registers of the Package block (spec/21, 02 and 16). -/
def regsPackage : List RegDef := [
  ⟨"PKG_ID", 0, [], 0, 0, 0, 0, 0, 0, 0xfffffff, 0, 0⟩,
  ⟨"PKG_DIE_MAP", 4, [], 0, 0, 0, 0, 0, 0, 0xff, 0, 0⟩,
  ⟨"PKG_STEWARD", 8, [], 0, 0x3f, 0, 0, 0, 0, 0, 0x3f, 0⟩,
  ⟨"PKG_TENANT_MODE", 0x40, [], 0, 3, 0, 0, 0, 0, 0xff0000, 0, 0⟩,
  ⟨"PKG_IF_VERSIONS", 0x60, [], 0, 0, 0, 0, 0, 0, 0xffffffff, 0, 0x66241223⟩,
  ⟨"PKG_GATE_SUMMARY", 0x80, [], 0, 0, 0, 0, 0, 0, 0xffff, 0, 0⟩,
  ⟨"PKG_CFG_CRC_CTRL", 0x100, [], 1, 0, 0, 2, 0, 0, 0, 0, 0⟩,
  ⟨"PKG_CFG_CRC_STATUS", 0x104, [], 0, 0, 0x20, 0, 0, 0, 0xffff1f, 0, 0⟩,
  ⟨"PKG_CFG_CRC_REF_LO", 0x108, [], 0, 0, 0, 0, 0, 0, 0xffffffff, 0, 0⟩,
  ⟨"PKG_CFG_CRC_REF_HI", 0x10c, [], 0, 0, 0, 0, 0, 0, 0xffffffff, 0, 0⟩,
  ⟨"PKG_CFG_CRC_NOW_LO", 0x110, [], 0, 0, 0, 0, 0, 0, 0xffffffff, 0, 0⟩,
  ⟨"PKG_CFG_CRC_NOW_HI", 0x114, [], 0, 0, 0, 0, 0, 0, 0xffffffff, 0, 0⟩,
  ⟨"PKG_CFG_CRC_SWEEPS", 0x118, [], 0, 0, 0, 0, 0, 0, 0xffffffff, 0, 0⟩,
  ⟨"PKG_ERR_SUMMARY_w", 0x200, [(8, 4)], 0, 0, 0, 0, 0, 0, 0xffffffff, 0, 0⟩,
  ⟨"PKG_ERR_SEV", 0x220, [], 0, 0, 0, 0, 0, 0, 7, 0, 0⟩,
  ⟨"PKG_ACCESS_FAIL", 0x240, [], 0, 0, 0, 0, 0, 0xffffff, 0x7000000, 0, 0⟩]

/-- Registers of the Tether block (spec/17). -/
def regsTether : List RegDef := [
  ⟨"TET_BOOT_STATUS", 0, [], 0, 0, 0, 0, 0, 0, 0x7ffff1f, 0, 0⟩,
  ⟨"TET_IMAGE_INFO", 4, [], 0, 0, 0, 0, 0, 0, 0xffff07ff, 0, 0⟩,
  ⟨"TET_IMAGE_ID", 8, [], 0, 0, 0, 0, 0, 0, 0xffffffff, 0, 0⟩,
  ⟨"TET_BOOT_TIME", 0xc, [], 0, 0, 0, 0, 0, 0, 0xffff, 0, 0⟩,
  ⟨"TET_STRAPS", 0x10, [], 0, 0, 0, 0, 0, 0, 0x3f, 0, 0⟩,
  ⟨"TET_FUSE_CTRL", 0x20, [], 0, 0, 0, 0, 0xffffffff, 0, 0, 0, 0⟩,
  ⟨"TET_FUSE_STATUS", 0x24, [], 0, 0, 0, 0, 0, 0, 0x3fff, 0, 0⟩,
  ⟨"TET_ROOT_HASH_w", 0x40, [(8, 4)], 0, 0, 0, 0, 0, 0, 0xffffffff, 0, 0⟩,
  ⟨"TET_ID_PUBKEY_w", 0x80, [(16, 4)], 0, 0, 0, 0, 0, 0, 0xffffffff, 0, 0⟩]

/-- Registers of the PowerPkg block (spec/19). -/
def regsPowerPkg : List RegDef := [
  ⟨"PWR_STATUS", 0, [], 0, 0, 0xf08, 0, 0, 0, 0x7017, 0, 0⟩,
  ⟨"PWR_VBUS", 4, [], 0, 0, 0, 0, 0, 0, 0xffff, 0, 0⟩,
  ⟨"PWR_IBUS", 8, [], 0, 0, 0, 0, 0, 0, 0xffff, 0, 0⟩,
  ⟨"PWR_POWER", 0xc, [], 0, 0, 0, 0, 0, 0, 0xffff, 0, 0⟩,
  ⟨"PWR_RESET_CAUSE", 0x10, [], 0, 0, 0, 0, 0, 0, 0xf, 0, 1⟩]

/-- Registers of the Page block (spec/13 and 14). -/
def regsPage : List RegDef := [
  ⟨"CHN_DS_PROD", 0, [], 0xffffffff, 0, 0, 0, 0, 0, 0, 0, 0⟩,
  ⟨"CHN_DS_CONS", 4, [], 0, 0, 0, 0, 0, 0, 0xffffffff, 0, 0⟩,
  ⟨"CHN_CQ_PROD", 8, [], 0, 0, 0, 0, 0, 0, 0xffffffff, 0, 0⟩,
  ⟨"CHN_CQ_CONS", 0xc, [], 0xffffffff, 0, 0, 0, 0, 0, 0, 0, 0⟩,
  ⟨"CHN_DS_RESTART", 0x10, [], 0, 0, 0, 0, 0xffffffff, 0, 0, 0, 0⟩,
  ⟨"CHN_CQ_RESTART", 0x14, [], 0, 0, 0, 0, 0xffffffff, 0, 0, 0, 0⟩,
  ⟨"CHN_INVALIDATE", 0x18, [], 0, 0, 0, 0, 1, 0, 0, 0, 0⟩,
  ⟨"CHN_ABORT", 0x1c, [], 0, 0, 0, 0, 1, 0, 0, 0, 0⟩,
  ⟨"CHN_STATUS", 0x20, [], 0, 0, 0, 0, 0, 0, 0xffffffff, 0, 0x101⟩,
  ⟨"CHN_GEOM", 0x24, [], 0, 0, 0, 0, 0, 0, 0x1f1f, 0, 0⟩,
  ⟨"DMA_MOD_CFG", 0x40, [], 0x1fffffff, 0, 0, 0, 0, 0, 0, 0, 0x10000000⟩,
  ⟨"DMA_MOD_TIME", 0x44, [], 0xffff, 0, 0, 0, 0, 0, 0, 0, 0⟩,
  ⟨"DMA_MOD_ARM", 0x48, [], 0, 0, 0, 1, 0, 0, 2, 0, 1⟩,
  ⟨"DMA_STASH", 0x4c, [], 0, 0, 0, 0, 0, 0, 0xff, 0, 0⟩,
  ⟨"CHN_STW_DS_BASE_LO", 0x100, [], 0xffffffff, 0, 0, 0, 0, 0, 0, 0, 0⟩,
  ⟨"CHN_STW_DS_BASE_HI", 0x104, [], 0xffffffff, 0, 0, 0, 0, 0, 0, 0, 0⟩,
  ⟨"CHN_STW_CQ_BASE_LO", 0x108, [], 0xffffffff, 0, 0, 0, 0, 0, 0, 0, 0⟩,
  ⟨"CHN_STW_CQ_BASE_HI", 0x10c, [], 0xffffffff, 0, 0, 0, 0, 0, 0, 0, 0⟩,
  ⟨"CHN_STW_SHADOW_LO", 0x110, [], 0xffffffff, 0, 0, 0, 0, 0, 0, 0, 0⟩,
  ⟨"CHN_STW_SHADOW_HI", 0x114, [], 0xffffffff, 0, 0, 0, 0, 0, 0, 0, 0⟩,
  ⟨"CHN_STW_GEOM", 0x118, [], 0xff1f1f, 0, 0, 0, 0, 0, 0, 0, 0x20000⟩,
  ⟨"CHN_STW_VERSIONS", 0x11c, [], 0, 0, 0, 0, 0, 0, 0xffff, 0, 0x201⟩]

/-- Registers of the Recovery block (spec/17). -/
def regsRecovery : List RegDef := [
  ⟨"TET_RCV_ADDR", 0, [], 0xfffffff, 0, 0, 0, 0, 0, 0, 0, 0⟩,
  ⟨"TET_RCV_LEN", 4, [], 0xffff, 0, 0, 0, 0, 0, 0, 0, 0⟩,
  ⟨"TET_RCV_CMD", 8, [], 0, 0, 0, 0, 3, 0, 0, 0, 0⟩,
  ⟨"TET_RCV_STATUS", 0xc, [], 0, 0, 0, 0, 0, 0, 0xffff07, 0, 0⟩]

/-- The registers of a block by its number. Log 10 (DESIGN CHOICE). -/
def blockRegs (b : Nat) : List RegDef :=
  match b with
  | 0 => regsParser
  | 1 => regsHeadgate
  | 2 => regsClassification
  | 3 => regsEpoch
  | 4 => regsTable
  | 5 => regsBuffer
  | 6 => regsScheduling
  | 7 => regsWeir
  | 8 => regsMac
  | 9 => regsCipher
  | 10 => regsMacsec
  | 11 => regsEngine
  | 12 => regsHostEp
  | 13 => regsInstance
  | 14 => regsChannel
  | 15 => regsDma
  | 16 => regsSpan
  | 17 => regsClock
  | 18 => regsPowerDie
  | 19 => regsFault
  | 32 => regsPackage
  | 33 => regsTether
  | 34 => regsPowerPkg
  | 35 => regsPage
  | 36 => regsRecovery
  | _ => []

/-! Register addresses, by the names of the spec. -/

def R.pgrCtrl : RegAddr := ⟨0, 0⟩
def R.pgrGraphInfo : RegAddr := ⟨0, 4⟩
def R.pgrGraphId : RegAddr := ⟨0, 8⟩
def R.pgrStartNet (p : Nat) : RegAddr := ⟨0, 0x100 + 4 * p⟩
def R.pgrStartHost : RegAddr := ⟨0, 0x200⟩
def R.pgrErrCnt (c : Nat) : RegAddr := ⟨0, 0x1000 + 4 * c⟩
def R.pgrPortErr (p : Nat) : RegAddr := ⟨0, 0x1400 + 4 * p⟩
def R.pgrHostErr (h : Nat) : RegAddr := ⟨0, 0x1500 + 4 * h⟩
def R.hgtCtrl : RegAddr := ⟨1, 0⟩
def R.hgtScanCfg : RegAddr := ⟨1, 0x10⟩
def R.hgtScanPortEnLo : RegAddr := ⟨1, 0x14⟩
def R.hgtScanPortEnHi : RegAddr := ⟨1, 0x18⟩
def R.hgtAutomatonInfo : RegAddr := ⟨1, 0x20⟩
def R.hgtAutomatonId : RegAddr := ⟨1, 0x24⟩
def R.hgtScanBusyCnt : RegAddr := ⟨1, 0x30⟩
def R.hgtHashKey (w : Nat) : RegAddr := ⟨1, 0x100 + 4 * w⟩
def R.hgtIndir (w : Nat) : RegAddr := ⟨1, 0x200 + 4 * w⟩
def R.hgtHashProf (k : Nat) : RegAddr := ⟨1, 0x400 + 0x10 * k⟩
def R.hgtHashSrc (k : Nat) : RegAddr := ⟨1, 0x404 + 0x10 * k⟩
def R.clsCtrl : RegAddr := ⟨2, 0⟩
def R.clsProfileMap (n : Nat) : RegAddr := ⟨2, 0x100 + 4 * n⟩
def R.clsProfCtrl (k : Nat) : RegAddr := ⟨2, 0x1000 + 0x80 * k⟩
def R.clsProfLpm (k : Nat) : RegAddr := ⟨2, 0x1004 + 0x80 * k⟩
def R.clsProfMac (k : Nat) : RegAddr := ⟨2, 0x1008 + 0x80 * k⟩
def R.clsProfDirect (k : Nat) : RegAddr := ⟨2, 0x100c + 0x80 * k⟩
def R.clsProfTsel (k : Nat) (w : Nat) : RegAddr := ⟨2, 0x1010 + 0x80 * k + 4 * w⟩
def R.clsCntSel : RegAddr := ⟨2, 0x2000⟩
def R.clsCntSnapPktsLo : RegAddr := ⟨2, 0x2008⟩
def R.clsCntSnapPktsHi : RegAddr := ⟨2, 0x200c⟩
def R.clsCntSnapBytesLo : RegAddr := ⟨2, 0x2010⟩
def R.clsCntSnapBytesHi : RegAddr := ⟨2, 0x2014⟩
def R.clsDemoted (p : Nat) : RegAddr := ⟨2, 0x2100 + 4 * p⟩
def R.epcStatus : RegAddr := ⟨3, 0⟩
def R.epcSlot (s : Nat) : RegAddr := ⟨3, 0x10 + 4 * s⟩
def R.epcInflight (s : Nat) : RegAddr := ⟨3, 0x20 + 4 * s⟩
def R.epcPktsLo (s : Nat) : RegAddr := ⟨3, 0x40 + 8 * s⟩
def R.epcPktsHi (s : Nat) : RegAddr := ⟨3, 0x44 + 8 * s⟩
def R.epcStallLimit : RegAddr := ⟨3, 0x80⟩
def R.tblCtrl : RegAddr := ⟨4, 0⟩
def R.tblMacAge : RegAddr := ⟨4, 0x10⟩
def R.tblFlowAge : RegAddr := ⟨4, 0x14⟩
def R.tblGen : RegAddr := ⟨4, 0x20⟩
def R.tblMacUsed : RegAddr := ⟨4, 0x30⟩
def R.tblFlowUsed : RegAddr := ⟨4, 0x34⟩
def R.tblLpm4Used : RegAddr := ⟨4, 0x38⟩
def R.tblLpm6Used : RegAddr := ⟨4, 0x3c⟩
def R.tblEvtCnt (e : Nat) : RegAddr := ⟨4, 0x40 + 4 * e⟩
def R.tblLearnProf (k : Nat) : RegAddr := ⟨4, 0x100 + 4 * k⟩
def R.tblLearnPort (p : Nat) : RegAddr := ⟨4, 0x200 + 4 * p⟩
def R.tblLearnPortCnt (p : Nat) : RegAddr := ⟨4, 0x300 + 4 * p⟩
def R.tblLearnInst (i : Nat) : RegAddr := ⟨4, 0x1000 + 4 * i⟩
def R.tblLearnInstCnt (i : Nat) : RegAddr := ⟨4, 0x1800 + 4 * i⟩
def R.bufCtrl : RegAddr := ⟨5, 0⟩
def R.bufPoolThrough : RegAddr := ⟨5, 0x10⟩
def R.bufPoolEngine : RegAddr := ⟨5, 0x14⟩
def R.bufPoolCulvert : RegAddr := ⟨5, 0x18⟩
def R.bufPoolTenant : RegAddr := ⟨5, 0x1c⟩
def R.bufClassFracLo : RegAddr := ⟨5, 0x20⟩
def R.bufClassFracHi : RegAddr := ⟨5, 0x24⟩
def R.bufSpillUsed : RegAddr := ⟨5, 0x30⟩
def R.bufOccSel : RegAddr := ⟨5, 0x40⟩
def R.bufOccSnapTotal : RegAddr := ⟨5, 0x44⟩
def R.bufOccSnapOndie : RegAddr := ⟨5, 0x48⟩
def R.bufDropSel : RegAddr := ⟨5, 0x50⟩
def R.bufDropSnap : RegAddr := ⟨5, 0x54⟩
def R.bufDropTotal (r : Nat) : RegAddr := ⟨5, 0x400 + 4 * r⟩
def R.bufPortShare (n : Nat) : RegAddr := ⟨5, 0x1000 + 8 * n⟩
def R.bufPortOndie (n : Nat) : RegAddr := ⟨5, 0x1004 + 8 * n⟩
def R.schCtrl : RegAddr := ⟨6, 0⟩
def R.schRefillLate : RegAddr := ⟨6, 0x20⟩
def R.schShpSel : RegAddr := ⟨6, 0x30⟩
def R.schShpSnapRate : RegAddr := ⟨6, 0x34⟩
def R.schShpSnapBurst : RegAddr := ⟨6, 0x38⟩
def R.schShpSnapCredit : RegAddr := ⟨6, 0x3c⟩
def R.schFlumeLat (i : Nat) : RegAddr := ⟨6, 0x800 + 4 * i⟩
def R.schFlumeMaxwait (p : Nat) : RegAddr := ⟨6, 0x900 + 4 * p⟩
def R.schHostShp (h : Nat) : RegAddr := ⟨6, 0xa00 + 4 * h⟩
def R.schPortCtrl (p : Nat) : RegAddr := ⟨6, 0x1000 + 0x40 * p⟩
def R.schPortWtLo (p : Nat) : RegAddr := ⟨6, 0x1004 + 0x40 * p⟩
def R.schPortWtHi (p : Nat) : RegAddr := ⟨6, 0x1008 + 0x40 * p⟩
def R.schPortCshp (p : Nat) (c : Nat) : RegAddr := ⟨6, 0x1010 + 0x40 * p + 4 * c⟩
def R.weiCtrl : RegAddr := ⟨7, 0⟩
def R.weiCntSel : RegAddr := ⟨7, 0x10⟩
def R.weiCntGreenLo : RegAddr := ⟨7, 0x20⟩
def R.weiCntGreenHi : RegAddr := ⟨7, 0x24⟩
def R.weiCntYellowLo : RegAddr := ⟨7, 0x28⟩
def R.weiCntYellowHi : RegAddr := ⟨7, 0x2c⟩
def R.weiCntRedLo : RegAddr := ⟨7, 0x30⟩
def R.weiCntRedHi : RegAddr := ⟨7, 0x34⟩
def R.macCtrl : RegAddr := ⟨8, 0⟩
def R.macCntSel : RegAddr := ⟨8, 0x20⟩
def R.macCntSnapLo : RegAddr := ⟨8, 0x28⟩
def R.macCntSnapHi : RegAddr := ⟨8, 0x2c⟩
def R.macLaneCfg (l : Nat) : RegAddr := ⟨8, 0x100 + 4 * l⟩
def R.macPortCfg (p : Nat) : RegAddr := ⟨8, 0x1000 + 0x40 * p⟩
def R.macPortFc (p : Nat) : RegAddr := ⟨8, 0x1004 + 0x40 * p⟩
def R.macPortFcthr (p : Nat) : RegAddr := ⟨8, 0x1008 + 0x40 * p⟩
def R.macPortPmp (p : Nat) : RegAddr := ⟨8, 0x100c + 0x40 * p⟩
def R.macPortPtp (p : Nat) : RegAddr := ⟨8, 0x1010 + 0x40 * p⟩
def R.macPortStatus (p : Nat) : RegAddr := ⟨8, 0x1014 + 0x40 * p⟩
def R.cipCtrl : RegAddr := ⟨9, 0⟩
def R.cipShare : RegAddr := ⟨9, 0x10⟩
def R.cipCores : RegAddr := ⟨9, 0x14⟩
def R.cipPoolUsed : RegAddr := ⟨9, 0x18⟩
def R.cipSlotSel : RegAddr := ⟨9, 0x20⟩
def R.cipSlotAuthfail : RegAddr := ⟨9, 0x24⟩
def R.cipSlotReplay : RegAddr := ⟨9, 0x28⟩
def R.cipEvtCnt (e : Nat) : RegAddr := ⟨9, 0x30 + 4 * e⟩
def R.cipMacsecCtrl : RegAddr := ⟨10, 0⟩
def R.cipMacsecPort (p : Nat) : RegAddr := ⟨10, 0x1000 + 4 * p⟩
def R.dreCtrl : RegAddr := ⟨11, 0⟩
def R.dreStatus : RegAddr := ⟨11, 4⟩
def R.dreCsInfo : RegAddr := ⟨11, 8⟩
def R.dreCsId : RegAddr := ⟨11, 0xc⟩
def R.dreWatchdog : RegAddr := ⟨11, 0x20⟩
def R.dreCtxSel : RegAddr := ⟨11, 0x40⟩
def R.dreCtxSnapState : RegAddr := ⟨11, 0x44⟩
def R.dreCtxSnapWords : RegAddr := ⟨11, 0x48⟩
def R.dreCtxKill : RegAddr := ⟨11, 0x50⟩
def R.dreCtxUse : RegAddr := ⟨11, 0x60⟩
def R.dreFaultCnt (c : Nat) : RegAddr := ⟨11, 0x80 + 4 * c⟩
def R.dreWordsLo : RegAddr := ⟨11, 0xc0⟩
def R.dreWordsHi : RegAddr := ⟨11, 0xc4⟩
def R.dreStartsLo : RegAddr := ⟨11, 0xc8⟩
def R.dreStartsHi : RegAddr := ⟨11, 0xcc⟩
def R.dreEntry (n : Nat) : RegAddr := ⟨11, 0x400 + 4 * n⟩
def R.hepCtrl : RegAddr := ⟨12, 0⟩
def R.hepSubsys : RegAddr := ⟨12, 0x10⟩
def R.hepRomCfg : RegAddr := ⟨12, 0x14⟩
def R.hepQuarHold : RegAddr := ⟨12, 0x18⟩
def R.hepEpCfg (h : Nat) : RegAddr := ⟨12, 0x100 + 0x40 * h⟩
def R.hepEpStatus (h : Nat) : RegAddr := ⟨12, 0x104 + 0x40 * h⟩
def R.hepTags (h : Nat) : RegAddr := ⟨12, 0x108 + 0x40 * h⟩
def R.hepEvtCnt (h : Nat) (e : Nat) : RegAddr := ⟨12, 0x120 + 0x40 * h + 4 * e⟩
def R.insCtrl : RegAddr := ⟨13, 0⟩
def R.insXltFree : RegAddr := ⟨13, 0x10⟩
def R.insXltHits : RegAddr := ⟨13, 0x14⟩
def R.insXltMisses : RegAddr := ⟨13, 0x18⟩
def R.insEvtCnt (e : Nat) : RegAddr := ⟨13, 0x20 + 4 * e⟩
def R.insState (i : Nat) : RegAddr := ⟨13, 0x1000 + 0x20 * i⟩
def R.insVf (i : Nat) : RegAddr := ⟨13, 0x1004 + 0x20 * i⟩
def R.insKeygen (i : Nat) : RegAddr := ⟨13, 0x1008 + 0x20 * i⟩
def R.insKeys (i : Nat) : RegAddr := ⟨13, 0x100c + 0x20 * i⟩
def R.insXltUsed (i : Nat) : RegAddr := ⟨13, 0x1010 + 0x20 * i⟩
def R.insXltQuota (i : Nat) : RegAddr := ⟨13, 0x1014 + 0x20 * i⟩
def R.insXltFault (i : Nat) : RegAddr := ⟨13, 0x1018 + 0x20 * i⟩
def R.chnCtrl : RegAddr := ⟨14, 0⟩
def R.chnHaltCnt (c : Nat) : RegAddr := ⟨14, 0x100 + 4 * c⟩
def R.chnEvtCnt (e : Nat) : RegAddr := ⟨14, 0x200 + 4 * e⟩
def R.dmaCtrl : RegAddr := ⟨15, 0⟩
def R.dmaStageCap : RegAddr := ⟨15, 0x10⟩
def R.dmaStageUsed : RegAddr := ⟨15, 0x14⟩
def R.dmaEvtCnt (e : Nat) : RegAddr := ⟨15, 0x20 + 4 * e⟩
def R.dmaFullCnt (i : Nat) : RegAddr := ⟨15, 0x1000 + 4 * i⟩
def R.spnCtrl : RegAddr := ⟨16, 0⟩
def R.spnDevice : RegAddr := ⟨16, 0x10⟩
def R.spnDomain : RegAddr := ⟨16, 0x14⟩
def R.spnBaseMacLo : RegAddr := ⟨16, 0x18⟩
def R.spnBaseMacHi : RegAddr := ⟨16, 0x1c⟩
def R.spnHello : RegAddr := ⟨16, 0x20⟩
def R.spnPortEnLo : RegAddr := ⟨16, 0x30⟩
def R.spnPortEnHi : RegAddr := ⟨16, 0x34⟩
def R.spnPortInstallLo : RegAddr := ⟨16, 0x38⟩
def R.spnPortInstallHi : RegAddr := ⟨16, 0x3c⟩
def R.spnTime : RegAddr := ⟨16, 0x40⟩
def R.spnGmIdLo : RegAddr := ⟨16, 0x44⟩
def R.spnGmIdHi : RegAddr := ⟨16, 0x48⟩
def R.spnBarrierCtrl : RegAddr := ⟨16, 0x50⟩
def R.spnNeigh (p : Nat) : RegAddr := ⟨16, 0x100 + 4 * p⟩
def R.spnEvtCnt (e : Nat) : RegAddr := ⟨16, 0x200 + 4 * e⟩
def R.clkStatus : RegAddr := ⟨17, 0⟩
def R.clkDiv (k : Nat) : RegAddr := ⟨17, 0x10 + 4 * k⟩
def R.clkGate : RegAddr := ⟨17, 0x40⟩
def R.clkGateFlags : RegAddr := ⟨17, 0x44⟩
def R.clkTripCnt : RegAddr := ⟨17, 0x48⟩
def R.clkTbNsLo : RegAddr := ⟨17, 0x100⟩
def R.clkTbNsHi : RegAddr := ⟨17, 0x104⟩
def R.clkTbFrac : RegAddr := ⟨17, 0x108⟩
def R.clkTbRate : RegAddr := ⟨17, 0x10c⟩
def R.clkTbStepLo : RegAddr := ⟨17, 0x110⟩
def R.clkTbStepHi : RegAddr := ⟨17, 0x114⟩
def R.pwrSoftRst : RegAddr := ⟨18, 0⟩
def R.pwrSoftFlags : RegAddr := ⟨18, 4⟩
def R.fltGuarantee : RegAddr := ⟨19, 0⟩
def R.fltScrubCtrl : RegAddr := ⟨19, 4⟩
def R.fltMask (w : Nat) : RegAddr := ⟨19, 0x10 + 4 * w⟩
def R.fltClassSel : RegAddr := ⟨19, 0x40⟩
def R.fltSnapCount : RegAddr := ⟨19, 0x44⟩
def R.fltSnapFirst (w : Nat) : RegAddr := ⟨19, 0x60 + 4 * w⟩
def R.fltSnapLast (w : Nat) : RegAddr := ⟨19, 0x80 + 4 * w⟩
def R.fltPin : RegAddr := ⟨19, 0xa0⟩
def R.fltCulRetrain : RegAddr := ⟨19, 0xa4⟩
def R.fltLogProd : RegAddr := ⟨19, 0x100⟩
def R.fltLogCons : RegAddr := ⟨19, 0x104⟩
def R.fltLogStatus : RegAddr := ⟨19, 0x108⟩
def R.fltLogOvf : RegAddr := ⟨19, 0x10c⟩
def R.fltLogSeq : RegAddr := ⟨19, 0x110⟩
def R.fltVringProd : RegAddr := ⟨19, 0x120⟩
def R.fltVringCons : RegAddr := ⟨19, 0x124⟩
def R.fltVerdictOvf : RegAddr := ⟨19, 0x128⟩
def R.pkgId : RegAddr := ⟨32, 0⟩
def R.pkgDieMap : RegAddr := ⟨32, 4⟩
def R.pkgSteward : RegAddr := ⟨32, 8⟩
def R.pkgTenantMode : RegAddr := ⟨32, 0x40⟩
def R.pkgIfVersions : RegAddr := ⟨32, 0x60⟩
def R.pkgGateSummary : RegAddr := ⟨32, 0x80⟩
def R.pkgCfgCrcCtrl : RegAddr := ⟨32, 0x100⟩
def R.pkgCfgCrcStatus : RegAddr := ⟨32, 0x104⟩
def R.pkgCfgCrcRefLo : RegAddr := ⟨32, 0x108⟩
def R.pkgCfgCrcRefHi : RegAddr := ⟨32, 0x10c⟩
def R.pkgCfgCrcNowLo : RegAddr := ⟨32, 0x110⟩
def R.pkgCfgCrcNowHi : RegAddr := ⟨32, 0x114⟩
def R.pkgCfgCrcSweeps : RegAddr := ⟨32, 0x118⟩
def R.pkgErrSummary (w : Nat) : RegAddr := ⟨32, 0x200 + 4 * w⟩
def R.pkgErrSev : RegAddr := ⟨32, 0x220⟩
def R.pkgAccessFail : RegAddr := ⟨32, 0x240⟩
def R.tetBootStatus : RegAddr := ⟨33, 0⟩
def R.tetImageInfo : RegAddr := ⟨33, 4⟩
def R.tetImageId : RegAddr := ⟨33, 8⟩
def R.tetBootTime : RegAddr := ⟨33, 0xc⟩
def R.tetStraps : RegAddr := ⟨33, 0x10⟩
def R.tetFuseCtrl : RegAddr := ⟨33, 0x20⟩
def R.tetFuseStatus : RegAddr := ⟨33, 0x24⟩
def R.tetRootHash (w : Nat) : RegAddr := ⟨33, 0x40 + 4 * w⟩
def R.tetIdPubkey (w : Nat) : RegAddr := ⟨33, 0x80 + 4 * w⟩
def R.pwrStatus : RegAddr := ⟨34, 0⟩
def R.pwrVbus : RegAddr := ⟨34, 4⟩
def R.pwrIbus : RegAddr := ⟨34, 8⟩
def R.pwrPower : RegAddr := ⟨34, 0xc⟩
def R.pwrResetCause : RegAddr := ⟨34, 0x10⟩
def R.chnDsProd : RegAddr := ⟨35, 0⟩
def R.chnDsCons : RegAddr := ⟨35, 4⟩
def R.chnCqProd : RegAddr := ⟨35, 8⟩
def R.chnCqCons : RegAddr := ⟨35, 0xc⟩
def R.chnDsRestart : RegAddr := ⟨35, 0x10⟩
def R.chnCqRestart : RegAddr := ⟨35, 0x14⟩
def R.chnInvalidate : RegAddr := ⟨35, 0x18⟩
def R.chnAbort : RegAddr := ⟨35, 0x1c⟩
def R.chnStatus : RegAddr := ⟨35, 0x20⟩
def R.chnGeom : RegAddr := ⟨35, 0x24⟩
def R.dmaModCfg : RegAddr := ⟨35, 0x40⟩
def R.dmaModTime : RegAddr := ⟨35, 0x44⟩
def R.dmaModArm : RegAddr := ⟨35, 0x48⟩
def R.dmaStash : RegAddr := ⟨35, 0x4c⟩
def R.chnStwDsBaseLo : RegAddr := ⟨35, 0x100⟩
def R.chnStwDsBaseHi : RegAddr := ⟨35, 0x104⟩
def R.chnStwCqBaseLo : RegAddr := ⟨35, 0x108⟩
def R.chnStwCqBaseHi : RegAddr := ⟨35, 0x10c⟩
def R.chnStwShadowLo : RegAddr := ⟨35, 0x110⟩
def R.chnStwShadowHi : RegAddr := ⟨35, 0x114⟩
def R.chnStwGeom : RegAddr := ⟨35, 0x118⟩
def R.chnStwVersions : RegAddr := ⟨35, 0x11c⟩
def R.tetRcvAddr : RegAddr := ⟨36, 0⟩
def R.tetRcvLen : RegAddr := ⟨36, 4⟩
def R.tetRcvCmd : RegAddr := ⟨36, 8⟩
def R.tetRcvStatus : RegAddr := ⟨36, 0xc⟩

/-- Whether the remaining offset falls on an index of the dimensions (outermost first). -/
def dimsHit : List (Nat × Nat) → Nat → Bool
  | [], r => r == 0
  | [(n, st)], r => decide (r % st = 0) && decide (r / st < n)
  | (n, st) :: ds, r => (List.range n).any fun i => decide (i * st ≤ r) && dimsHit ds (r - i * st)

/-- The register of block `b` at offset `off`, if the spec names one there. -/
def findReg (b off : Nat) : Option RegDef :=
  (blockRegs b).find? fun r => decide (r.off ≤ off) && dimsHit r.dims (off - r.off)

end Sys2Proof.Machine
end

