-- ==== Sys2Proof/Machine/State.lean ====
section
/-! DEFINITION. The state of the block: every register, memory, queue, counter, mode and pin the spec gives the
part, as plain data. Arrays are sparse tables (Machine/Map.lean) whose default is named beside the field. Absolute
times of schedule state are in 2⁻¹⁶ ns of package time; timestamps are in ns. -/

namespace Sys2Proof.Machine

/-! ### Faults and reports (chapter 20) -/

/-- An error record (R516). -/
structure ErrRec where
  cls : Nat
  sev : Nat
  die : Nat
  lost : Bool
  masked : Bool
  seq : Nat
  time : Nat
  addr : Nat
  unit : Nat
  block : Nat
  cause : Nat
  value : Nat
deriving DecidableEq, Repr

/-- What a die keeps for one error class (R513), and whether a record awaits sideband reading (R515). -/
structure ClassRec where
  count : Nat
  first : Option ErrRec
  last : Option ErrRec
  sbPending : Bool
deriving DecidableEq, Repr

/-- A class with no event. -/
def ClassRec.none : ClassRec := ⟨0, .none, .none, false⟩

/-- The conditions that hold FAULT_N until PKG_RST_N (R515). -/
inductive Held where
  | bootFailure | trip | pilotFail | mainLost | tetWatchdog
deriving DecidableEq, Repr

/-- The error log ring as LOG_SETUP gave it (R517). -/
structure LogRing where
  base : Nat
  k : Nat
  vector : Nat
deriving DecidableEq, Repr

/-- Faults and reports. Class table key: die × 256 + class; default `ClassRec.none`. -/
structure Faults where
  classes : Tab ClassRec
  /-- Last sequence number generated (FLT_LOG_SEQ). -/
  seq : Nat
  held : List Held
  /-- An unmasked uncorrectable-global class was raised since FLT_PIN.release was written. -/
  ugRaised : Bool
  ring : Option LogRing
  prod : Nat
  cons : Nat
  /-- Records that wait for the write engine of the steward's die (R518, R519), oldest first. -/
  waiting : List ErrRec
  /-- A record was not written since the last one written (`lost` of the next record). -/
  lossPending : Bool
  /-- A record has been written since the last loss (R519: LOG_OVERFLOW at the first loss after it). -/
  ovfArmed : Bool
  /-- Records written since the last MSI-X message of the ring, and when that message went (ns). -/
  unsignalled : Bool
  lastMsg : Option Nat
  /-- Dies whose GUARANTEE_LAPSED has been raised since all conditions last held (R501). -/
  lapsed : Nat
  /-- Dies whose HBM, SRAM scrub pass has overrun its interval; raised in this pass. -/
  hbmLate : Nat
  sramLate : Nat
  /-- Scrub positions: codeword index per die (default 0). -/
  hbmPos : Tab Nat
  sramPos : Tab Nat
deriving DecidableEq, Repr

/-! ### Outputs at the part's boundary -/

/-- What the part sends out. `State.out` accumulates these, newest last; it is the MODEL's own field (the spec
gives the part no such queue) and no meaning reads it. Log 8 (DESIGN CHOICE). -/
inductive Out where
  /-- A frame's last byte has left lane `lane`; `stomped` under R229. Bytes without FCS. -/
  | frame (lane : Nat) (bytes : Bytes) (stomped : Bool)
  /-- A frame starts on a lane at the given time (2⁻¹⁶ ns). -/
  | frameStart (lane : Nat) (time : Nat)
  /-- A PAUSE or PFC frame of pause time `quanta` for the classes of `mask` (R236). -/
  | pause (lane : Nat) (pfc : Bool) (mask quanta : Nat)
  /-- An mPacket of preemption verification (R237): verify, or response. -/
  | verify (lane : Nat) (response : Bool)
  /-- A memory write of function `fn` (0–4095 instance, 4096 steward); `relaxed` and `poisoned` attributes. -/
  | hostWrite (fn addr : Nat) (data : Bytes) (relaxed poisoned : Bool)
  /-- A memory read request of function `fn` with its tag. -/
  | hostRead (fn tag addr len : Nat) (relaxed : Bool)
  /-- An MSI-X message of the function with key `fn` (`FnId` numbering of `fnKey`): the write of a vector's data to its
  address, with its Relaxed Ordering attribute (R326). -/
  | msix (fn vector addr data : Nat) (relaxed : Bool)
  /-- An AER log entry of a PF (link key port × 2 + link) by its PCI Express error name. -/
  | aer (pf : Nat) (error : String)
  /-- The copy that mirror session `session` takes of a packet (R51, R96); the spec names no destination for it. -/
  | mirror (session : Nat) (bytes : Bytes)
  /-- A host read completed with this value and the attributes `attr` of its request (R328). -/
  | regRead (offset value attr : Nat)
  /-- A request was answered as an Unsupported Request (R334). -/
  | unsupported (offset : Nat)
  /-- A configuration request was answered with Request Retry Status (R338). -/
  | retry (offset : Nat)
  /-- A message on the sideband or the DOE mailbox. -/
  | response (what : String) (data : Bytes)
  /-- The value shifted out of the test port. -/
  | tdo (what : String) (value : Nat)
deriving DecidableEq, Repr

/-! ### Clocks and supplies (chapters 18, 19, 22) -/

/-- Windsock stages (R472). -/
inductive Stage where
  | starting | armed | locked | tripped
deriving DecidableEq, Repr

/-- Clock state. Log 11 (DESIGN CHOICE). -/
structure Clk where
  /-- Package time base in units of 1/(5·2²⁷) ns: one REFCLK edge adds 2³² + rate (R469, R470). -/
  tb : Nat
  tbRun : Bool
  stage : Stage
  refclkOk : Bool
  pllLocked : Bool
  mgmtOnPilot : Bool
  settled : Bool
  pilotFailed : Bool
  trim : Nat
  tripCause : Nat
  tripDie : Nat
  tripDomain : Nat
  /-- REFCLK reference count of the frequency window, in units of 10⁻⁷ edge; none before the first window. -/
  refCount : Option Nat
  /-- The running window is not compared (a trim step falls in it, R474). -/
  skipWindow : Bool
  /-- Learn events are not originated before this instant, in ns by REFCLK edges (R470). -/
  learnHold : Nat
  stepLo : Nat
  /-- Latched halves of a LO read of the time base. -/
  tbLatchHi : Nat
  tbLatchFrac : Nat
  /-- REFCLK edges that the time base has counted: they pace sweeps, link timers and limits, whatever its rate and steps (R470). -/
  edges : Nat
deriving DecidableEq, Repr

/-- Supply state. Levels of the pins PS_EN, PS_PG, PS_FLT; telemetry; causes of the last start. -/
structure Power where
  aux : Bool
  inReset : Bool
  standby : Bool
  psEn : Bool
  psPg : Bool
  /-- When PS_PG rose, in ns counted by REFCLK edges (R474). -/
  pgAt : Nat
  psFlt : Bool
  /-- Main rails lost under R489; holds until PKG_RST_N. -/
  mainDown : Bool
  /-- Sticky PWR_STATUS.main_lost. -/
  mainLost : Bool
  stale : Bool
  fltCause : Nat
  fltDie : Nat
  vbus : Nat
  ibus : Nat
  power : Nat
  /-- Status of each rail, in the order of the telemetry link (R485). -/
  rails : List (BitVec 8)
  auxPor : Bool
  pkgRst : Bool
  mainLostBefore : Bool
  tripBefore : Bool
  /-- THERM_N asserted (R561); last sensor readings by die × 16 + sensor, °C (default 0). -/
  therm : Bool
  sensors : Tab Int
  /-- Host ports whose PERST_N is asserted (R493). -/
  perst : List Nat
deriving DecidableEq, Repr

/-! ### Boot, fuses, NVM and trust (chapter 17) -/

/-- The fuse fields (R458), the fuse state machine (R460). -/
structure Fuses where
  rootKeyHash : Nat
  rootKeyCrc : Nat
  arb : BitVec 64
  debugLock : BitVec 4
  dieCount : BitVec 2
  dieCountDup : BitVec 2
  identitySeed : Nat
  identityCrc : Nat
  kekSeed : Nat
  kekCrc : Nat
  patchSeed : Nat
  patchCrc : Nat
deriving DecidableEq, Repr

/-- A fuse blow in progress (R460): raise the counter to a value, or DEBUG_LOCK. -/
inductive Blow where
  | counter (target : Nat) | lock
deriving DecidableEq, Repr

/-- Results of TET_FUSE_STATUS. -/
inductive FuseResult where
  | ok | busy | notArmed | verifyFailed
deriving DecidableEq, Repr

/-- What survives every reset: fuses and NVM (R491). NVM bytes not listed are erased (0xFF). -/
structure Root where
  fuses : Fuses
  nvm : List Host.Cell
  /-- The NVM device: whether it answers SFDP; log2 of its size in MiB; log2 of its erase sector in KiB. -/
  nvmPresent : Bool
  nvmLog2 : Nat
  eraseLog2 : Nat
  armed : Bool
  blow : Option Blow
  result : FuseResult
  /-- Recovery registers and the 32 KiB buffer (R457); default byte 0. -/
  rcvAddr : Nat
  rcvLen : Nat
  rcvOp : Option Nat
  rcvResult : Nat
  rcvBuf : List Host.Cell
  /-- PERST_N of the recovery port came during the operation: the registers return to reset when it ends (R495). -/
  rcvReset : Bool
deriving DecidableEq, Repr

/-- TET_BOOT_STATUS states. -/
inductive BootState where
  | start | waitRefclk | waitPower | reading | verified | loading | enabling | done | failed | recovery
deriving DecidableEq, Repr

/-- A section of the image, as its table entry gives it (R449). -/
structure Section where
  typ : Nat
  flags : Nat
  offset : Nat
  length : Nat
  digest : Nat
deriving DecidableEq, Repr

/-- Boot state (R455). -/
structure Boot where
  state : BootState
  /-- The boot step under way (1–9); 0 before PKG_RST_N is released, 10 after step 9. -/
  step : Nat
  slotB : Bool
  failCode : Nat
  failClass : Nat
  failDie : Nat
  bootSel : BitVec 2
  rcvPort : BitVec 2
  smbAddr : BitVec 2
  format : Nat
  secVersion : Nat
  buildId : Nat
  digest : Nat
  bootMs : Nat
  bifurcation : Nat
  sections : List Section
  /-- SPDM slot 0 holds a chain (R463); the chain's certificates. -/
  certPresent : Bool
  chain : List Bytes
  option : Bytes
deriving DecidableEq, Repr

/-- An SPDM session on a transport: requests made (bit 0 version, 1 capabilities, 2 algorithms), and the transcripts that signatures
cover (R464): versions to algorithms, digests and certificates, measurements. -/
structure Spdm where
  phase : Nat
  vca : Bytes
  certs : Bytes
  meas : Bytes
deriving DecidableEq, Repr

/-- No request made. -/
def Spdm.none : Spdm := ⟨0, [], [], []⟩

/-- Management transports: the MCTP endpoint ID, the DOE mailbox, and the SPDM sessions over DOE and over the sideband. -/
structure Trust where
  eid : Byte
  doeError : Bool
  doe : Spdm
  sb : Spdm
  /-- A debug instruction has halted the Tether (R461). -/
  halted : Bool
deriving DecidableEq, Repr

/-! ### The configuration check (chapter 21) -/

/-- Results held by the configuration check (R543–R548). -/
structure CfgCheck where
  hold : Bool
  busy : Bool
  /-- The commit was written after the running sweep started; the sweep that ends next is not taken (R546). -/
  waitNext : Bool
  valid : Bool
  mismatch : Bool
  raised : Bool
  holdLong : Bool
  pkgMismatch : Bool
  mismatchDies : Nat
  incompleteDies : Nat
  ref : Nat
  now : Nat
  /-- Partials of the dies (0–7) and the package block (8) held at the last commit. -/
  refParts : List Nat
  sweeps : Nat
  refLatch : Nat
  nowLatch : Nat
  /-- The 2 ms, by REFCLK edges, in which the last sweep ended (R544); when hold was set, in ns (R548). -/
  slot : Nat
  holdAt : Nat
  /-- The stored words as the last sweep found them, kept for blocks whose gate has closed since (R480). -/
  swept : Tab Reg32
deriving DecidableEq, Repr

/-! ### Host endpoints (chapter 11) -/

/-- The AER registers of a PF (R340): uncorrectable status, mask, severity, correctable status, mask, first error pointer,
header log of four doublewords. -/
structure Aer where
  uncStatus : Nat
  uncMask : Nat
  uncSev : Nat
  corStatus : Nat
  corMask : Nat
  first : Nat
  header : List Nat
deriving DecidableEq, Repr

/-- The configuration registers of a PCI Express function (R319–R325, R340). Fields that a rule reads stand under their names:
Bus Master Enable, D3hot, Memory Space Enable (of the VFs of a PF: `vfMse`), relaxed ordering, tag enables,
Max_Payload_Size, Max_Read_Request_Size, completion timeout value, MSI-X (enable, function mask, unmasked vectors,
pending vectors, address and data of each vector), SR-IOV of a PF, AER of a PF. `cfg` holds the other writable bits, by
doubleword. -/
structure PciFn where
  bme : Bool
  d3 : Bool
  mse : Bool
  relaxed : Bool
  tag10 : Bool
  tag14 : Bool
  mps : Nat
  mrrs : Nat
  ctv : Nat
  msixEn : Bool
  fnMask : Bool
  unmasked : List Nat
  pendVec : List Nat
  vfEnable : Bool
  numVfs : Nat
  sysPage : Nat
  vfMse : Bool
  vectors : Tab (Nat × Nat)
  aer : Aer
  cfg : Tab Nat
deriving DecidableEq, Repr

/-- States of a read tag (R331). -/
inductive TagSt where
  | free | outstanding | quarantined | held
deriving DecidableEq, Repr

/-- What a read is for: a request of a transfer's burst, or slots of a channel entry (R375) of this fetch. -/
inductive TagUse where
  | xfer (die n burst : Nat)
  | fetch (gen : Nat)
deriving DecidableEq, Repr

/-- A read tag: its state, the function of its request and what it is for, the request's place and length, bytes received,
the time of issue (of the timeout, once held) in ns, the timeout then in force (R330). -/
structure Tag where
  st : TagSt
  fn : Nat
  use : TagUse
  off : Nat
  len : Nat
  got : Nat
  poisoned : Bool
  since : Nat
  limit : Nat
deriving DecidableEq, Repr

/-- A free tag. -/
def Tag.none : Tag := ⟨.free, 0, .fetch 0, 0, 0, 0, false, 0, 0⟩

/-! ### Instances (chapter 12) -/

inductive InstState where
  | free | active | frozen | resetting
deriving DecidableEq, Repr

/-- Why an instance is being reset (R405). -/
inductive ResetCause where
  | flr | vfGone | linkReset | entry | destroy
deriving DecidableEq, Repr

/-- A translation leaf (R353), keyed by its first I/O virtual address: page size code, bus address, rights. -/
structure Leaf where
  size : Nat
  bus : Nat
  read : Bool
  write : Bool
deriving DecidableEq, Repr

/-- Dirty tracking of an instance (R361): first address, length in GiB, marked page numbers, writes outside. -/
structure Tracking where
  first : Nat
  gib : Nat
  marks : List Nat
  outOfRange : Bool
deriving DecidableEq, Repr

/-- QoS settings of an instance (R215): share, on-die cap, instance weight, strict mask, class weights, shapers. -/
structure Qos where
  share : Nat
  onDie : Nat
  weight : Nat
  strict : Nat
  weights : List Nat
  shaper : Nat
  classShapers : List Nat
deriving DecidableEq, Repr

/-- An instance (R342, R343). -/
structure Inst where
  st : InstState
  orphaned : Bool
  port : Nat
  pf : Nat
  vf : Nat
  vectors : Nat
  entryVer : Nat
  keyBase : Nat
  keyCount : Nat
  quota : Nat
  leaves : Tab Leaf
  tracking : Option Tracking
  cause : ResetCause
  /-- Records counted and not written in the reset under way. -/
  unwritten : Nat
  /-- Started entry of the steward's ring that waits: a FREEZE in progress, an INSTANCE_DESTROY. -/
  freezing : Bool
  destroying : Bool
  /-- Neither channel has been started since creation or the last reset (R366). -/
  fresh : Bool
deriving DecidableEq, Repr

/-! ### Channels and DMA (chapters 13, 14) -/

/-- A receive buffer on an instance's list (R381); `index`: the serial number of its entry, the order of the list. -/
structure RxBuf where
  addr : Nat
  len : Nat
  cookie : Nat
  index : Nat
deriving DecidableEq, Repr

/-- An entry started on a ring and not completed. `run`: its own row has been performed; `recs`: its records once it
has ended, in order (empty for types that give none); `stamps`: the TX_TIMESTAMP records of its frames (R401), none
while a frame's outcome is open. -/
structure Started where
  index : Nat
  /-- Its serial number on the channel, which transfers, jobs, contexts and frames name it by: an index may come twice (R385). -/
  seq : Nat
  bytes : Bytes
  run : Bool
  recs : Option (List Bytes)
  stamps : List (Option Bytes)
  /-- The die and the engine of a storage command (R281). -/
  engine : Option (Nat × Nat)
deriving DecidableEq, Repr

/-- The read of a channel entry (R375): a number that sets its requests apart from those of earlier fetches, its bytes from the
first slot on, the slots held so far, requests outstanding. -/
structure Fetch where
  gen : Nat
  bytes : Bytes
  held : Nat
  open_ : Nat
deriving DecidableEq, Repr

/-- A channel: both rings of a function (R367, R368), entry cache, entries in progress, stash, moderation. -/
structure Chan where
  dsP : Nat
  dsC : Nat
  cqP : Nat
  cqC : Nat
  dsHalt : Nat
  cqHalt : Nat
  dsBase : Nat
  cqBase : Nat
  shadow : Nat
  dsK : Nat
  cqK : Nat
  /-- The version in use, which the last restart chose; the setup's, which the steward's next restart takes (R435, R438). -/
  ver : Nat
  verNew : Nat
  /-- Entries started so far. -/
  serial : Nat
  /-- Whole entries fetched and not started, in ring order. -/
  cache : List Bytes
  /-- The entry being read, behind the cached ones (R375). -/
  fetch : Fetch
  /-- The die and the engine whose job context the storage command at the head waits for (R281). -/
  waits : Option (Nat × Nat)
  started : List Started
  rx : List RxBuf
  /-- The stash: records that wait for the queue, at most 64 (R409). -/
  stash : List Bytes
  /-- The full state, and the records that wait with their units in it (R410). -/
  full : Bool
  waiting : List Bytes
  /-- The shadow no longer shows the registers (R389). -/
  shadowDirty : Bool
  modCfg : Nat
  modTime : Nat
  armed : Bool
  pending : Bool
  /-- When pending was set, in ns by REFCLK edges (R413). -/
  pendSince : Nat
  sigCount : Nat
deriving DecidableEq, Repr

/-- What a transfer is for. -/
inductive XferKind where
  /-- TX_SEND: read the segments; frames enter Headgates as their data is whole. -/
  | send
  /-- DMA_COPY. -/
  | copy
  /-- CIPHER_JOB input. -/
  | job
  /-- Engine DMA post of a context (die, engine, context); `write` to host, else from host. -/
  | post (die engine ctx : Nat) (write : Bool)
  /-- A SAVE blob or a dirty bitmap of an instance; the detail of its record. -/
  | output (inst : Nat) (detail : Bytes)
  /-- A RESTORE blob. -/
  | restore
  /-- Delivery of a received packet, by its number (R399, R400). -/
  | rx (pkt : Nat)
deriving DecidableEq, Repr

/-- A read burst of a transfer: offset in the transfer, length, bytes received in place, requests outstanding, a request
of it has failed, its staging space is released (R393). -/
structure Burst where
  off : Nat
  len : Nat
  data : Bytes
  open_ : Nat
  bad : Bool
  freed : Bool
deriving DecidableEq, Repr

/-- A transfer of a die's shared engines (R391). -/
structure Xfer where
  fn : Nat
  index : Nat
  /-- The entry's copy (R376); empty for a post. -/
  ent : Bytes
  kind : XferKind
  /-- Source segments (address, length), their total length, bytes whose read bursts have issued, the bursts. -/
  segs : List (Nat × Nat)
  total : Nat
  issued : Nat
  bursts : List Burst
  /-- Writes that are ready (address, bytes); bytes written. -/
  outs : List (Nat × Bytes)
  written : Nat
  /-- Frames sent (R401); whole bursts handed on (DMA copies). -/
  frames : Nat
  /-- No more writes will be made ready (a cipher job's units have ended). -/
  closed : Bool
  /-- Status once the transfer is ending; none while it runs. -/
  status : Option Nat
  /-- The transfer was ended by CHN_ABORT (its record carries signal). -/
  aborted : Bool
  /-- First byte of the output that lies in a bad cell (R504). -/
  bad : Option Nat
  /-- Frames of a send that have entered a Headgate, and their bytes (R398). -/
  entered : Nat
  enteredBytes : Nat
deriving DecidableEq, Repr

/-- A cached translation (R356): instance, first I/O virtual address of the page, page size code. -/
structure XlEntry where
  inst : Nat
  iova : Nat
  size : Nat
deriving DecidableEq, Repr

/-- A die's shared DMA engines: transfers in start order under their numbers, the functions served last (R394), the
translation cache. -/
structure DieDma where
  xfers : List (Nat × Xfer)
  nextId : Nat
  lastRead : Nat
  lastWrite : Nat
  xlate : List XlEntry
deriving DecidableEq, Repr

/-! ### Defaults of the per-object tables -/

/-- A PCI Express function's configuration registers at reset. Log 22 (PRESUMED). -/
def PciFn.reset : PciFn :=
  ⟨false, false, false, true, false, false, 128, 512, 0, false, false, [], [], false, 0, 1, false, [],
   ⟨0, 0x400000, 0x462030, 0, 0x6000, 0, []⟩, []⟩

/-- QoS settings of no instance. -/
def Qos.none : Qos := ⟨0, 0, 0, 0, [], 0, []⟩

/-- An instance number with no instance. -/
def Inst.none : Inst :=
  ⟨.free, false, 0, 0, 0, 0, 0, 0, 0, 0, [], .none, .flr, 0, false, false, true⟩

/-- A channel before its creation (R385): halted NOT_STARTED, indices zero, DMA_MOD_CFG 0x1000_0000, armed. -/
def Chan.none : Chan :=
  ⟨0, 0, 0, 0, 1, 1, 0, 0, 0, 0, 0, 0, 0, 0, [], ⟨0, [], 0, 0⟩, .none, [], [], [], false, [], false, 0x10000000, 0, true, false, 0, 0⟩

/-- DMA engines with nothing in progress. -/
def DieDma.none : DieDma := ⟨[], 0, 0, 0, []⟩

/-! ### The commit (chapter 4) -/

/-- Where the steward's commit stands (R107–R113, R428). -/
inductive CommitPhase where
  /-- No commit is open. -/
  | closed
  /-- COMMIT_OPEN has been taken; changes are accepted. -/
  | opened
  /-- COMMIT_CLOSE has been taken; waiting for every die's confirmation. -/
  | closing
  /-- A barrier commit is prepared; waiting for its wave. -/
  | barrier
  /-- T_sw is set. -/
  | switching
  /-- Staged changes are being undone (R111). -/
  | undoing
deriving DecidableEq, Repr

/-- The open commit: slot, tag, barrier bit, RULE_CHANGEs posted, code and ordinal of the first failure, T_sw, and what
the waiting entry completes with once the undo ends (none: R121, silent). -/
structure Commit where
  phase : CommitPhase
  slot : Nat
  tag : Nat
  barrier : Bool
  count : Nat
  fail : Option (Nat × Nat)
  tsw : Nat
  ends : Option Nat
deriving DecidableEq, Repr

/-- No commit. -/
def Commit.none : Commit := ⟨.closed, 0, 0, false, 0, .none, 0, .none⟩

/-! ### Packets (chapters 1 to 8) -/

/-- What a group of cells of a die's buffer is held for (R187, R194). -/
inductive Pool where
  | ingress | through | engine | culvert
  /-- Egress window of a destination. -/
  | window (inst : Bool) (dest : Nat)
  /-- A tenant queue, on-die. -/
  | tenant (inst : Bool) (dest tc : Nat)
  /-- A tenant queue, in the Spillway. -/
  | spill (inst : Bool) (dest tc : Nat)
deriving DecidableEq, Repr

/-- Cells of a pool of a die that a packet holds. -/
structure Hold where
  die : Nat
  pool : Pool
  cells : Nat
deriving DecidableEq, Repr

/-- Where a packet stands. Each stage names the command that moves it on. -/
inductive PStage where
  /-- Held at its port or host endpoint; WALK_BEGIN. -/
  | arrived
  /-- In the die's scan queue; SCAN_RESULT_READY. -/
  | scan
  /-- The walk has ended; INGRESS_STAGE. -/
  | walked
  /-- Tenant class, classified, its last byte not yet checked (R229); FRAME_END. -/
  | waitFcs
  /-- Crosses the Culvert at through priority to the egress die; CULVERT_ARRIVAL. -/
  | crossThrough (e : Nat)
  /-- Crosses to its owner die; CULVERT_ARRIVAL. -/
  | crossOwner (e : Nat)
  /-- Flow lookup; FLOW_LOOKUP_RESULT. `gen`: the relocation generation captured before the first read. -/
  | lookup (gen : Nat)
  /-- Flow re-read; FLOW_REREAD_RESULT. -/
  | reread
  /-- Waits for a cipher core or runs on one; CIPHER_UNIT_DISPATCH and CIPHER_UNIT_COMPLETE. -/
  | cipher
  /-- In an engine's queue; ENGINE_CONTEXT_START. -/
  | engineQ (engine : Nat)
  /-- Held by an engine context. -/
  | context
  /-- Waits for a re-injection slot; REINJECT_SLOT. -/
  | reinject
  /-- In its virtual output queue; SPILLWAY_READBACK where spilled, then GRANT. -/
  | queued
  /-- Crosses to its destination die; CULVERT_ARRIVAL. -/
  | crossDest (e : Nat)
  /-- In its egress window; TENANT_FRAME_START or RX_DELIVERY. -/
  | window
  /-- Being written to host memory by the write engine (R400); DMA_BURST_ISSUE. -/
  | writing
  /-- In the delay line until `d` (2⁻¹⁶ ns); THROUGH_DEPARTURE. -/
  | held (d : Nat)
  /-- Being sent; TRANSMIT_COMPLETE. -/
  | sending
deriving DecidableEq, Repr

/-- A matched result: its rank (R90) and its action record as a 256-bit number (R96). -/
structure Src where
  rank : Nat
  act : Nat
deriving DecidableEq, Repr

/-- The result that sets each action group so far (R98). -/
structure Merged where
  disp : Option Src
  cls : Option Src
  queue : Option Src
  rewrite : Option Src
  tunnel : Option Src
  police : Option Src
  cipher : Option Src
  mirror : Option Src
  miss : Option Src
deriving DecidableEq, Repr

/-- No group set. -/
def Merged.none : Merged := ⟨.none, .none, .none, .none, .none, .none, .none, .none, .none⟩

/-- The frame of a host send: function, serial number of the entry (`Started.seq`), frame number, whether its transmit time is
asked for, the place of its PTP header for one-step (R245), and that of the IP header the message lies under, with whether it
is IPv6. -/
structure SendRef where
  fn : Nat
  index : Nat
  frame : Nat
  tsReq : Bool
  ptp : Option Nat
  ip : Option (Nat × Bool)
deriving DecidableEq, Repr

/-- A packet. Bytes run from the destination address and hold no FCS. -/
structure Pkt where
  id : Nat
  /-- Order of entry into its present queue. -/
  stamp : Nat
  die : Nat
  stage : PStage
  bytes : Bytes
  /-- Receive timestamp in 2⁻¹⁶ ns; steps of the time base since (R470). -/
  tIn : Nat
  shift : Nat
  inDie : Nat
  /-- Source of R217: first lane, or instance. -/
  srcInst : Bool
  src : Nat
  reinjected : Bool
  start : Nat
  /-- The last byte has been received and checked. -/
  whole : Bool
  kv : Bytes
  md : Nat
  matchId : Nat
  hash : Nat
  /-- Latched epoch and its slot; whether the packet still holds it on its die (R115). -/
  epoch : Nat
  slot : Nat
  holdsEpoch : Bool
  merged : Merged
  ruleT : Nat
  ruleX : Nat
  ruleL : Nat
  ruleD : Nat
  through : Bool
  urgent : Bool
  demoted : Bool
  tc : Nat
  owner : Nat
  dstInst : Bool
  /-- Destination; 0xFFFF for none. -/
  dst : Nat
  colour : Nat
  sampled : Bool
  /-- Selected for a record at Headgate entry (R522); N of a drops-only selection, 0 of one of every packet. -/
  selected : Bool
  dropN : Nat
  lookupCheck : Bool
  authFail : Bool
  /-- A TLS record of the packet failed its tag (R272): shown in its verdict record, its frame goes on. -/
  tlsFail : Bool
  /-- First byte of the first bad cell (R504). -/
  badAt : Option Nat
  added : Nat
  qdepth : Nat
  txTime : Nat
  /-- Entered on a flow hit, on a miss; the flow entry found. -/
  flow : Option Bytes
  missed : Bool
  holds : List Hold
  send : Option SendRef
  /-- Receive buffers reserved at the grant (R399), and the order stamp of the grant (R395). -/
  bufs : List RxBuf
  granted : Nat
  /-- Read back from the Spillway (R195). -/
  readBack : Bool
  /-- Made by the part itself (a verdict collector frame): no verdict. -/
  gen : Bool
  /-- Headgate whose slot the packet has (R43); none while every Headgate keeps its slot for re-injection (R41). -/
  gate : Option Nat
  /-- The frame's last bytes, which `bytes` leaves out: the four of the FCS, or what an engine made of the end of the
  packet (R293). -/
  tail : Bytes
deriving DecidableEq, Repr

/-- A frame under reception on a lane, with its bytes as received. `pkt`: its packet, if it has one; `ctl`: consumed
at the port (MAC Control, HSP); `ended`: closed as faulty before its end; `copies`: its mirror copies (session and bytes),
which wait for its FCS check (R229). -/
structure Rx where
  pkt : Option Nat
  bytes : Bytes
  ctl : Bool
  ended : Bool
  copies : List (Nat × Bytes)
deriving DecidableEq, Repr

/-- A frame of the port's own that waits for its opening on the line: flow control for a priority (8: PAUSE) with its
pause time (R236), or an HSP frame (R417). -/
inductive Own where
  | fc (prio quanta : Nat)
  | hsp (frame : Bytes)
deriving DecidableEq, Repr

/-- A transmission on a lane, started or committed to start: packet, start and end in 2⁻¹⁶ ns, bytes that the line carries,
tenant or through, fragments so far, first byte of the present fragment. -/
structure Tx where
  pkt : Nat
  start : Nat
  stop : Nat
  len : Nat
  through : Bool
  frags : Nat
  fragFrom : Nat
deriving DecidableEq, Repr

/-- A pause in force or about to be: honour instant, its end (R234). -/
structure PauseIv where
  from_ : Nat
  until_ : Nat
deriving DecidableEq, Repr

/-! ### Rules and epochs (chapter 4) -/

/-- States of an epoch slot (R104). -/
inductive SlotSt where
  | free | open_ | current | draining | sweeping
deriving DecidableEq, Repr

/-- An epoch slot: number, state, EPOCH_STALL reported. -/
structure Slot where
  epoch : Nat
  st : SlotSt
  stalled : Bool
deriving DecidableEq, Repr

/-- Birth and death marks (R105): slot numbers. -/
structure Marks where
  birth : Option Nat
  death : Option Nat
deriving DecidableEq, Repr

/-- A ternary entry: value and mask of 80 bytes, inline action record. -/
structure TernE where
  m : Marks
  value : Bytes
  mask : Bytes
  act : Nat
deriving DecidableEq, Repr

/-- A version cell of a direct index, or a versioned object that names or holds a number or bytes. -/
structure VCell where
  m : Marks
  val : Nat
deriving DecidableEq, Repr

/-- A template. -/
structure TemplE where
  m : Marks
  bytes : Bytes
deriving DecidableEq, Repr

/-- An LPM prefix. -/
structure LpmE where
  m : Marks
  v6 : Bool
  vrf : Nat
  len : Nat
  addr : Nat
  rec_ : Nat
deriving DecidableEq, Repr

/-- A MAC entry (R149) in one replica. Key: bridge domain × 2⁴⁸ + address. -/
structure MacE where
  key : Nat
  static : Bool
  hit : Bool
  m : Marks
  rec_ : Nat
  locInst : Bool
  loc : Nat
  remote : Nat
  time : Nat
deriving DecidableEq, Repr

/-- A flow entry (R150): its 64 bytes and its hit bit. -/
structure FlowE where
  img : Bytes
  hit : Bool
deriving DecidableEq, Repr

/-- A pending learn event (R168). `installed`: it comes from a received publication (R425). -/
structure LearnEv where
  key : Nat
  locInst : Bool
  loc : Nat
  installed : Bool
deriving DecidableEq, Repr

/-- A rule object of a die whose codeword is uncorrectable (R505): an action record, a template, an LPM prefix. -/
inductive BadObj where
  | action (die idx : Nat)
  | template (die idx : Nat)
  | prefix_ (die : Nat) (v6 : Bool) (vrf len addr : Nat)
deriving DecidableEq, Repr

/-- Kinds of the notices between dies (R169, R171, R177, R180). -/
inductive NKind where
  | learn | fail | withdraw | hit | clear | removal
deriving DecidableEq, Repr

/-- A notice on its way to a die. -/
structure Notice where
  kind : NKind
  dest : Nat
  src : Nat
  key : Nat
  locInst : Bool
  loc : Nat
  time : Nat
deriving DecidableEq, Repr

/-- A Weir policer (R212): rates in Mbit/s, bursts in bytes, actions and traffic classes, tokens in units of
1/(8000 · 2¹⁶) byte, last update in 2⁻¹⁶ ns, counters. -/
structure Policer where
  cir : Nat
  pir : Nat
  cbs : Nat
  pbs : Nat
  yAct : Nat
  rAct : Nat
  yTc : Nat
  rTc : Nat
  tc : Nat
  tp : Nat
  last : Nat
  green : Nat
  yellow : Nat
  red : Nat
deriving DecidableEq, Repr

/-- A shaper (R203, R204): parameters, credit in units of 1/(8000 · 2¹⁶) byte, last refill, its slot on the wheel, and
a change that waits for its next refill (R208). -/
structure Shaper where
  rate : Nat
  burst : Nat
  overhead : Nat
  credit : Int
  last : Nat
  slot : Option Nat
  /-- Length of the slot's level in 2⁻¹⁶ ns. -/
  level : Nat
  change : Option (Nat × Nat × Nat)
deriving DecidableEq, Repr

/-- A change of the QoS objects (R215). -/
inductive QosChange where
  | shaper (n rate burst overhead : Nat)
  | policer (n cir pir cbs pbs acts tcs : Nat)
  | inst (i : Nat) (q : Qos)
deriving DecidableEq, Repr

/-- Deficit round robin over a set: the member served, whether it has had this round's quantum, deficits. -/
structure Drr where
  cur : Nat
  deficits : Tab Nat
deriving DecidableEq, Repr

/-- Scheduler state of a destination: deficits of its classes, the die granted last in each class. -/
structure DestSched where
  drr : Drr
  lastDie : Tab Nat
deriving DecidableEq, Repr

/-! ### Cipher (chapter 9) -/

/-- A key slot: kind, material (64 bytes), IV material (12 bytes). -/
structure KeySlot where
  kind : Nat
  material : Bytes
  iv : Bytes
deriving DecidableEq, Repr

/-- An association (R267). -/
structure Assoc where
  framing : Nat
  flags : Nat
  suite : Nat
  windowLog2 : Nat
  slot : Nat
  an : Nat
  spi : Nat
  sci : Nat
  nextSeq : Nat
  softLimit : Nat
  port : Nat
  /-- Accepted numbers in the window below the highest, and numbers pending (R269). -/
  seen : List Nat
  pending : List Nat
  softDone : Bool
  exhausted : Bool
deriving DecidableEq, Repr

/-- What a cipher unit works on. -/
inductive UKind where
  /-- ESP of a packet. -/
  | esp (pkt : Nat)
  /-- A TLS record of an engine context. -/
  | tls (engine ctx : Nat)
  /-- An XTS data unit of an engine context. -/
  | xts (engine ctx : Nat)
  /-- Part `part` of a bare job. -/
  | job (fn index part : Nat)
deriving DecidableEq, Repr

/-- A work unit (R248): association, slot and key contents it started with, sequence number, pool entries. -/
structure CUnit where
  id : Nat
  kind : UKind
  running : Bool
  assoc : Nat
  slot : Nat
  key : Option KeySlot
  seq : Nat
  entries : Nat
deriving DecidableEq, Repr

/-- A cipher job under way: the transfer that feeds it, its input, the outputs of its units by part, units sent,
the first failure. -/
structure Job where
  fn : Nat
  index : Nat
  ent : Bytes
  data : Bytes
  aad : Bytes
  tagIn : Bytes
  outs : List (Option Bytes)
  sent : Nat
  status : Nat
deriving DecidableEq, Repr

/-! ### Engines (chapter 10) -/

/-- Flags of a unit of an engine. -/
structure Flags3 where
  z : Bool
  n : Bool
  c : Bool
deriving DecidableEq, Repr

/-- An operation issued on a port: the port, its operation code, operands captured at issue, and, once the part has
carried it out, the result: status, register writes. -/
structure PortOp where
  port : EnginePort
  op : Nat
  /-- Address or first descriptor; second, third and fourth descriptors. -/
  a : Nat
  b : Nat
  c : Nat
  d : Nat
  /-- Data group or register number of the result, group data at issue. -/
  dst : Nat
  data : Bytes
  started : Bool
  result : Option (Nat × List (Nat × Nat))
deriving DecidableEq, Repr

/-- States of a context. -/
inductive CtxSt where
  | ready
  | paused (until_ : Nat)
  /-- REINJECT has been given; waits for a slot. -/
  | waitSlot
  /-- An end action has been issued, with the registers it reads (R287), and waits for its command. -/
  | ending (act imm : Nat) (args : List Nat)
  /-- Ended; operations outstanding. -/
  | draining
deriving DecidableEq, Repr

/-- An engine context (R280). -/
structure Ctx where
  job : Bool
  pkt : Option Nat
  fn : Nat
  index : Nat
  epoch : Nat
  slot : Nat
  regs : List Nat
  pc : Nat
  stack : List Nat
  fa : Flags3
  fb : Flags3
  sz : Bool
  /-- Last status of the ports TS, HB, PB, CI, DMA. -/
  status : List Nat
  /-- Waits for every outstanding port operation (yield 0b01). -/
  yielding : Bool
  st : CtxSt
  ops : List PortOp
  words : Nat
  longDone : Bool
deriving DecidableEq, Repr

/-! ### Span (chapter 15) -/

inductive NeighSt where
  | down | init | up | versionFail
deriving DecidableEq, Repr

/-- A neighbour record (R422) with its publication state (R424). An event: op × 2⁶⁰ + bridge domain × 2⁴⁸ + address. -/
structure Neigh where
  st : NeighSt
  version : Nat
  device : Nat
  interval : Nat
  mult : Nat
  last : Nat
  seqTx : Nat
  unacked : List (Nat × List Nat)
  queue : List Nat
  seqRx : Nat
  lostDone : Bool
  resent : Nat
  heard : Nat
  /-- The range the neighbour advertised when the record left DOWN (R437). -/
  minV : Nat
  maxV : Nat
  /-- When the last HELLO came, by REFCLK edges (the hold timer; `last` is package time). -/
  heardAt : Nat
deriving DecidableEq, Repr

/-- A barrier group (R427). -/
structure BarGroup where
  id : Nat
  coord : Nat
  count : Nat
  timeout : Nat
  lead : Nat
deriving DecidableEq, Repr

/-- The wave this part takes part in (R428). `lanes`: wave neighbours that have not echoed. -/
structure Wave where
  coord : Nat
  id : Nat
  epoch : Nat
  members : Nat
  parent : Option Nat
  lanes : List Nat
  sum : Nat
  flags : Nat
  echoed : Bool
  begun : Nat
  /-- The timeout of this part's group when it joined the wave, in ns. -/
  limit : Nat
deriving DecidableEq, Repr

/-- Barrier state of die 0: the group held, the open barrier commit's group, the wave, waves remembered, an abort
received before the own COMMIT_CLOSE, when the commit was confirmed, stall reported. -/
structure Barrier where
  group : Option BarGroup
  using_ : Option BarGroup
  wave : Option Wave
  /-- The last 16 waves that have ended: coordinator, identifier, when, in ns by REFCLK edges. -/
  past : List (Nat × Nat × Nat)
  early : Option Nat
  ready : Option Nat
  stalled : Bool
deriving DecidableEq, Repr

/-! ### Verdict records (chapter 20) -/

/-- A die's verdict setup (R524), sampling counter, budget window, ring and collector state. -/
structure Verd where
  dropsOnly : Bool
  collector : Bool
  k : Nat
  n : Nat
  budget : Nat
  version : Nat
  base : Nat
  port : Nat
  dmac : Nat
  smac : Nat
  counter : Nat
  window : Nat
  used : Nat
  frameSeq : Nat
  lost : Nat
  delivered : Bool
  prod : Nat
  cons : Nat
deriving DecidableEq, Repr

/-- A verdict record that waits for the write engine of the steward's die: producing die, address of its slot, of a setup since
replaced, the record. -/
structure VerdWait where
  die : Nat
  addr : Nat
  old : Bool
  bytes : Bytes
deriving DecidableEq, Repr

/-- No neighbour. -/
def Neigh.none : Neigh := ⟨.down, 0, 0, 0, 0, 0, 0, [], [], 0, false, 0, 0xFFFF, 0, 0, 0⟩

/-- No barrier. -/
def Barrier.none : Barrier := ⟨.none, .none, .none, [], .none, .none, false⟩

/-- A policer until a change sets it (R214). -/
def Policer.none : Policer := ⟨0, 0, 0, 0, 0, 0, 0, 0, 0, 0, 0, 0, 0, 0⟩

/-- A shaper until a change sets it (R203): rate, burst, overhead, credit 0, idle. -/
def Shaper.none : Shaper := ⟨0, 0, 0, 0, 0, .none, 0, .none⟩

/-- Scheduler state with nothing granted. -/
def DestSched.none : DestSched := ⟨⟨0, []⟩, []⟩

/-- Epoch slots after boot (R104). -/
def Slot.reset : List Slot :=
  [⟨0, .current, false⟩, ⟨0, .free, false⟩, ⟨0, .free, false⟩, ⟨0, .free, false⟩]

/-! ### The data plane and its companions -/

/-- Packets in the part, ports and the parse walk. -/
structure Packets where
  /-- Packets in the part; next packet number and order stamp. -/
  pkts : List Pkt
  nextPkt : Nat
  stamp : Nat
  /-- Frames under reception by first lane, innermost first: an express frame between the fragments of another (R239). -/
  rx : Tab (List Rx)
  /-- Transmissions, and the port's own frames that wait for an opening, by first lane. -/
  tx : Tab (List Tx)
  own : Tab (List Own)
  /-- Headgate taken next by the rotation, by die (R43). -/
  rotation : Tab Nat
  /-- Slots of a Headgate given since its last slot for re-injection, up to 15, by die × 16 + Headgate (R41). -/
  gates : Tab Nat
  /-- Flits of cells still to pass a Culvert port before the next control flit while cells wait, by die × 8 + port (R25). -/
  ctlGap : Tab Nat
  /-- Pauses of a lane: lane × 16 + priority, 8 for PAUSE. -/
  pauses : Tab (List PauseIv)
  /-- Lane × 16 + priority (8 for PAUSE): pause time 0xFFFF has been sent last (R236). -/
  xoff : List Nat
  /-- Parse graph: node and transition memories (R68). -/
  nodes : Tab Nat
  trans : Tab Nat
  automaton : Bytes
deriving DecidableEq, Repr

/-- Epochs, rule tables and groups, the same on every die (R112). -/
structure Rules where
  /-- Epochs (R104). EPC_PKTS by die × 4 + slot. -/
  slots : List Slot
  epcPkts : Tab Nat
  /-- Rule tables (R90, R91), the same on every die. -/
  tern : Tab (Option TernE)
  acts : Tab (Option VCell)
  templ : Tab (Option TemplE)
  direct : Tab (List VCell)
  lpm : List LpmE
  /-- Aggregates and, from 4096, ECMP groups (R143); the update that waits for the dies. -/
  groups : Tab (List Nat)
  groupNew : Option (Nat × List Nat)
deriving DecidableEq, Repr

/-- Exact tables, learning, notices between dies and counters. -/
structure Tables where
  /-- MAC and flow tables by die; each by bucket × 4 + slot. -/
  mac : Tab (Tab (Option MacE))
  flow : Tab (Tab (Option FlowE))
  /-- Flow cache by die, each by set. -/
  fcache : Tab (Tab (List FlowE))
  /-- Relocation generations: die × 2 (MAC), die × 2 + 1 (flow). -/
  gens : Tab Nat
  learnQ : Tab (List LearnEv)
  notices : List Notice
  /-- Counter pairs (packets, bytes) by die × 2²⁰ + index; ternary hits by die × 2¹⁷ + entry. -/
  ctrs : Tab (Nat × Nat)
  hits : Tab Nat
  /-- Counter pairs whose codeword is uncorrectable (R506). -/
  badCtrs : List Nat
  /-- Rule objects whose codeword is uncorrectable: no match until a commit rewrites them (R505). -/
  badObjs : List BadObj
  /-- Drops by ((die × 256 + code) × 2 + kind) × 4096 + index; MAC counters by (lane × 32 + number). -/
  drops : Tab Nat
  macCtr : Tab Nat
  /-- REWRITE_SKIPPED by the first lane of the ingress port (R103). -/
  skipped : Tab Nat
  /-- Sweepers by die × 2 (MAC), die × 2 + 1 (flow): next bucket, and start of the pass in ns (R174). -/
  sweep : Tab (Nat × Nat)
deriving DecidableEq, Repr

/-- Policers, shapers, instance QoS, schedulers, Spillway staging. -/
structure Sched where
  policers : Tab Policer
  /-- Shapers by die × 131072 + index. -/
  shapers : Tab Shaper
  /-- Instance QoS in force by die × 4096 + instance. -/
  qos : Tab Qos
  /-- QoS changes of the open commit; changes that wait for a die's next fine boundary. -/
  qosStaged : List QosChange
  qosPend : List (Nat × QosChange)
  /-- Schedulers: port n, 512 + instance; endpoints' round robin by die × 4 + endpoint. -/
  scheds : Tab DestSched
  epDrr : Tab Drr
  /-- Cells in Spillway staging by die. -/
  staged : Tab Nat
deriving DecidableEq, Repr

/-- The cipher engine. -/
structure Cipher where
  /-- Untagged frames passed under Check validation, by first lane of the MACsec port (R255). -/
  untagged : Tab Nat
  /-- Key slots and associations by package number; slot counters (AUTH_FAIL, REPLAY). -/
  keySlots : Tab (Option KeySlot)
  keyCtr : Tab (Nat × Nat)
  assocs : Tab (Option Assoc)
  units : Tab (List CUnit)
  nextUnit : Nat
  /-- Pool arbitration of a die: turns left of the inline and the job queue. -/
  turns : Tab (Nat × Nat)
  jobs : List Job
deriving DecidableEq, Repr

/-- The Ditchrider engines. -/
structure Dre where
  /-- Context whose microword an engine issued last, by die × 64 + engine: its round-robin turn (R279). -/
  turns : Tab Nat
  /-- Engine contexts by die × 8192 + engine × 128 + context; engine state bytes by die × 2³³ + offset. -/
  ctxs : Tab (Option Ctx)
  estate : Tab Byte
  cstore : Tab Nat
  dreWords : Tab Nat
  dreStarts : Tab Nat
deriving DecidableEq, Repr

/-- Span, verdict setups, and halves latched by reads of counter pairs. -/
structure Span where
  /-- Span neighbours by lane; barrier state. -/
  neigh : Tab Neigh
  barrier : Barrier
  /-- When a die last sent HELLOs, in ns by REFCLK edges. -/
  helloAt : Tab Nat
  /-- Verdict setups by die; drops counted under a drops-only selection, by ingress die (R522). -/
  verd : Tab (Option Verd)
  dropCount : Tab Nat
  /-- Verdict records of a steward ring that wait for the write engine (R525), oldest first. -/
  verdWait : List VerdWait
  /-- Latched high halves of counter pairs read low half first, by BAR4 offset (R537). -/
  latch : Tab Nat
deriving DecidableEq, Repr

/-- Packets at reset. -/
def Packets.reset : Packets where
  pkts := []
  nextPkt := 0
  stamp := 0
  rx := []
  tx := []
  own := []
  rotation := []
  gates := []
  ctlGap := []
  pauses := []
  xoff := []
  nodes := []
  trans := []
  automaton := []

/-- Rules at reset. -/
def Rules.reset : Rules where
  slots := Slot.reset
  epcPkts := []
  tern := []
  acts := []
  templ := []
  direct := []
  lpm := []
  groups := []
  groupNew := .none

/-- Tables at reset. -/
def Tables.reset : Tables where
  mac := []
  flow := []
  fcache := []
  gens := []
  learnQ := []
  notices := []
  ctrs := []
  hits := []
  badCtrs := []
  badObjs := []
  drops := []
  macCtr := []
  skipped := []
  sweep := []

/-- Sched at reset. -/
def Sched.reset : Sched where
  policers := []
  shapers := []
  qos := []
  qosStaged := []
  qosPend := []
  scheds := []
  epDrr := []
  staged := []

/-- Cipher at reset. -/
def Cipher.reset : Cipher where
  untagged := []
  keySlots := []
  keyCtr := []
  assocs := []
  units := []
  nextUnit := 0
  turns := []
  jobs := []

/-- Dre at reset. -/
def Dre.reset : Dre where
  turns := []
  ctxs := []
  estate := []
  cstore := []
  dreWords := []
  dreStarts := []

/-- Span at reset. -/
def Span.reset : Span where
  neigh := []
  barrier := Barrier.none
  helloAt := []
  verd := []
  dropCount := []
  verdWait := []
  latch := []

/-! ### The part -/

/-- Everything the part holds but its fuses, its NVM and the commands that wait. -/
structure Chip where
  /-- Populated dies as sensed: 2, 4 or 8 (R3). -/
  dies : Nat
  /-- Draws made from the free values of Config; the MODEL's own counter. -/
  free : Nat
  clk : Clk
  pwr : Power
  boot : Boot
  trust : Trust
  cfg : CfgCheck
  faults : Faults
  /-- Register words by BAR4 offset, as the difference (XOR) from the reset value; default 0. -/
  regs : Tab Reg32
  /-- PCI Express functions by `fnKey`; default `PciFn.reset`. -/
  fns : Tab PciFn
  /-- Read tags by port × 32768 + link × 16384 + tag; default free. -/
  tags : Tab Tag
  /-- Culvert ports that are down, and retraining: die × 8 + port. -/
  culDown : List Nat
  culTrain : List Nat
  /-- Instances by number; key generations by owner number. -/
  insts : Tab Inst
  keygens : Tab Nat
  /-- Channels by function number (4096 the steward). -/
  chans : Tab Chan
  /-- Shared DMA engines by die. -/
  dmas : Tab DieDma
  /-- A MAP_SET or MAP_CLEAR of the steward waits to settle (R355). -/
  mapWait : Bool
  commit : Commit
  dp : Packets
  rl : Rules
  tb : Tables
  qs : Sched
  cp : Cipher
  dre : Dre
  sp : Span
  out : List Out
deriving DecidableEq, Repr

/-- Faults with nothing raised. Log 3 (DESIGN CHOICE). -/
def Faults.none : Faults := ⟨[], 0, [], false, .none, 0, 0, [], false, false, false, .none, 0, 0, 0, [], []⟩

/-- Clocks as PKG_RST_N leaves them: Windsock starting, MGMT on the Pilot, trim code 64, time base 0. Log 3 (DESIGN CHOICE). -/
def Clk.reset : Clk :=
  ⟨0, false, .starting, false, false, true, false, false, 64, 0, 0, 0, .none, false, 0, 0, 0, 0, 0⟩

/-- Supplies at AUX_3V3 power-on with PKG_RST_N held asserted and VBUS absent (R487 step 1). Log 3 (DESIGN CHOICE). -/
def Power.powerOn : Power :=
  ⟨true, true, false, false, false, 0, false, false, false, false, 0, 0, 0, 0, 0, [], true, false, false, false, false, [], []⟩

/-- Boot before the release of PKG_RST_N. Log 3 (DESIGN CHOICE). -/
def Boot.reset : Boot := ⟨.start, 0, false, 0, 0, 0, 0#2, 0#2, 0#2, 0, 0, 0, 0, 0, 0, [], false, [], []⟩

/-- Management transports at reset. Log 3 (DESIGN CHOICE). -/
def Trust.reset : Trust := ⟨0#8, false, Spdm.none, Spdm.none, false⟩

/-- The configuration check at reset. Log 3 (DESIGN CHOICE). -/
def CfgCheck.reset : CfgCheck :=
  ⟨false, false, false, false, false, false, false, false, 0, 0, 0, 0, [], 0, 0, 0, 0, 0, []⟩

/-- The part as a reset of the whole package leaves it, with `dies` dies, supplies `pwr` and `free` draws made.
Log 1 (DESIGN CHOICE). -/
def Chip.resetWith (dies free : Nat) (pwr : Power) (out : List Out) : Chip where
  dies := dies
  free := free
  clk := Clk.reset
  pwr := pwr
  boot := Boot.reset
  trust := Trust.reset
  cfg := CfgCheck.reset
  faults := Faults.none
  regs := []
  fns := []
  tags := []
  culDown := []
  culTrain := []
  insts := []
  keygens := []
  chans := []
  dmas := []
  mapWait := false
  commit := Commit.none
  dp := Packets.reset
  rl := Rules.reset
  tb := Tables.reset
  qs := Sched.reset
  cp := Cipher.reset
  dre := Dre.reset
  sp := Span.reset
  out := out

/-- The machine: the commands that wait, first in first out; the fuse and NVM side, which every reset keeps; the
part. -/
structure State where
  pending : List Instr
  root : Root
  chip : Chip
deriving DecidableEq, Repr

/-- Unblown fuses but for the die count of an LRX-8 (R458). -/
def Fuses.reset : Fuses := ⟨0, 0, 0#64, 0#4, 0b11#2, 0b11#2, 0, 0, 0, 0, 0, 0⟩

/-- Fuses of an LRX-8 and an erased NVM of 128 MiB with 4 KiB sectors. Logs 1 (DESIGN CHOICE), 31 (PRESUMED). -/
def Root.reset : Root := ⟨Fuses.reset, [], true, 7, 2, false, .none, .ok, 0, 0, .none, 0, [], false⟩

/-- The machine at AUX_3V3 power-on of an LRX-8, PKG_RST_N held asserted (R487 step 1), with nothing pending. Log 3 (DESIGN CHOICE). -/
def State.reset : State := ⟨[], Root.reset, Chip.resetWith 8 0 Power.powerOn []⟩

/-- Why a step stops. The spec gives every command of the block an effect, if only to be ignored, so no meaning
raises a fault; the one constructor names the empty case. SAFE: never raised. -/
inductive Fault where
  /-- Raised by nobody. -/
  | unreachable
deriving DecidableEq, Repr

/-- Why a command is refused. -/
inductive Refusal where
  /-- A command whose meaning has not been written; raised by the dispatcher alone. SAFE. -/
  | notModelled (mnemonic : String)
deriving DecidableEq, Repr

end Sys2Proof.Machine
end

