-- ==== Sys2Proof/Machine/Ops.lean ====
section
/-! DEFINITION. The named operations over the state: registers (R531's field rules), counters, the package time
base, functions and their numbers, outputs and free values. -/

namespace Sys2Proof.Machine

/-! ### The parts of the state -/

def Chip.setDp (c : Chip) (f : Packets → Packets) : Chip := { c with dp := f c.dp }
def Chip.setTb (c : Chip) (f : Tables → Tables) : Chip := { c with tb := f c.tb }
def Chip.setQs (c : Chip) (f : Sched → Sched) : Chip := { c with qs := f c.qs }
def Chip.setRl (c : Chip) (f : Rules → Rules) : Chip := { c with rl := f c.rl }
def Chip.setCp (c : Chip) (f : Cipher → Cipher) : Chip := { c with cp := f c.cp }
def Chip.setDre (c : Chip) (f : Dre → Dre) : Chip := { c with dre := f c.dre }
def Chip.setSp (c : Chip) (f : Span → Span) : Chip := { c with sp := f c.sp }

/-! ### Drop reasons (R218) -/

def Dr.noVerdict := 0x01
def Dr.flowMiss := 0x02
def Dr.flowActionStale := 0x03
def Dr.noInner := 0x04
def Dr.groupEmpty := 0x05
def Dr.groupMemberInvalid := 0x06
def Dr.learnLimit := 0x07
def Dr.blockDisabled := 0x08
def Dr.scanBusy := 0x09
def Dr.throughFull := 0x10
def Dr.throughLate := 0x11
def Dr.culvertFull := 0x12
def Dr.culvertDown := 0x13
def Dr.engineBusy := 0x14
def Dr.ingressFull := 0x15
def Dr.shareFull := 0x20
def Dr.shareReduced := 0x21
def Dr.classShareFull := 0x22
def Dr.onDieFull := 0x23
def Dr.spillwayFull := 0x24
def Dr.spillBusy := 0x25
def Dr.policeYellow := 0x26
def Dr.policeRed := 0x27
def Dr.policerRemote := 0x28
def Dr.instanceFrozen := 0x30
def Dr.instanceReset := 0x31
def Dr.completionFull := 0x32
def Dr.noInstance := 0x33
def Dr.translationFault := 0x34
def Dr.runt := 0x40
def Dr.oversize := 0x41
def Dr.fcsError := 0x42
def Dr.rxAborted := 0x43
def Dr.linkDown := 0x44
def Dr.egressOversize := 0x45
def Dr.keySlotEmpty := 0x50
def Dr.replay := 0x51
def Dr.engineDrop := 0x58

/-! ### Outputs and free values -/

/-- Adds an output. Log 8 (DESIGN CHOICE). -/
def Chip.emit (c : Chip) (o : Out) : Chip := { c with out := c.out ++ [o] }

/-- The next free value, below `n` (0 for `n` = 0). Log 7 (DESIGN CHOICE). -/
def Chip.drawn (c : Chip) (n : Nat) : Nat := Config.free c.free % n

/-- Counts a draw of a free value. Log 7 (DESIGN CHOICE). -/
def Chip.draw (c : Chip) : Chip := { c with free := c.free + 1 }

/-- A write in parts of at most `mps` bytes (R328). -/
def writeParts (mps : Nat) : Nat → Nat → Bytes → List (Nat × Bytes)
  | 0, _, _ => []
  | n + 1, a, b => if b.isEmpty then [] else (a, b.take mps) :: writeParts mps n (a + mps) (b.drop mps)

/-! ### Registers -/

/-- BAR4 offset of a register (R538, R539, R540); die `d` counts for die blocks only. Logs 10 (DESIGN CHOICE), 18 (DESIGN CHOICE). -/
def bar4 (d : Nat) (a : RegAddr) : Nat :=
  if a.blk < 20 then d * 0x04000000 + a.blk * 0x00100000 + a.off
  else 0x20000000 + (a.blk - 32) * 0x00100000 + a.off

/-- Reset value of a register (R17). Two depend on the index: SCH_FLUME_LAT_i on whether i is this die (R55), and
MAC_LANE_CFG_l's rx_src and tx_dst are l mod 8. -/
def regReset (d : Nat) (a : RegAddr) : Nat :=
  if a.blk = 6 ∧ 0x800 ≤ a.off ∧ a.off < 0x820 then (if (a.off - 0x800) / 4 = d then 0x0438 else 0x0528)
  else if a.blk = 8 ∧ 0x100 ≤ a.off ∧ a.off < 0x200 then ((a.off - 0x100) / 4 % 8) * 0x24
  else match findReg a.blk a.off with
    | some r => r.reset
    | none => 0

/-- The stored word of a register. -/
def Chip.rdw (c : Chip) (d : Nat) (a : RegAddr) : Reg32 :=
  tget 0#32 c.regs (bar4 d a) ^^^ BitVec.ofNat 32 (regReset d a)

/-- The stored value of a register as a number. -/
def Chip.rd (c : Chip) (d : Nat) (a : RegAddr) : Nat := (c.rdw d a).toNat

/-- Stores a register's word. -/
def Chip.wr (c : Chip) (d : Nat) (a : RegAddr) (v : Nat) : Chip :=
  { c with regs := tput 0#32 c.regs (bar4 d a) (BitVec.ofNat 32 v ^^^ BitVec.ofNat 32 (regReset d a)) }

/-- A field of a register. -/
def Chip.fld (c : Chip) (d : Nat) (a : RegAddr) (lo w : Nat) : Nat := bitsN (c.rd d a) lo w

/-- A bit of a register. -/
def Chip.bit (c : Chip) (d : Nat) (a : RegAddr) (i : Nat) : Bool := bitN (c.rd d a) i

/-- Sets a field of a register. -/
def Chip.wfld (c : Chip) (d : Nat) (a : RegAddr) (lo w v : Nat) : Chip := c.wr d a (setBitsN (c.rd d a) lo w v)

/-- The enable field of block `b` on die `d`; the epoch block (3) and the blocks after span count as always enabled
(R478, R532). -/
def Chip.en (c : Chip) (d b : Nat) : Bool := b == 3 || decide (16 < b) || c.bit d ⟨b, 0⟩ 0

/-- The clock gate of block `b` is open; clock, power, fault and package blocks have no gate (R478). -/
def Chip.gateOpen (c : Chip) (d b : Nat) : Bool := decide (16 < b) || c.bit d R.clkGate b

/-- Adds to a saturating 32-bit counter register; the registers of a block whose gate is closed hold (R478). -/
def Chip.count (c : Chip) (d : Nat) (a : RegAddr) (n : Nat := 1) : Chip :=
  if c.gateOpen d a.blk then c.wr d a (satAdd 32 (c.rd d a) n) else c

/-- The part's blocks have clock and rails: AUX_3V3, PKG_RST_N released, main rails not lost, not tripped. -/
def Chip.alive (c : Chip) : Bool :=
  c.pwr.aux && !c.pwr.inReset && !c.pwr.mainDown && c.clk.stage != Stage.tripped

/-- The logic side runs: AUX_3V3, PKG_RST_N released, die 0's MGMT domain not stopped (a trip after CLK_PILOT_FAIL stops
it, R476). -/
def Chip.mgmtUp (c : Chip) : Bool :=
  c.pwr.aux && !c.pwr.inReset && !(c.clk.stage == Stage.tripped && c.clk.pilotFailed)

/-- The Tether runs: TET_WATCHDOG has not been raised since PKG_RST_N (R509), and no debug instruction has halted it
(R461). -/
def Chip.tetherUp (c : Chip) : Bool := !c.faults.held.contains .tetWatchdog && !c.trust.halted

/-- Block `b` of die `d` counts as disabled (R532); the engine block only once idle (R302). -/
def Chip.blockDisabled (c : Chip) (d b : Nat) : Bool :=
  !c.en d b && (b != 11 || c.bit d R.dreStatus 0)

/-- Die `d` is populated (R3). -/
def Chip.hasDie (c : Chip) (d : Nat) : Bool := decide (d < c.dies)

/-- Block `b` of die `d` runs. -/
def Chip.on (c : Chip) (d b : Nat) : Bool := c.alive && c.hasDie d && c.en d b && c.gateOpen d b

/-- Boot has completed. -/
def Chip.booted (c : Chip) : Bool := c.boot.state == BootState.done

/-- All dies, rising. -/
def Chip.allDies (c : Chip) : List Nat := List.range c.dies

/-- How a write by a master changes a register's word (R15, R528, R531 orders 3 and 5, R533): the new word, and
whether RWD bits of an enabled block would have changed. -/
def applyWrite (r : RegDef) (m : Master) (disabled : Bool) (old new : Reg32) : Reg32 × Bool :=
  let b := BitVec.ofNat 32
  let reach : Reg32 := match m with
    | .tether => b 0xFFFFFFFF
    | .steward => ~~~ (b r.sec)
    | .tenant => 0#32
  let rwd := b r.rwd &&& reach
  let viol := !disabled && decide (old &&& rwd ≠ new &&& rwd)
  let rw := if viol then b r.rw &&& reach else (b r.rw &&& reach) ||| rwd
  let v := (old &&& ~~~ rw) ||| (new &&& rw)
  let v := v &&& ~~~ (new &&& b r.w1c &&& reach)
  (v ||| (new &&& b r.w1s &&& reach), viol)

/-- What a read by a master returns of a register's word: fields above its level and WO fields read zero (R528). -/
def applyRead (r : RegDef) (m : Master) (v : Reg32) : Reg32 :=
  let b := BitVec.ofNat 32
  let seen := b (r.rw ||| r.rwd ||| r.w1c ||| r.w1s ||| r.rc ||| r.ro)
  match m with
  | .tether => v &&& seen
  | .steward => v &&& seen &&& ~~~ (b r.sec)
  | .tenant => 0#32

/-! ### Time -/

/-- Units of `Clk.tb` in one nanosecond. Log 11 (DESIGN CHOICE). -/
def tbPerNs : Nat := 5 * 2 ^ 27

/-- Package time in ns (R469), a 64-bit count. Log 11 (DESIGN CHOICE). -/
def Chip.ns (c : Chip) : Nat := c.clk.tb / tbPerNs % 2 ^ 64

/-- Time in ns by REFCLK edges of 6.4 ns, whatever the rate and the steps of the time base: what paces sweeps, limits and link
timers (R470). Log 11 (DESIGN CHOICE). -/
def Chip.steady (c : Chip) : Nat := c.clk.edges * 32 / 5

/-- Package time in 2⁻¹⁶ ns. Log 11 (DESIGN CHOICE). -/
def Chip.now (c : Chip) : Nat := c.clk.tb / 10240

/-- The signed rate of CLK_TB_RATE (R470). Log 11 (DESIGN CHOICE). -/
def Chip.rate (c : Chip) : Int := toSigned 32 (c.rd 0 R.clkTbRate)

/-- The increment of the time base at a REFCLK edge, in its own units: 6.4 ns × (1 + a). Log 11 (DESIGN CHOICE). -/
def Chip.tbStep (c : Chip) : Nat := ((2 ^ 32 : Int) + c.rate).toNat

/-- A time in 2⁻¹⁶ ns lies before the next REFCLK edge. Logs 5 (DESIGN CHOICE), 12 (DEDUCED). -/
def Chip.due (c : Chip) (t : Nat) : Bool := decide (t * 10240 < c.clk.tb + c.tbStep)

/-! ### Functions of the part -/

/-- Table key of a PCI Express function: PFs 0 to 63 by port × 2 + link, then 1,024 places for the VFs of each.
Log 10 (DESIGN CHOICE). -/
def fnKey : FnId → Nat
  | .pf port link => port * 2 + link
  | .vf port link vf => 64 + (port * 2 + link) * 1024 + vf

/-- Key of the PF that a function belongs to. Log 10 (DESIGN CHOICE). -/
def pfOfKey (k : Nat) : Nat := if k < 64 then k else (k - 64) / 1024

def Chip.fn (c : Chip) (k : Nat) : PciFn := tget PciFn.reset c.fns k

def Chip.setFn (c : Chip) (k : Nat) (f : PciFn) : Chip := { c with fns := tput PciFn.reset c.fns k f }

/-- The steward's host port, PF index, die and function number. -/
def Chip.stwPort (c : Chip) : Nat := c.fld 0 R.pkgSteward 0 5
def Chip.stwLink (c : Chip) : Nat := c.fld 0 R.pkgSteward 5 1
def Chip.stwDie (c : Chip) : Nat := c.stwPort / 4
def stewardFn : Nat := 4096

def Chip.inst (c : Chip) (i : Nat) : Inst := tget Inst.none c.insts i
def Chip.setInst (c : Chip) (i : Nat) (x : Inst) : Chip := { c with insts := tput Inst.none c.insts i x }
def Chip.chan (c : Chip) (f : Nat) : Chan := tget Chan.none c.chans f
def Chip.setChan (c : Chip) (f : Nat) (x : Chan) : Chip := { c with chans := tput Chan.none c.chans f x }
def Chip.dma (c : Chip) (d : Nat) : DieDma := tget DieDma.none c.dmas d
def Chip.setDma (c : Chip) (d : Nat) (x : DieDma) : Chip := { c with dmas := tput DieDma.none c.dmas d x }

/-- Die of a channel's function: the instance's die, or the steward's (R36). -/
def Chip.fnDie (c : Chip) (f : Nat) : Nat := if f = stewardFn then c.stwDie else f / 512

/-- PCI Express function of a channel's function. -/
def Chip.fnPci (c : Chip) (f : Nat) : Nat :=
  if f = stewardFn then fnKey (.pf c.stwPort c.stwLink)
  else
    let i := c.inst f
    fnKey (.vf i.port i.pf i.vf)

/-- Number of MSI-X vectors the function may signal (R324). -/
def Chip.fnVectors (c : Chip) (f : Nat) : Nat := if f = stewardFn then 2048 else (c.inst f).vectors

/-- The function may master the bus: Bus Master Enable of it and its PF set, not in D3hot (R332, R334). -/
def Chip.masters (c : Chip) (k : Nat) : Bool :=
  let f := c.fn k
  let p := c.fn (pfOfKey k)
  f.bme && !f.d3 && p.bme && !p.d3

/-- Channel function `f` may master the bus: its PCI Express function may, and an instance still has its VF (R332, R350). -/
def Chip.fnMasters (c : Chip) (f : Nat) : Bool := c.masters (c.fnPci f) && (f == stewardFn || !(c.inst f).orphaned)

/-- A host link is up. -/
def Chip.linkUp (c : Chip) (port link : Nat) : Bool := c.alive && c.bit (port / 4) (R.hepEpStatus (port % 4)) (16 * link)

/-- The links (port, link) of the part that are up. -/
def Chip.upLinks (c : Chip) : List (Nat × Nat) :=
  (List.range (4 * c.dies)).flatMap fun p => ([0, 1].filter fun l => c.linkUp p l).map fun l => (p, l)

/-- A memory write of function `f` within one 4 KiB page, in requests of at most Max_Payload_Size (R328).
Logs 8 (DESIGN CHOICE), 22 (PRESUMED). -/
def Chip.emitWrite (c : Chip) (f addr : Nat) (data : Bytes) (relaxed poisoned : Bool) : Chip :=
  (writeParts (c.fn (pfOfKey (c.fnPci f))).mps data.length addr data).foldl (fun c w => c.emit (.hostWrite f w.1 w.2 relaxed poisoned)) c

/-- Messages of a function may go: MSI-X Enable set, Function Mask clear, it may master the bus (R325, R332). -/
def Chip.msixGo (c : Chip) (k : Nat) : Bool := (c.fn k).msixEn && !(c.fn k).fnMask && c.masters k && c.tetherUp

/-- Sends the message of a vector and clears its pending bit (R325). -/
def Chip.msixSend (c : Chip) (k v : Nat) : Chip :=
  let f := c.fn k
  let e := tget (0, 0) f.vectors v
  (c.setFn k { f with pendVec := f.pendVec.filter (· != v) }).emit (.msix k v e.1 e.2 false)

/-- Signals a vector of the PCI Express function `k` (R325): sent at once, or pending while it is masked, MSI-X is
disabled or the function may not master the bus. Logs 8 (DESIGN CHOICE), 73 (DESIGN CHOICE). -/
def Chip.msix (c : Chip) (k v : Nat) : Chip :=
  let f := c.fn k
  if c.msixGo k && f.unmasked.contains v then c.msixSend k v
  else if f.pendVec.contains v then c else c.setFn k { f with pendVec := f.pendVec ++ [v] }

/-- Signals vector `v` of channel function `f`, if the function has it (R324, R413). -/
def Chip.signal (c : Chip) (f v : Nat) : Chip :=
  if v < c.fnVectors f ∧ (f = stewardFn ∨ (c.inst f).orphaned = false) then c.msix (c.fnPci f) v else c

/-- Sends the pending messages of a function that may now go (R325, R333). Log 23 (DESIGN CHOICE). -/
def Chip.flushMsix (c : Chip) (k : Nat) : Chip :=
  if c.msixGo k then ((c.fn k).pendVec.filter (c.fn k).unmasked.contains).foldl (fun c v => c.msixSend k v) c else c

/-! ### AER (R340) -/

/-- Routing ID of a function: that of its PF, which the host's enumeration gives, or PF + 1 + VF (R317). -/
def routingId (k : Nat) : Nat := if k < 64 then Config.pfId k else (Config.pfId (pfOfKey k) + 1 + (k - 64) % 1024) % 65536

/-- Sets error bits of a doubleword of a function's configuration space: Status, Device Status. Log 22 (PRESUMED). -/
def PciFn.note (f : PciFn) (off bits : Nat) : PciFn := { f with cfg := tput 0 f.cfg off (tget 0 f.cfg off ||| bits) }

/-- The error bits of Status and Device Status that an uncorrectable error sets in a PF (R319): Device Status says fatal, non-fatal,
or, for an advisory non-fatal error, correctable; a message that is not masked sets Signaled System Error while SERR# Enable is
set. Log 22 (PRESUMED). -/
def PciFn.noteError (f : PciFn) (bit : Nat) (mild : Bool) : PciFn :=
  let dev := if mild then 2 ^ 16 else if bitN f.aer.uncSev bit then 2 ^ 18 else 2 ^ 17
  let serr := !mild && !bitN f.aer.uncMask bit && bitN (tget 0 f.cfg 0x04) 8
  (f.note 0x50 (dev + (if bit = 20 then 2 ^ 19 else 0))).note 0x04 (if serr then 2 ^ 30 else 0)

/-- Logs an uncorrectable error in a PF's AER: its status bit, the error bits of the configuration space, and, unless it is masked
or an earlier one stands, the first error pointer and the header log. One of non-fatal severity that the part deals with itself
(`advisory`) is an advisory non-fatal error too. Log 22 (PRESUMED). -/
def Chip.aerLog (c : Chip) (pf bit : Nat) (name : String) (header : List Nat) (advisory : Bool := false) : Chip :=
  let f := c.fn pf
  let a := f.aer
  let mild := advisory && !bitN a.uncSev bit
  let a := if bitN a.uncStatus a.first || bitN a.uncMask bit then a else { a with first := bit, header := header }
  let a := if mild then { a with corStatus := setBitN a.corStatus 13 true } else a
  (c.setFn pf ({ f with aer := { a with uncStatus := setBitN a.uncStatus bit true } }.noteError bit mild)).emit (.aer pf name)

/-- Logs a correctable error in a PF's AER. Log 22 (PRESUMED). -/
def Chip.aerCor (c : Chip) (pf bit : Nat) (name : String) : Chip :=
  let f := c.fn pf
  let f := { f with aer := { f.aer with corStatus := setBitN f.aer.corStatus bit true } }
  (c.setFn pf (f.note 0x50 (2 ^ 16))).emit (.aer pf name)

/-- The header of a completion for a tag of function `k`, as far as its fields are named: requester ID and tag. Log 22 (PRESUMED). -/
def cplHeader (k tag : Nat) : List Nat := [0x4A000000, 0, routingId k * 65536 + tag % 256 * 256, 0]

/-- An Unsupported Request to a function (R334): answered so, and logged in its PF's AER; one that wants an answer (`reads`) as an
advisory error. -/
def Chip.unsupported (c : Chip) (k off : Nat) (reads : Bool := false) : Chip :=
  (c.aerLog (pfOfKey k) 20 "Unsupported Request" [0, 0, off % 2 ^ 32, 0] reads).emit (.unsupported off)

/-! ### Culvert -/

/-- The die that Culvert port `k` of die `d` reaches (R23). Log 44 (DESIGN CHOICE). -/
def culPartner (dies d k : Nat) : Nat :=
  if dies = 8 then (d + k + 1) % 8
  else if dies = 4 then (if k < 3 then d ^^^ 1 else if k < 5 then d ^^^ 2 else d ^^^ 3)
  else d ^^^ 1

/-- The gang: Culvert ports of die `d` to die `e`, rising. Log 44 (DESIGN CHOICE). -/
def Chip.gang (c : Chip) (d e : Nat) : List Nat := (List.range 7).filter fun k => culPartner c.dies d k == e

/-- The port at the far end of Culvert port `k` of die `d`: the same place in the partner's gang (R23: 6 − k on the
LRX-8, whose gangs hold one port). Log 44 (DESIGN CHOICE). -/
def Chip.culFar (c : Chip) (d k : Nat) : Nat :=
  let e := culPartner c.dies d k
  (c.gang e d).getD ((c.gang d e).findIdx (· == k)) k

/-- Culvert port `k` of die `d` carries traffic. -/
def Chip.culUp (c : Chip) (d k : Nat) : Bool := !c.culDown.contains (d * 8 + k)

/-- The port that carries the control messages from die `d` to die `e` (R25): the first of their gang, at both ends.
Log 44 (DESIGN CHOICE). -/
def Chip.ctlPort (c : Chip) (d e : Nat) : Nat := (c.gang d e).headD 0

/-- Control messages pass from die `d` to die `e`: the port that carries them is up (R27: none moves to another).
Log 44 (DESIGN CHOICE). -/
def Chip.reach (c : Chip) (d e : Nat) : Bool := d == e || c.culUp d (c.ctlPort d e)

/-! ### The two halves of the state -/

/-- Runs an operation of the part. -/
def State.onChip (f : Chip → Chip) (s : State) : State := { s with chip := f s.chip }

/-- Runs an operation of the fuse and NVM side. -/
def State.onRoot (f : Root → Root) (s : State) : State := { s with root := f s.root }

/-- DEBUG_LOCK is in force: any of the four copies is blown (R459). -/
def Root.locked (r : Root) : Bool := r.fuses.debugLock != 0#4

end Sys2Proof.Machine
end

