-- ==== Sys2Proof/Machine/Faults.lean ====
section
/-! DEFINITION. Raising an error class (R511–R519), the log ring, the fault pin, and the commands of the fault
block (spec/20, spec/21 for the class masks). -/

namespace Sys2Proof.Machine

/-! ### Classes -/

/-- Error class numbers (R512). -/
def Cls.hbmCorrected := 0x01
def Cls.hbmUncorrectable := 0x02
def Cls.sramCorrected := 0x03
def Cls.sramUncorrectable := 0x04
def Cls.cellCrc := 0x05
def Cls.lookupCheck := 0x06
def Cls.scrubOverrun := 0x07
def Cls.guaranteeLapsed := 0x08
def Cls.culReplay := 0x10
def Cls.culLinkDown := 0x11
def Cls.linkEvent := 0x12
def Cls.clkTrip := 0x13
def Cls.clkPilotFail := 0x14
def Cls.clkGateForced := 0x15
def Cls.pwrStageFault := 0x20
def Cls.pwrVbusRange := 0x21
def Cls.pwrLinkFail := 0x22
def Cls.pwrMainLost := 0x23
def Cls.tetBootFail := 0x24
def Cls.tetCertAbsent := 0x25
def Cls.tetWatchdog := 0x26
def Cls.cfgCrcMismatch := 0x30
def Cls.cfgCrcHoldLong := 0x31
def Cls.writeWhileEnabled := 0x32
def Cls.flumeLatBelowMin := 0x33
def Cls.parseGraphInvalid := 0x34
def Cls.clsProfileInvalid := 0x35
def Cls.hashProfileInvalid := 0x36
def Cls.scanCfgInvalid := 0x37
def Cls.tblCfgInvalid := 0x38
def Cls.bufCfgInvalid := 0x39
def Cls.macCfgInvalid := 0x3A
def Cls.cipCfgInvalid := 0x3B
def Cls.hepCfgInvalid := 0x3C
def Cls.dmaCfgInvalid := 0x3D
def Cls.spnCfgInvalid := 0x3E
def Cls.tetRecordInvalid := 0x3F
def Cls.tetTableLoadFail := 0x40
def Cls.dreAbiMismatch := 0x41
def Cls.drePatchInvalid := 0x42
def Cls.dreContextFault := 0x50
def Cls.dreContextLong := 0x51
def Cls.dreLockstepMismatch := 0x52
def Cls.cipUnwrapFail := 0x53
def Cls.cipSeqSoft := 0x54
def Cls.cipSeqExhausted := 0x55
def Cls.epochStall := 0x60
def Cls.commitAborted := 0x61
def Cls.tblLearnReplicaFull := 0x62
def Cls.insTranslationFault := 0x63
def Cls.chnHalt := 0x64
def Cls.dmaCqFull := 0x65
def Cls.logOverflow := 0x66
def Cls.verdictOverflow := 0x67
def Cls.spnDupId := 0x70
def Cls.spnVersionFail := 0x71
def Cls.spnPubLost := 0x72
def Cls.spnBarrierStall := 0x73

/-- Severity of a class (R512): 0 correctable, 1 uncorrectable-contained, 2 uncorrectable-global. -/
def sevOf (cls : Nat) : Nat :=
  if [0x11, 0x13, 0x14, 0x20, 0x23, 0x24, 0x26, 0x30].contains cls then 2
  else if [0x02, 0x04, 0x05, 0x06, 0x50, 0x52, 0x55, 0x63, 0x64, 0x73].contains cls then 1
  else if 0x33 ≤ cls ∧ cls ≤ 0x42 then 1
  else 0

/-! ### Records -/

/-- The 32 bytes of an error record (R516). -/
def ErrRec.bytes (r : ErrRec) : Bytes :=
  toLE 1 r.cls ++ toLE 1 r.sev ++ toLE 1 r.die ++ toLE 1 (b2n r.lost + 2 * b2n r.masked) ++ toLE 4 r.seq
    ++ toLE 8 r.time ++ toLE 8 r.addr ++ toLE 2 r.unit ++ toLE 1 r.block ++ toLE 1 r.cause ++ toLE 4 r.value

/-- What an event says beyond its class and die: the fields of R516 the raiser fills. Log 18 (DESIGN CHOICE). -/
structure Ev where
  addr : Nat := 0
  unit : Nat := 0xFFFF
  block : Nat := 0xFF
  cause : Nat := 0
  value : Nat := 0
deriving DecidableEq, Repr

/-- Key of a class on a die. -/
def clsKey (die cls : Nat) : Nat := die * 256 + cls

/-- What die `die` keeps for a class. -/
def Chip.cls (c : Chip) (die cls : Nat) : ClassRec := tget ClassRec.none c.faults.classes (clsKey die cls)

def Chip.setCls (c : Chip) (die cls : Nat) (r : ClassRec) : Chip :=
  { c with faults := { c.faults with classes := tput ClassRec.none c.faults.classes (clsKey die cls) r } }

/-- A class is masked on a die (R514). -/
def Chip.masked (c : Chip) (die cls : Nat) : Bool := c.bit die (R.fltMask (cls / 32)) (cls % 32)

/-- The ring can take a record of a die (R519): set up, the steward may master the bus, a slot is free beside the records that
wait, not more than 4,096 wait, and the record reaches the steward's die (R513, R518). Log 40 (DESIGN CHOICE). -/
def Chip.logRoom (c : Chip) (die : Nat) : Bool :=
  match c.faults.ring with
  | none => false
  | some g => c.alive && c.tetherUp && c.fnMasters stewardFn && c.reach die c.stwDie &&
      decide (diff32 c.faults.prod c.faults.cons + c.faults.waiting.length < 2 ^ g.k) && decide (c.faults.waiting.length ≤ 4096)

/-- Writes one record into the log ring (R518). Log 40 (DESIGN CHOICE). -/
def Chip.logWrite (c : Chip) (r : ErrRec) : Chip :=
  match c.faults.ring with
  | none => c
  | some g =>
    let c := c.emit (.hostWrite stewardFn (g.base + 32 * (c.faults.prod % 2 ^ g.k)) r.bytes false false)
    { c with faults := { c.faults with prod := wrapAdd 32 c.faults.prod 1, ovfArmed := true, unsignalled := true } }

/-- Gives a record to the write engine of the steward's die (R518, R391): written as it arises, or waiting while the die's DMA
block does not run. It says whether records before it were lost. -/
def Chip.logTake (c : Chip) (r : ErrRec) : Chip :=
  let r := { r with lost := c.faults.lossPending }
  let c := { c with faults := { c.faults with lossPending := false } }
  if c.on c.stwDie 15 && c.faults.waiting.isEmpty then c.logWrite r
  else { c with faults := { c.faults with waiting := c.faults.waiting ++ [r] } }

/-- A record is not written (R519): FLT_LOG_OVF. Answers whether it is the first loss since a record was written. -/
def Chip.logLose (c : Chip) : Chip × Bool :=
  let q := c.count 0 R.fltLogOvf
  ({ q with faults := { q.faults with lossPending := true, ovfArmed := false } }, c.faults.ovfArmed)

/-- AER of an unmasked class (R511). -/
def Chip.aerOf (c : Chip) (sev : Nat) : Chip :=
  if sev = 0 then c.aerCor (c.stwPort * 2 + c.stwLink) 14 "Corrected Internal Error"
  else if sev = 1 then c.aerLog (c.stwPort * 2 + c.stwLink) 22 "Uncorrectable Internal Error" []
  else c.upLinks.foldl (fun c pl => c.aerLog (pl.1 * 2 + pl.2) 22 "Uncorrectable Internal Error" []) c

/-- The record of an event that arises now (R516). Log 19 (DESIGN CHOICE). -/
def Chip.recOf (c : Chip) (cls die : Nat) (e : Ev) : ErrRec :=
  ⟨cls, sevOf cls, die, false, c.masked die cls, wrapAdd 32 c.faults.seq 1, c.ns, e.addr, e.unit, e.block, e.cause, e.value⟩

/-- What a class keeps after an event with record `r` (R513, R515). -/
def ClassRec.after (k : ClassRec) (r : ErrRec) : ClassRec :=
  ⟨satAdd 32 k.count 1, some (k.first.getD r), some r, k.sbPending || (!r.masked && decide (0 < r.sev))⟩

/-- Counts and records an event on its die (R513). -/
def Chip.record (c : Chip) (r : ErrRec) : Chip :=
  { c with faults := { c.faults with
      classes := tput ClassRec.none c.faults.classes (clsKey r.die r.cls) ((c.cls r.die r.cls).after r), seq := r.seq } }

/-- Reports an unmasked event (R511, R515, R519): the pin, AER, the log. Answers whether the record was lost as the first loss
since a record was written. Log 19 (DESIGN CHOICE). -/
def Chip.report (c : Chip) (r : ErrRec) : Chip × Bool :=
  let c := ({ c with faults := { c.faults with ugRaised := c.faults.ugRaised || decide (r.sev = 2) } }).aerOf r.sev
  if c.logRoom r.die then (c.logTake r, false) else c.logLose

/-- Counts and records an event on its die and reports it unless it is masked (R511–R515), without the LOG_OVERFLOW that a
loss may call for. Answers whether the record was lost as the first loss since a record was written (R519). Log 19 (DESIGN CHOICE). -/
def Chip.raise1 (c : Chip) (cls die : Nat) (e : Ev) : Chip × Bool :=
  let r := c.recOf cls die e
  if r.masked then (c.record r, false) else (c.record r).report r

/-- Raises an error class on a die (R513); at the first loss of a record after one was written, LOG_OVERFLOW is raised
too and takes part in the same rule (R519). Log 18 (DESIGN CHOICE). -/
def Chip.raise (c : Chip) (cls die : Nat) (e : Ev) : Chip :=
  let (c, loss) := c.raise1 cls die e
  if loss then (c.raise1 Cls.logOverflow 0 {}).1 else c

/-- Loses the records that wait for the write engine (R519). -/
def Chip.logDiscard (c : Chip) : Chip :=
  let n := c.faults.waiting
  n.foldl (fun c _ =>
    let (c, loss) := c.logLose
    if loss then (c.raise1 Cls.logOverflow 0 {}).1 else c) { c with faults := { c.faults with waiting := [] } }

/-- The write engine of the steward's die runs again: the records that waited are written, or lost where they can no longer be
(R519). -/
def Chip.logFlush (c : Chip) : Chip :=
  let l := c.faults.waiting
  let c := { c with faults := { c.faults with waiting := [] } }
  l.foldl (fun c r =>
    if c.logRoom c.stwDie then c.logWrite r
    else
      let (c, loss) := c.logLose
      if loss then (c.raise1 Cls.logOverflow 0 {}).1 else c) c

/-- Adds a held condition: FAULT_N and SMB_ALERT_N stay asserted until PKG_RST_N (R515). -/
def Chip.hold (c : Chip) (h : Held) : Chip :=
  if c.faults.held.contains h then c else { c with faults := { c.faults with held := c.faults.held ++ [h] } }

/-- FAULT_N is asserted (R515). -/
def Chip.faultN (c : Chip) : Bool := c.faults.ugRaised || !c.faults.held.isEmpty

/-- SMB_ALERT_N is asserted (R515). -/
def Chip.smbAlertN (c : Chip) : Bool := !c.faults.held.isEmpty || c.faults.classes.any fun e => e.2.sbPending

/-- What an ordinary read of a codeword reports (R502, R504): corrected or uncorrectable, HBM or SRAM. Nothing is written
back. Log 39 (DESIGN CHOICE). -/
def Chip.readCheck (c : Chip) (die : Nat) (hbm : Bool) (found : ScrubOutcome) (e : Ev) : Chip :=
  match found with
  | .clean => c
  | .corrected n => c.raise (if hbm then Cls.hbmCorrected else Cls.sramCorrected) die { e with cause := n }
  | .uncorrectable => c.raise (if hbm then Cls.hbmUncorrectable else Cls.sramUncorrectable) die e

/-- What a read of `n` bytes of cells finds on a die (R498, R502, R504): the first byte of a bad cell, reported; a cell beyond
the bytes read is none of them. -/
def Chip.cellsCheck (c : Chip) (die : Nat) (hbm : Bool) (found : CellRead) (n : Nat) (e : Ev) : Option Nat × Chip :=
  match found with
  | .good => (none, c)
  | .corrected k => (none, c.readCheck die hbm (.corrected k) e)
  | .uncorrectable k => if n ≤ 256 * k then (none, c) else (some (256 * k), c.readCheck die hbm .uncorrectable e)
  | .crc k => if n ≤ 256 * k then (none, c) else (some (256 * k), c.raise Cls.cellCrc die e)

/-! ### The guarantee (R498, R501) -/

/-- The scrubbers have their clocks: until the Windsock has released the divided clocks none runs. Log 39 (DESIGN CHOICE). -/
def Chip.scrubs (c : Chip) : Bool := c.alive && c.clk.stage == .locked

/-- The condition bits of FLT_GUARANTEE on a die: boot_done, hbm_scrub, sram_scrub, paired.
Logs 19 (DESIGN CHOICE), 39 (DESIGN CHOICE). -/
def Chip.guarantee (c : Chip) (d : Nat) : List Bool :=
  [c.booted, c.scrubs && c.bit d R.fltScrubCtrl 0 && !bitN c.faults.hbmLate d,
   c.scrubs && c.bit d R.fltScrubCtrl 1 && !bitN c.faults.sramLate d,
   c.bit d R.dreCtrl 2 && c.en d 11]

/-- Raises GUARANTEE_LAPSED for a condition of die `d` that held before, as `before` says, and holds no more, once until all
conditions have held again (R501). The cause byte carries the bit number of FLT_GUARANTEE. Log 39 (DESIGN CHOICE). -/
def Chip.lapse (c : Chip) (before : List Bool) (d : Nat) : Chip :=
  let after := c.guarantee d
  if after.all id then { c with faults := { c.faults with lapsed := setBitN c.faults.lapsed d false } }
  else
    match (List.range 4).find? fun i => before.getD i false && !after.getD i false with
    | some i =>
      if bitN c.faults.lapsed d then c
      else ({ c with faults := { c.faults with lapsed := setBitN c.faults.lapsed d true } }).raise
        Cls.guaranteeLapsed d { cause := i }
    | none => c

/-- Runs `f` and reports what lapses with it on die `d` (R501). Log 39 (DESIGN CHOICE). -/
def Chip.watchGuarantee (c : Chip) (d : Nat) (f : Chip → Chip) : Chip := (f c).lapse (c.guarantee d) d

/-- Runs `f` and reports what lapses with it on any die (R501). -/
def Chip.watchAll (c : Chip) (f : Chip → Chip) : Chip := c.allDies.foldl (fun x d => x.lapse (c.guarantee d) d) (f c)

/-! ### Commands -/

/-- Codewords of a scrubber's memory (R503): 36 GiB of 128 bytes, or those of the die's SRAM, whose number the spec does not give.
Log 39 (DESIGN CHOICE). -/
def scrubWords (hbm : Bool) : Nat := if hbm then 36 * 2 ^ 23 else max 1 Config.sramWords

/-- The scrub pass of a die overruns its interval, or a pass has begun anew. -/
def Chip.setLate (c : Chip) (hbm : Bool) (die : Nat) (late : Bool) : Chip :=
  if hbm then { c with faults := { c.faults with hbmLate := setBitN c.faults.hbmLate die late } }
  else { c with faults := { c.faults with sramLate := setBitN c.faults.sramLate die late } }

/-- A scrubber visits its next codeword (R503). A corrected codeword is counted with its symbols and rewritten unless
an ordinary write came between; an uncorrectable one is reported and left. A pass that overruns its interval is reported once;
with the last codeword the next pass begins. Log 39 (DESIGN CHOICE). -/
def scrubVisit (hbm : Bool) (die : Nat) (found : ScrubOutcome) (overrun : Bool) (c : Chip) : Chip :=
  if c.alive && c.hasDie die && c.bit die R.fltScrubCtrl (if hbm then 0 else 1) then
    let pos := tget 0 (if hbm then c.faults.hbmPos else c.faults.sramPos) die
    let wrapped := decide (scrubWords hbm ≤ pos + 1)
    let next := if wrapped then 0 else pos + 1
    let c := if hbm then { c with faults := { c.faults with hbmPos := tput 0 c.faults.hbmPos die next } }
      else { c with faults := { c.faults with sramPos := tput 0 c.faults.sramPos die next } }
    let e : Ev := if hbm then { addr := 128 * pos, block := 0x20 } else {}
    let c := c.readCheck die hbm found e
    let c := if overrun && !bitN (if hbm then c.faults.hbmLate else c.faults.sramLate) die then
        c.watchGuarantee die fun c => (c.setLate hbm die true).raise Cls.scrubOverrun die { block := e.block }
      else c
    if wrapped then
      let c := if hbm then c.wfld die R.fltScrubCtrl 2 1 1 else c
      c.watchGuarantee die fun c => c.setLate hbm die false
    else c
  else c

/-- FLT_PIN: a write of release deasserts FAULT_N unless a held condition holds (R515). The pin is one, so the
register of any populated die releases it. Log 39 (DESIGN CHOICE). -/
def fltPinRelease (c : Chip) (value : Reg32) : Chip :=
  if value.getLsbD 2 then { c with faults := { c.faults with ugRaised := false } } else c

/-- FLT_CLASS_SEL: snapshot of a class into FLT_SNAP_COUNT, FIRST and LAST; with clear, its count and records are
emptied (R513, R537). -/
def fltClassSel (die : Nat) (value : Reg32) (c : Chip) : Chip :=
  let cls := bitsN value.toNat 0 8
  let k := c.cls die cls
  let bytesOf : Option ErrRec → Bytes := fun r => match r with | some r => r.bytes | none => List.replicate 32 0
  let c := c.wr die R.fltSnapCount k.count
  let c := (List.range 8).foldl (fun c w => c.wr die (R.fltSnapFirst w) (leAt (bytesOf k.first) (4 * w) 4)) c
  let c := (List.range 8).foldl (fun c w => c.wr die (R.fltSnapLast w) (leAt (bytesOf k.last) (4 * w) 4)) c
  if value.getLsbD 30 then c.setCls die cls { k with count := 0, first := none, last := none } else c

/-- FLT_LOG_CONS (R518): a value beyond the producer is ignored and sets log_lap. -/
def fltLogCons (value : Reg32) (c : Chip) : Chip :=
  let f := c.faults
  if diff32 f.prod value.toNat ≤ diff32 f.prod f.cons then { c with faults := { f with cons := value.toNat } }
  else c.wfld 0 R.fltLogStatus 1 1 1

/-- LOG_MESSAGE (R520): one message after records were written, none while no record is unconsumed, at most one in
10 µs. -/
def logMessage (c : Chip) : Chip :=
  match c.faults.ring with
  | none => c
  | some g =>
    let spaced := match c.faults.lastMsg with
      | none => true
      | some t => decide (t + 10000 ≤ c.steady)
    if c.faults.unsignalled && decide (c.faults.prod ≠ c.faults.cons) && spaced && c.alive && c.tetherUp then
      let c := { c with faults := { c.faults with unsignalled := false, lastMsg := some c.steady } }
      c.signal stewardFn g.vector
    else c

/-- TET_WATCHDOG (R509): raised in die 0's fault block; FAULT_N and SMB_ALERT_N are latched until PKG_RST_N. -/
def tetWatchdog (c : Chip) : Chip :=
  if c.pwr.aux && !c.pwr.inReset then (c.hold .tetWatchdog).raise Cls.tetWatchdog 0 { block := 0x22 } else c

/-- A Culvert flit was replayed `n` times (R507). -/
def culReplays (die port n : Nat) (c : Chip) : Chip :=
  (List.range n).foldl (fun c _ => c.raise Cls.culReplay die { block := 0x21, cause := port }) c

/-- The notices between dies that the failed port of a pair carries are lost (R172). Log 44 (DESIGN CHOICE). -/
def Chip.dropNotices (c : Chip) : Chip :=
  { c with tb := { c.tb with notices := c.tb.notices.filter fun n => c.reach n.src n.dest } }

/-- CULVERT_LINK_FAIL (R507): both ends go down and raise CUL_LINK_DOWN. Log 45 (DEDUCED). -/
def culvertLinkFail (die port : Nat) (c : Chip) : Chip :=
  if c.alive && c.hasDie die && decide (port < 7) && c.culUp die port then
    let e := culPartner c.dies die port
    let q := c.culFar die port
    let c := ({ c with culDown := c.culDown ++ [die * 8 + port, e * 8 + q] }).dropNotices
    let c := c.raise Cls.culLinkDown die { block := 0x21, cause := port }
    c.raise Cls.culLinkDown e { block := 0x21, cause := q }
  else c

/-- FLT_CUL_RETRAIN with go set, for a port that is down: retraining of both ends starts (R507). -/
def fltCulRetrain (die : Nat) (value : Reg32) (c : Chip) : Chip :=
  let port := bitsN value.toNat 0 3
  if value.getLsbD 31 && decide (port < 7) && !c.culUp die port then
    let far := culPartner c.dies die port * 8 + c.culFar die port
    let add := [die * 8 + port, far].filter fun p => !c.culTrain.contains p
    { c with culTrain := c.culTrain ++ add }
  else c

/-- CULVERT_RETRAIN_DONE (R507): the port carries traffic again, or the class is raised again at both ends. -/
def culvertRetrainDone (die port : Nat) (ok : Bool) (c : Chip) : Chip :=
  let near := die * 8 + port
  if c.alive && c.culTrain.contains near then
    let e := culPartner c.dies die port
    let q := c.culFar die port
    let far := e * 8 + q
    let c := { c with culTrain := c.culTrain.filter fun p => p != near && p != far }
    if ok then { c with culDown := c.culDown.filter fun p => p != near && p != far }
    else
      let c := c.raise Cls.culLinkDown die { block := 0x21, cause := port }
      c.raise Cls.culLinkDown e { block := 0x21, cause := q }
  else c

end Sys2Proof.Machine
end

