-- ==== Sys2Proof/Machine/Registers.lean ====
section
/-! DEFINITION. Access to register space (spec/21): masters, the order of checks of R531, the RWD rule of R533,
and the operations every register row shares. -/

namespace Sys2Proof.Machine

/-- The steward's PF can be addressed: boot has completed, its host endpoint block runs, its link is up. -/
def Chip.stwLinked (c : Chip) : Bool := c.alive && c.booted && c.on c.stwDie 12 && c.linkUp c.stwPort c.stwLink

/-- The steward's PF answers memory requests as Unsupported Requests: it is in D3hot, or Memory Space Enable is clear (R334). -/
def Chip.stwRefuses (c : Chip) : Bool := let f := c.fn (c.fnPci stewardFn); c.stwLinked && (f.d3 || !f.mse)

/-- A master can reach register space now (R527): the Tether, and with it the debug instructions, while the logic side has a clock
(R476); the steward once boot has completed, over its own link, unless its function answers no memory request. A tenant reaches
only its doorbell page. Log 17 (DESIGN CHOICE). -/
def Chip.masterOk (c : Chip) (m : Master) : Bool :=
  match m with
  | .tether => c.mgmtUp && c.tetherUp
  | .steward => c.stwLinked && c.tetherUp && !c.stwRefuses
  | .tenant => false

/-- The die a master's accesses come from. -/
def Chip.masterDie (c : Chip) (m : Master) : Nat :=
  match m with
  | .steward => c.stwDie
  | _ => 0

/-- What stands in the way of an access to die `d`, block `b` (R531 orders 1, 2 and 4). -/
inductive Path where
  | clear | absent | unreachable | gated
deriving DecidableEq, Repr

/-- The first of R531's orders 1, 2 and 4 that applies to an access of master `m` to block `b` of die `d`. After a trip (R475) the
other dies are cut off, and of die 0 the blocks outside its MGMT domain have no clock. Log 17 (DESIGN CHOICE). -/
def Chip.path (c : Chip) (m : Master) (d b : Nat) : Path :=
  let tripped := c.clk.stage == .tripped
  if b < 20 && !c.hasDie d then .absent
  else if b < 20 && (c.pwr.mainDown || !c.reach (c.masterDie m) d || (tripped && d != 0)) then .unreachable
  else if b < 20 && (!c.gateOpen d b || (tripped && decide (b < 17))) then .gated
  else .clear

/-- Counts an access completed under order 2 of R531. -/
def Chip.accessFail (c : Chip) (d : Nat) : Chip :=
  let v := c.rd 0 R.pkgAccessFail
  c.wr 0 R.pkgAccessFail (satAdd 24 (bitsN v 0 24) 1 + d % 8 * 2 ^ 24)

/-- The shared form of a register row: a write by master `m` to block `b` of die `d` runs `f` when nothing stands in the way, is
counted when the die is unreachable, is an Unsupported Request where the steward's function takes none (R334), and is ignored
otherwise (R531). Log 17 (DESIGN CHOICE). -/
def busAccess (m : Master) (d b : Nat) (f : Chip → Chip) (s : State) : State :=
  if m = .steward ∧ s.chip.stwRefuses then s.onChip fun c => c.unsupported (c.fnPci stewardFn) (bar4 d ⟨b, 0⟩)
  else if s.chip.masterOk m then
    match s.chip.path m d b with
    | .clear => s.onChip f
    | .unreachable => s.onChip fun c => c.accessFail d
    | .absent => s
    | .gated => s
  else s

/-- Flags a write to RWD bits of an enabled block (R533, R534). -/
def Chip.flagWwe (c : Chip) (d : Nat) (a : RegAddr) (value : Reg32) : Chip :=
  if a.blk < 20 then
    (c.wfld d ⟨a.blk, 0⟩ 1 1 1).raise Cls.writeWhileEnabled d { addr := a.off, block := a.blk, value := value.toNat }
  else
    (c.wfld 0 R.pkgCfgCrcStatus 5 1 1).raise Cls.writeWhileEnabled 0
      { addr := bar4 0 a - 0x20000000, block := 0x25, value := value.toNat }

/-- The RWD fields of a register may be written now: its block is disabled; for the indirection table, the Headgates
of every die are (R35); for the mode preset, the table, cipher-scheduling and engine blocks and the Spillway of every
die are (R64, R534); a field of a block without enable whose description names no block, always (R534). -/
def Chip.rwdOpen (c : Chip) (d : Nat) (a : RegAddr) : Bool :=
  if a.blk = 1 ∧ 0x200 ≤ a.off ∧ a.off < 0x280 then c.allDies.all fun e => c.blockDisabled e 1
  else if a = R.pkgTenantMode then
    c.allDies.all fun e => c.blockDisabled e 4 && c.blockDisabled e 9 && c.blockDisabled e 11 && !c.bit e R.bufCtrl 2
  else if a.blk < 17 then c.blockDisabled d a.blk
  else true

/-- The level at which a master writes: the Tether writes SEC fields at boot step 6 alone (R529). -/
def Chip.writeLevel (c : Chip) (m : Master) : Master := if m = .tether ∧ (c.booted ∨ c.boot.step ≠ 6) then .steward else m

/-- Applies a write to a stored register (R531 orders 3 and 5, R529, R533). -/
def Chip.writeStored (c : Chip) (m : Master) (d : Nat) (a : RegAddr) (value : Reg32) : Chip :=
  match findReg a.blk a.off with
  | none => c
  | some r =>
    let (v, viol) := applyWrite r (c.writeLevel m) (c.rwdOpen d a) (c.rdw d a) value
    let c := c.wr d a v.toNat
    if viol then c.flagWwe d a value else c

/-- Die and register of a BAR4 offset (R538–R540); none in reserved ranges. Log 9 (DESIGN CHOICE). -/
def decodeBar4 (off : Nat) : Option (Nat × RegAddr) :=
  if off < 0x20000000 then
    let r := off % 0x04000000
    if r / 0x00100000 < 20 then some (off / 0x04000000, ⟨r / 0x00100000, r % 0x00100000⟩) else none
  else if off < 0x20300000 then
    let p := off - 0x20000000
    some (0, ⟨32 + p / 0x00100000, p % 0x00100000⟩)
  else none

/-- Adds to an event counter of host endpoint (port): HEP_EVT_CNT_h_e. Log 16 (DEDUCED). -/
def Chip.hepEvt (c : Chip) (port e : Nat) : Chip := c.count (port / 4) (R.hepEvtCnt (port % 4) e)

/-- A malformed access is counted in BAD_ACCESS of the endpoint (R530, R384). Log 16 (DEDUCED). -/
def Chip.badAccess (c : Chip) (port : Nat) : Chip := c.hepEvt port 7

end Sys2Proof.Machine
end

