-- ==== Sys2Proof/Machine/Sm2.lean ====
section
/-! DEFINITION. SM2 (GB/T 32918): the curve, key pairs, the shared point, signatures (R259, R261, R452, R462). Points
are Jacobian triples (X, Y, Z) of numbers below the prime; Z = 0 is the point at infinity. -/

namespace Sys2Proof.Machine

/-- The prime of the field, the coefficient b (a is −3), the order of the group, the base point (GB/T 32918.5). -/
def sm2Prime : Nat := 0xFFFFFFFEFFFFFFFFFFFFFFFFFFFFFFFFFFFFFFFF00000000FFFFFFFFFFFFFFFF
def sm2B : Nat := 0x28E9FA9E9D9F5E344D5A9E4BCF6509A7F39789F515AB8F92DDBCBD414D940E93
def sm2Order : Nat := 0xFFFFFFFEFFFFFFFFFFFFFFFFFFFFFFFF7203DF6B21C6052B53BBF40939D54123
def sm2Gx : Nat := 0x32C4AE2C1F1981195F9904466A39C9948FE30BBFF2660BE1715A4589334C74C7
def sm2Gy : Nat := 0xBC3736A2F4F6779C59BDCEE36B692153D0A9877CC62A474002DF32E52139F0A0

/-- Field operations. -/
def fMul (a b : Nat) : Nat := a * b % sm2Prime
def fSub (a b : Nat) : Nat := (a + sm2Prime - b % sm2Prime) % sm2Prime

/-- A power modulo `m`, over the low `n` bits of the exponent, most significant first. -/
def powMod (m b e : Nat) : Nat → Nat → Nat
  | 0, acc => acc
  | n + 1, acc => powMod m b e n (if bitN e n then acc * acc % m * b % m else acc * acc % m)

/-- The inverse modulo a prime below 2²⁵⁶. -/
def invMod (m a : Nat) : Nat := powMod m (a % m) (m - 2) 256 1

/-- The double of a point. -/
def pointDouble : Nat × Nat × Nat → Nat × Nat × Nat
  | (x, y, z) =>
    let delta := fMul z z
    let gamma := fMul y y
    let beta := fMul x gamma
    let alpha := 3 * fMul (fSub x delta) ((x + delta) % sm2Prime) % sm2Prime
    let x3 := fSub (fMul alpha alpha) (8 * beta)
    (x3, fSub (fMul alpha (fSub (4 * beta % sm2Prime) x3)) (8 * fMul gamma gamma), fSub (fSub (fMul ((y + z) % sm2Prime) (y + z)) gamma) delta)

/-- The sum of two points. -/
def pointAdd : Nat × Nat × Nat → Nat × Nat × Nat → Nat × Nat × Nat
  | (x1, y1, z1), (x2, y2, z2) =>
    if z1 = 0 then (x2, y2, z2)
    else if z2 = 0 then (x1, y1, z1)
    else
      let zz1 := fMul z1 z1
      let zz2 := fMul z2 z2
      let u1 := fMul x1 zz2
      let s1 := fMul (fMul y1 z2) zz2
      let h := fSub (fMul x2 zz1) u1
      let r := fSub (fMul (fMul y2 z1) zz1) s1
      if h = 0 then (if r = 0 then pointDouble (x1, y1, z1) else (1, 1, 0))
      else
        let hh := fMul h h
        let hhh := fMul h hh
        let v := fMul u1 hh
        let x3 := fSub (fSub (fMul r r) hhh) (2 * v)
        (x3, fSub (fMul r (fSub v x3)) (fMul s1 hhh), fMul (fMul z1 z2) h)

/-- The multiple of a point by the low `n` bits of `k`, most significant first. -/
def pointMul (k : Nat) (p : Nat × Nat × Nat) : Nat → Nat × Nat × Nat → Nat × Nat × Nat
  | 0, acc => acc
  | n + 1, acc => pointMul k p n (if bitN k n then pointAdd (pointDouble acc) p else pointDouble acc)

/-- A 256-bit multiple of a point, as coordinates (0, 0 for the point at infinity). -/
def pointTimes (k x y : Nat) : Nat × Nat × Nat := pointMul k (x, y, 1) 256 (1, 1, 0)

/-- The coordinates of a point. -/
def pointXY : Nat × Nat × Nat → Nat × Nat
  | (x, y, z) =>
    let i := invMod sm2Prime z
    (fMul x (fMul i i), fMul y (fMul i (fMul i i)))

/-- The 64 bytes of a point: X, then Y. -/
def pointBytes (p : Nat × Nat × Nat) : Bytes := toBE 32 (pointXY p).1 ++ toBE 32 (pointXY p).2

/-- The SM2 public key of a private scalar. Log 6 (PRESUMED). -/
def sm2Public (d : Nat) : Bytes := pointBytes (pointTimes d sm2Gx sm2Gy)

/-- Whether 64 bytes are a point of the curve. -/
def sm2OnCurve (b : Bytes) : Bool :=
  let x := beAt b 0 32
  let y := beAt b 32 32
  decide (x < sm2Prime) && decide (y < sm2Prime) &&
    decide (y * y % sm2Prime = (x * x % sm2Prime * x + (sm2Prime - 3) * x + sm2B) % sm2Prime)

/-- The shared point of a private scalar and a public point. Log 6 (PRESUMED). -/
def sm2Shared (d : Nat) (point : Bytes) : Bytes := pointBytes (pointTimes d (beAt point 0 32) (beAt point 32 32))

/-- The value e that a signature is over: the digest of the signer's identity value Z and the message (GB/T 32918.2). -/
def sm2E (id key message : Bytes) : Nat :=
  let z := sm3 (toBE 2 (8 * id.length) ++ id ++ toBE 32 (sm2Prime - 3) ++ toBE 32 sm2B ++ toBE 32 sm2Gx ++ toBE 32 sm2Gy ++ slice key 0 64)
  sm3 (toBE 32 z ++ message)

/-- Verification of a signature (r, s) over a message under a public key and a distinguishing identifier. Log 6 (PRESUMED). -/
def sm2VerifyWith (id key signature message : Bytes) : Bool :=
  let r := beAt signature 0 32
  let s := beAt signature 32 32
  let t := (r + s) % sm2Order
  let p := pointAdd (pointTimes s sm2Gx sm2Gy) (pointTimes t (beAt key 0 32) (beAt key 32 32))
  sm2OnCurve key && decide (0 < r) && decide (r < sm2Order) && decide (0 < s) && decide (s < sm2Order) && t != 0 &&
    decide ((sm2E id key message + (pointXY p).1) % sm2Order = r)

/-- The distinguishing identifier of image and patch signatures: the ASCII bytes "SHUWICK-LRX" (R452). -/
def imageSigner : Bytes := [0x53, 0x48, 0x55, 0x57, 0x49, 0x43, 0x4B, 0x2D, 0x4C, 0x52, 0x58]

/-- Verification of an image or patch signature over an SM3 digest (R452, R306). Log 6 (PRESUMED). -/
def sm2Verify (key signature : Bytes) (digest : Nat) : Bool := sm2VerifyWith imageSigner key signature (toBE 32 digest)

/-- A signature by a private scalar over a message with the random number `k`. Log 6 (PRESUMED). -/
def sm2SignWith (id : Bytes) (d : Nat) (message : Bytes) (k : Nat) : Bytes :=
  let r := (sm2E id (sm2Public d) message + (pointXY (pointTimes k sm2Gx sm2Gy)).1) % sm2Order
  let s := invMod sm2Order (1 + d) * ((k + sm2Order - r * d % sm2Order) % sm2Order) % sm2Order
  toBE 32 r ++ toBE 32 s

/-- A signature by the device identity key (R260, R464). The distinguishing identifier, which the spec does not give, and the
random number of the signature are free values. Log 6 (PRESUMED). -/
def sm2Sign (d : Nat) (message : Bytes) : Bytes :=
  sm2SignWith Config.identityId d message (Config.signNonce d message % (sm2Order - 1) + 1)

end Sys2Proof.Machine
end

