-- ==== Sys2Proof/Machine/CipherOps.lean ====
section
/-! DEFINITION. Key slots and associations in use: sequence numbers, replay windows (R264–R269), and MACsec at the
ports (R255, R256). -/

namespace Sys2Proof.Machine

/-- Key kind that a suite needs (R252, R261, R267). -/
def suiteKind (suite : Nat) : Nat := if suite = 4 then 4 else if 5 ≤ suite then suite - 4 else suite

/-- Bytes of key material of a kind (R261). -/
def kindBytes (kind : Nat) : Nat :=
  match kind with
  | 1 => 16
  | 2 => 32
  | 3 => 16
  | 4 => 32
  | 5 => 32
  | 6 => 64
  | 7 => 32
  | _ => 0

/-- The key of a local slot of a die, if it holds one of a kind (R264). -/
def Chip.slotKey (c : Chip) (d slot kind : Nat) : Option KeySlot :=
  match tget none c.cp.keySlots (d * 65536 + slot) with
  | some k => if k.kind = kind then some k else none
  | none => none

def KeySlot.key (k : KeySlot) : Bytes := k.material.take (kindBytes k.kind)

/-- Sealing, with the lengths that the modes fix (R252, R258): ciphertext as long as the plaintext, a 16-byte tag. -/
def sealed (suite : Nat) (key nonce aad plain : Bytes) : Bytes × Bytes :=
  let r := aeadSeal suite key nonce aad plain
  (slice r.1 0 plain.length, slice r.2 0 16)

/-- Opening: plaintext as long as the ciphertext, and whether the tag verifies. -/
def opened (suite : Nat) (key nonce aad cipher tag : Bytes) : Bytes × Bool :=
  let r := aeadOpen suite key nonce aad cipher tag
  (slice r.1 0 cipher.length, r.2)

/-- A bare mode: output as long as the input. -/
def bare (mode kind : Nat) (decrypt : Bool) (key iv data : Bytes) : Bytes :=
  slice (cipherBare mode kind decrypt key iv data) 0 data.length

/-- An association that is valid, by package number. -/
def Chip.assoc (c : Chip) (a : Nat) : Option Assoc :=
  match tget none c.cp.assocs a with
  | some x => if bitN x.flags 0 then some x else none
  | none => none

def Chip.setAssoc (c : Chip) (a : Nat) (x : Option Assoc) : Chip := c.setCp fun s => { s with assocs := tput none s.assocs a x }

/-- Adds to a key slot's AUTH_FAIL or REPLAY counter (R272). -/
def Chip.slotCount (c : Chip) (d slot : Nat) (replay : Bool) : Chip :=
  c.setCp fun s => { s with keyCtr := tmod (0, 0) s.keyCtr (d * 65536 + slot) fun v =>
    if replay then (v.1, satAdd 32 v.2 1) else (satAdd 32 v.1 1, v.2) }

/-- The highest sequence number of an association (R268). -/
def Assoc.limit (x : Assoc) : Nat := if bitN x.flags 2 then 2 ^ 64 - 1 else 2 ^ 32 - 1

/-- Reports the soft limit of an association once (R267). -/
def Chip.softCheck (c : Chip) (a : Nat) (x : Assoc) : Chip :=
  if x.softLimit ≠ 0 ∧ x.softLimit ≤ x.nextSeq ∧ !x.softDone then
    (c.setAssoc a (some { x with softDone := true })).raise Cls.cipSeqSoft (a / 65536) { block := 9, unit := a % 65536 }
  else c

/-- Takes an outbound sequence number (R268); none when the association is exhausted, which is raised once. The limit itself is
still a number that is used. Log 62 (DESIGN CHOICE). -/
def Chip.takeSeq (c : Chip) (a : Nat) (x : Assoc) : Option Nat × Chip :=
  if x.limit < x.nextSeq then
    if x.exhausted then (none, c)
    else
      let c := (c.setAssoc a (some { x with exhausted := true })).count (a / 65536) (R.cipEvtCnt 3)
      (none, c.raise Cls.cipSeqExhausted (a / 65536) { block := 9, unit := a % 65536 })
  else
    let x' := { x with nextSeq := x.nextSeq + 1 }
    (some x.nextSeq, (c.setAssoc a (some x')).softCheck a x')

/-- The window of an inbound association; 0 where replay checking is off. -/
def Assoc.window (x : Assoc) : Nat := if x.windowLog2 = 0 then 0 else 2 ^ x.windowLog2

/-- An inbound number is refused (R269). -/
def Assoc.replayed (x : Assoc) (n : Nat) : Bool :=
  x.windowLog2 != 0 && (decide (n + x.window < x.nextSeq) || x.seen.contains n || x.pending.contains n)

/-- An inbound number is held as pending. -/
def Assoc.pend (x : Assoc) (n : Nat) : Assoc := if x.windowLog2 = 0 then x else { x with pending := x.pending ++ [n] }

/-- The tag of an inbound number has verified, or failed. -/
def Assoc.settle (x : Assoc) (n : Nat) (ok : Bool) : Assoc :=
  let x := { x with pending := x.pending.erase n }
  if !ok then x
  else
    let hi := max x.nextSeq n
    { x with nextSeq := hi, seen := if x.windowLog2 = 0 then [] else (x.seen ++ [n]).filter fun m => decide (hi ≤ m + x.window) }

/-- The full inbound number of 32 received bits: for ESN as RFC 4303 Appendix A infers it from the window's top, for XPN
by the PN recovery of IEEE 802.1AE from the lowest number the window still takes (R269). -/
def Assoc.recover (x : Assoc) (low : Nat) : Nat :=
  if !bitN x.flags 2 then low
  else if x.framing = 3 then
    let lowest := x.nextSeq - x.window
    (lowest / 2 ^ 32 + b2n (decide (2 ^ 31 ≤ lowest % 2 ^ 32) && decide (low < 2 ^ 31))) * 2 ^ 32 + low
  else
      let th := x.nextSeq / 2 ^ 32
      let tl := x.nextSeq % 2 ^ 32
      let w := max 1 x.window
      if w ≤ tl + 1 then (if tl + 1 - w ≤ low then th else th + 1) * 2 ^ 32 + low
      else (if tl + 1 + 2 ^ 32 - w ≤ low then th - 1 else th) * 2 ^ 32 + low

/-- Stores an inbound association whose highest accepted number may have moved, and reports its soft limit once (R267). -/
def Chip.settled (c : Chip) (a : Nat) (x : Assoc) : Chip := (c.setAssoc a (some x)).softCheck a x

/-- The read of key slot `n` (R266, R502): an uncorrectable one is reported and empties the slot. -/
def Chip.slotRead (c : Chip) (n : Nat) (found : ScrubOutcome) : Chip :=
  let d := n / 65536
  let c := match found with
    | .uncorrectable => (c.setCp fun s => { s with keySlots := tput none s.keySlots n none }).count d (R.cipEvtCnt 2)
    | _ => c
  c.readCheck d false found { block := 9, unit := n % 65536 }

/-! ### MACsec (R255, R256, IEEE 802.1AE) -/

/-- MACsec fields of a port's register. -/
def Chip.macsecReg (c : Chip) (lane : Nat) : Nat := c.rd (lane / 64) (R.cipMacsecPort (lane % 64))

/-- The nonce of a MACsec frame: SCI and PN, or the salt with SSCI and PN exclusive-ORed in for XPN. Log 60 (PRESUMED). -/
def macsecNonce (x : Assoc) (k : KeySlot) (sci pn : Nat) : Bytes :=
  if bitN x.flags 2 then toBE 12 (beNat k.iv ^^^ (x.spi * 2 ^ 64 + pn)) else toBE 8 sci ++ toBE 4 pn

/-- The association of a port that `q` picks, with its package number. Log 62 (DESIGN CHOICE). -/
def Chip.portAssoc (c : Chip) (lane : Nat) (q : Assoc → Bool) : Option (Nat × Assoc) :=
  c.cp.assocs.findSome? fun e =>
    match e.2 with
    | some x => if e.1 / 65536 == lane / 64 && bitN x.flags 0 && x.framing == 3 && x.port == lane && q x then some (e.1, x) else none
    | none => none

/-- EtherType of a frame. -/
def etherType (b : Bytes) : Nat := beAt b 12 2

/-- An untagged frame of a port: counted under Check, marked as failed under Strict (R255). -/
def Chip.macsecPlain (c : Chip) (lane : Nat) (b : Bytes) (validate : Nat) : Except Nat (Bytes × Bool) × Chip :=
  (.ok (b, validate == 2),
   if validate = 1 then c.setCp fun s => { s with untagged := tmod 0 s.untagged lane fun n => satAdd 32 n 1 } else c)

/-- MACsec on a received frame: the frame as the Headgate sees it and whether it is marked as failed, or a drop. A short
length in the SecTAG ends the secure data before the padding. `slotErr`: what the read of its key slot finds (R266).
Logs 42 (DESIGN CHOICE), 60 (PRESUMED). -/
def Chip.macsecRx (c : Chip) (lane : Nat) (b : Bytes) (slotErr : ScrubOutcome) : Except Nat (Bytes × Bool) × Chip :=
  let d := lane / 64
  let r := c.macsecReg lane
  let validate := bitsN r 4 2
  if !bitN r 1 then (.ok (b, false), c)
  else if !c.en d 10 then (.error Dr.blockDisabled, c)
  else if etherType b = 0x888E ∨ etherType b = 0x8808 ∨ validate = 0 then (.ok (b, false), c)
  else if etherType b ≠ 0x88E5 then c.macsecPlain lane b validate
  else
    let tci := byteAt b 14
    let hasSci := bitN tci 5
    let head := if hasSci then 28 else 20
    match c.portAssoc lane fun x => !bitN x.flags 1 && x.an == tci % 4 with
    | none => (.error Dr.keySlotEmpty, c)
    | some (a, x) =>
      let c := c.slotRead (d * 65536 + x.slot) slotErr
      match c.slotKey d x.slot (suiteKind x.suite) with
      | none => (.error Dr.keySlotEmpty, c)
      | some k =>
        let pn := x.recover (beAt b 16 4)
        if x.replayed pn then (.error Dr.replay, c.slotCount d x.slot true)
        else
          let sci := if hasSci then beAt b 20 8 else x.sci
          let sl := byteAt b 15 % 64
          let body := (b.drop head).take (if sl = 0 then b.length - head - 16 else sl)
          let tag := slice b (head + body.length) 16
          let secret := bitN tci 3
          let aad := if secret then b.take head else b.take head ++ body
          let (plain, ok) := opened x.suite k.key (macsecNonce x k sci pn) aad (if secret then body else []) tag
          let c := c.settled a (x.settle pn ok)
          let c := if ok then c else c.slotCount d x.slot false
          (.ok (b.take 12 ++ (if secret then plain else body), !ok), c)

/-- MACsec on a frame to be sent on a port: the frame secured, or a drop. Log 60 (PRESUMED). -/
def Chip.macsecTx (c : Chip) (lane : Nat) (cipher : Option Nat) (b : Bytes) (slotErr : ScrubOutcome) : Except Nat Bytes × Chip :=
  let d := lane / 64
  let r := c.macsecReg lane
  let named := match cipher with
    | some a => match c.assoc a with
      | some x => if a / 65536 = d ∧ x.framing = 3 ∧ x.port = lane ∧ bitN x.flags 1 then some (a, x) else none
      | none => none
    | none => none
  if !bitN r 0 && cipher.isNone then (.ok b, c)
  else if !c.en d 10 then (.error Dr.blockDisabled, c)
  else if etherType b = 0x888E ∨ etherType b = 0x8808 then (.ok b, c)
  else
    match (if cipher.isSome then named else c.portAssoc lane fun x => bitN x.flags 1 && bitN x.flags 4) with
    | none => (.error Dr.keySlotEmpty, c)
    | some (a, x) =>
      let c := c.slotRead (d * 65536 + x.slot) slotErr
      match c.slotKey d x.slot (suiteKind x.suite) with
      | none => (.error Dr.keySlotEmpty, c)
      | some k =>
        match c.takeSeq a x with
        | (none, c) => (.error Dr.keySlotEmpty, c)
        | (some pn, c) =>
          let withSci := bitN r 6
          let data := b.drop 12
          let sl := if data.length < 48 then data.length else 0
          let tag := toBE 2 0x88E5 ++ toBE 1 ((if withSci then 32 else 0) + 12 + x.an) ++ toBE 1 sl ++ toBE 4 pn ++ (if withSci then toBE 8 x.sci else [])
          let aad := b.take 12 ++ tag
          let (ct, icv) := sealed x.suite k.key (macsecNonce x k x.sci pn) aad data
          (.ok (aad ++ ct ++ icv), c)

end Sys2Proof.Machine
end

