-- ==== Sys2Proof/Machine/Crc.lean ====
section
/-! DEFINITION. The cyclic redundancy checks the spec names: CRC-32 of IEEE 802.3 and CRC-32C (reflected, initial
value and final XOR all ones), and the CRC-64 of ECMA-182 of the configuration check (R543). -/

namespace Sys2Proof.Machine

/-- `n` shifts of a reflected 32-bit CRC with polynomial `p`. -/
def crcShift (p : BitVec 32) : Nat → BitVec 32 → BitVec 32
  | 0, v => v
  | n + 1, v => crcShift p n (if v.getLsbD 0 then (v >>> 1) ^^^ p else v >>> 1)

/-- A reflected CRC register after a byte. -/
def crcByte (p : BitVec 32) (v : BitVec 32) (b : Byte) : BitVec 32 := crcShift p 8 (v ^^^ b.setWidth 32)

/-- CRC-32C (Castagnoli) of a byte string. -/
def crc32c (b : Bytes) : BitVec 32 := (b.foldl (crcByte 0x82F63B78#32) 0xFFFFFFFF#32) ^^^ 0xFFFFFFFF#32

/-- CRC-32 of IEEE 802.3 of a byte string. -/
def crc32 (b : Bytes) : BitVec 32 := (b.foldl (crcByte 0xEDB88320#32) 0xFFFFFFFF#32) ^^^ 0xFFFFFFFF#32

/-- CRC-32C continued from a register value `seed`, without the final XOR's effect on it: the CRC over a string whose
register starts at `seed`. -/
def crc32cFrom (seed : BitVec 32) (b : Bytes) : BitVec 32 := b.foldl (crcByte 0x82F63B78#32) seed

/-- `n` shifts of the CRC-64 of R543: polynomial 0x42F0_E1EB_A9EA_3693, most significant bit first. -/
def crc64Shift : Nat → BitVec 64 → BitVec 64
  | 0, v => v
  | n + 1, v => crc64Shift n (if v.getLsbD 63 then (v <<< 1) ^^^ 0x42F0E1EBA9EA3693#64 else v <<< 1)

/-- The CRC-64 register after a byte. -/
def crc64Byte (v : BitVec 64) (b : Byte) : BitVec 64 := crc64Shift 8 (v ^^^ (b.setWidth 64 <<< 56))

/-- The check value of a byte string (R543): initial value 0, no reflection, no final XOR. -/
def crc64 (b : Bytes) : BitVec 64 := b.foldl crc64Byte 0#64

end Sys2Proof.Machine
end

