-- ==== Sys2Proof/Machine/Channels.lean ====
section
/-! DEFINITION. Translation for an instance (R353–R357), completion records, their queue and stash (R404–R413), the
channel's halts (R386), its doorbell commands, entry fetch and start (spec/13, spec/14, R440). -/

namespace Sys2Proof.Machine

/-! ### Status codes (R408, R433, R526) -/

def St.ok := 0x00
def St.masterDisabled := 0x01
def St.instanceReset := 0x02
def St.translationFault := 0x03
def St.readRejected := 0x04
def St.hostPoison := 0x05
def St.readTimeout := 0x06
def St.aborted := 0x07
def St.authFail := 0x08
def St.padInvalid := 0x09
def St.keySlotEmpty := 0x0A
def St.lengthInvalid := 0x0B
def St.modeInvalid := 0x0C
def St.segInvalid := 0x0D
def St.badRecord := 0x0E
def St.engineFault := 0x0F
def St.entrySize := 0x10
def St.typeUnsupported := 0x11
def St.notPermitted := 0x12
def St.badAction := 0x13
def St.indexRange := 0x14
def St.noInstance := 0x15
def St.instanceBusy := 0x16
def St.instanceState := 0x17
def St.wrongDie := 0x18
def St.commitRejected := 0x20
def St.commitAlreadyOpen := 0x21
def St.noCommitOpen := 0x22
def St.indexBusy := 0x23
def St.keyExists := 0x24
def St.notFound := 0x25
def St.tableFull := 0x26
def St.insertFailed := 0x27
def St.badReference := 0x28
def St.classActionConflict := 0x29
def St.commitTooLarge := 0x2A
def St.countMismatch := 0x2B
def St.dieUnreachable := 0x2C
def St.qosInvalid := 0x2D
def St.badMember := 0x2E
def St.unwrapFail := 0x30
def St.keyInvalid := 0x31
def St.keySlotDenied := 0x32
def St.instanceExists := 0x38
def St.vfAbsent := 0x39
def St.ringInvalid := 0x3A
def St.versionUnsupported := 0x3B
def St.keyRange := 0x3C
def St.quota := 0x3D
def St.mapMisaligned := 0x3E
def St.mapOverlap := 0x3F
def St.mapNoRoom := 0x40
def St.trackFull := 0x41
def St.notTracking := 0x42
def St.saveTooSmall := 0x43
def St.saveAborted := 0x44
def St.restoreVersion := 0x45
def St.restoreMismatch := 0x46
def St.barrierNotSet := 0x60
def St.barrierEpochMismatch := 0x61
def St.barrierGroupMismatch := 0x62
def St.barrierCountMismatch := 0x63
def St.barrierTimeout := 0x64
def St.barrierCancelled := 0x65
def St.spanDisabled := 0x66
def St.dataPoisoned := 0x70

/-! ### Halt codes (R386) -/

def Halt.running := 0x00
def Halt.notStarted := 0x01
def Halt.malformed := 0x02
def Halt.lap := 0x03
def Halt.masterDisabled := 0x04
def Halt.fetchFault := 0x05
def Halt.fetchError := 0x06
def Halt.recordFault := 0x07
def Halt.reset := 0x08
def Halt.setupInvalid := 0x09

/-! ### The commit's end by a halt (R121) -/

/-- The COMMIT_CLOSE of the commit that is open among the cached entries of a ring whose first stands at index `i`, as an entry
to run: none where a COMMIT_ABORT or a COMMIT_OPEN stands before it. -/
def closeOf (seq : Nat) : Nat → List Bytes → Option Started
  | _, [] => none
  | i, b :: bs =>
    if byteAt b 1 = 0x41 then some ⟨i, seq, b, false, none, [], none⟩
    else if byteAt b 1 = 0x40 ∨ byteAt b 1 = 0x42 then none
    else closeOf seq (wrapAdd 32 i (bitsN (byteAt b 0) 0 6)) bs

/-- What the halt of the steward's ring, whose cache held `cache` from index `i`, does to an open commit (R121): once its
COMMIT_CLOSE has been fetched it runs to its end; before, the undo starts, no completion is written for it, and
COMMIT_ABORTED is reported. Log 67 (DEDUCED). -/
def Chip.abortCommit (c : Chip) (i : Nat) (cache : List Bytes) : Chip :=
  let h := c.chan stewardFn
  if c.commit.phase != .opened || h.started.any (fun e => byteAt e.bytes 1 == 0x41 && e.recs.isNone) then c
  else match closeOf h.serial i cache with
    | some e => c.setChan stewardFn { h with started := h.started ++ [e], serial := h.serial + 1 }
    | .none => ({ c with commit := { c.commit with phase := .undoing, ends := none } }).raise Cls.commitAborted c.stwDie
      { block := 3, unit := 0x1000 }

/-- A channel without the cached copies beyond `keep`, and without the fetch in progress, whose answers are then ignored. -/
def Chan.discard (h : Chan) (keep : List Bytes) : Chan :=
  { h with cache := keep, fetch := ⟨h.fetch.gen + 1, [], 0, 0⟩, waits := if keep.isEmpty then Option.none else h.waits }

/-- The unit field that names a function in an error record (R516). -/
def fnUnit (f : Nat) : Nat := if f = stewardFn then 0x1000 else f

/-- Halts rings of function `f` with a code (R386). A ring already halted keeps its code; a cause that halts at least
one running ring is counted once, reported where the code is, and signals vector 0 once. `ring` (0 downstream, 1
completion) and `index` are what the report names: in its address field, as the offset of the index register that the driver
writes in the function's doorbell page, and in its value field. A halt of the steward's
downstream ring aborts an open commit (R121). Logs 19 (DESIGN CHOICE), 69 (DESIGN CHOICE). -/
def Chip.haltRings (c : Chip) (f code : Nat) (ds cq : Bool) (ring index : Nat) : Chip :=
  let h := c.chan f
  let ds := ds && h.dsHalt == 0
  let cq := cq && h.cqHalt == 0
  if !ds && !cq then c
  else
    let d := c.fnDie f
    let old := h
    let h := { (if ds then h.discard [] else h) with
      dsHalt := if ds then code else h.dsHalt, cqHalt := if cq then code else h.cqHalt, shadowDirty := true }
    let c := (c.setChan f h).count d (R.chnHaltCnt code)
    let c := if [0x02, 0x03, 0x05, 0x06, 0x07].contains code then
        c.raise Cls.chnHalt d { block := 14, unit := fnUnit f, cause := code, addr := 12 * ring, value := index }
      else c
    let c := if ds && f == stewardFn then c.abortCommit old.dsC old.cache else c
    if code = Halt.notStarted ∨ code = Halt.reset then c else c.signal f 0

/-! ### Translation (R353–R357) -/

/-- Bytes of a page by its size code (R354). -/
def pageBytes (size : Nat) : Nat := if size = 0 then 2 ^ 12 else if size = 1 then 2 ^ 21 else 2 ^ 30

/-- The leaf that maps an address of an instance, with the first address of its page. -/
def Inst.leafAt (x : Inst) (iova : Nat) : Option (Nat × Leaf) :=
  [0, 1, 2].findSome? fun sz =>
    let a := iova / pageBytes sz * pageBytes sz
    match x.leaves.find? fun e => e.1 == a && e.2.size == sz with
    | some e => some e
    | .none => .none

/-- Marks the page of a write in the instance's dirty tracking (R361, R362). -/
def Inst.mark (x : Inst) (iova : Nat) : Inst :=
  match x.tracking with
  | .none => x
  | some t =>
    if t.first ≤ iova ∧ iova < t.first + t.gib * 2 ^ 30 then
      let j := (iova - t.first) / 4096
      if t.marks.contains j then x else { x with tracking := some { t with marks := t.marks ++ [j] } }
    else { x with tracking := some { t with outOfRange := true } }

/-- Looks a page up in the die's translation cache of 65,536 entries (R356): a hit, or a miss that a mapping fills; the
entry that a full cache replaces is a free choice. Log 70 (DESIGN CHOICE). -/
def Chip.cacheXlate (c : Chip) (d i page size : Nat) (mapped : Bool) : Chip :=
  let x := c.dma d
  let e : XlEntry := ⟨i, page, size⟩
  if x.xlate.contains e then c.count d R.insXltHits
  else
    let c := c.count d R.insXltMisses
    if !mapped then c
    else if x.xlate.length < 65536 then c.setDma d { x with xlate := x.xlate ++ [e] }
    else
      let v := c.drawn 65536
      c.draw.setDma d { x with xlate := (x.xlate.eraseIdx v) ++ [e] }

/-- Translates one burst of function `f` (R356, R358): the bus address, or none with INS_TRANSLATION_FAULT counted and
reported (R357). The steward's addresses are bus addresses. -/
def Chip.translate (c : Chip) (f iova : Nat) (write : Bool) : Option Nat × Chip :=
  if f = stewardFn then (some iova, c)
  else
    let d := f / 512
    let x := c.inst f
    let leaf := x.leafAt (iova % 2 ^ 48)
    let c := match leaf with
      | some (p, l) => c.cacheXlate d f p l.size true
      | none => c.cacheXlate d f (iova % 2 ^ 48 / 4096 * 4096) 0 false
    let good := match leaf with
      | some (p, l) => if (if write then l.write else l.read) && decide (iova < 2 ^ 48) then some (l.bus + (iova - p)) else none
      | none => none
    match good with
    | some a => (some a, if write then c.setInst f ((c.inst f).mark iova) else c)
    | none =>
      let c := c.count d (R.insXltFault (f % 512))
      (none, c.raise Cls.insTranslationFault d
        { block := 13, unit := f, addr := iova % 2 ^ 48, value := iova % 2 ^ 32, cause := b2n write })

/-- Pieces of [a, a + n) that do not cross a 4 KiB boundary (R392), by fuel. -/
def pieces : Nat → Nat → Nat → List (Nat × Nat)
  | 0, _, _ => []
  | _, _, 0 => []
  | fuel + 1, a, n =>
    let k := min n (4096 - a % 4096)
    (a, k) :: pieces fuel (a + k) (n - k)

/-- Writes bytes to host memory for a function, burst by burst; stops at the first translation fault and answers the
bytes written and whether all were (R357, R398). -/
def Chip.hostWrites (f : Nat) (relaxed poisoned : Bool) : List (Nat × Nat) → Bytes → Nat → Chip → Nat × Bool × Chip
  | [], _, n, c => (n, true, c)
  | (a, k) :: ps, data, n, c =>
    match c.translate f a true with
    | (some bus, c) =>
      Chip.hostWrites f relaxed poisoned ps (data.drop k) (n + k) (c.emitWrite f bus (data.take k) relaxed poisoned)
    | (none, c) => (n, false, c)

/-- Writes `data` at `addr` for function `f`. -/
def Chip.hostWrite (c : Chip) (f addr : Nat) (data : Bytes) (relaxed poisoned : Bool := false) : Nat × Bool × Chip :=
  Chip.hostWrites f relaxed poisoned (pieces (data.length / 4096 + 2) addr data.length) data 0 c

/-! ### Completion records (R404–R407) -/

/-- A completion record. -/
def mkRec (kind status flags etype cookie index done residue : Nat) (detail : Bytes := []) : Bytes :=
  toLE 1 kind ++ toLE 1 status ++ toLE 1 flags ++ toLE 1 etype ++ toLE 4 cookie ++ toLE 4 index ++ toLE 4 done
    ++ toLE 4 residue ++ slice detail 0 12

/-- Where an entry type keeps its cookie or tag (R275, R380–R383, R108, R181, R345 and their like): offset and width.
Log 69 (DESIGN CHOICE). -/
def cookieAt (typ : Nat) : Nat × Nat :=
  if [0x01, 0x02, 0x03, 0x04, 0x40, 0x61].contains typ then (8, 4)
  else if [0x05, 0x06, 0x07, 0x09, 0x45, 0x48, 0x56].contains typ then (12, 4)
  else if [0x50, 0x68].contains typ then (20, 4)
  else if typ = 0x6A then (22, 2)
  else (0, 0)

/-- Cookie of an entry. -/
def entryCookie (b : Bytes) : Nat :=
  let (o, n) := cookieAt (byteAt b 1)
  leAt b o n

/-- The ENTRY record of an entry (R404). Log 69 (DESIGN CHOICE). -/
def entryRec (b : Bytes) (index status : Nat) (done residue : Nat := 0) (detail : Bytes := []) (signal : Bool := false)
    (cookie : Nat := entryCookie b) : Bytes :=
  mkRec 0x01 status (b2n (signal || bitN (byteAt b 2) 1)) (byteAt b 1) cookie index done residue detail

/-- A record's signal flag. -/
def recSignal (r : Bytes) : Bool := bitN (byteAt r 2) 0

/-- Sends the function's completion message (R413). -/
def Chip.modSend (c : Chip) (f : Nat) : Chip :=
  let h := c.chan f
  let h := { h with pending := false, sigCount := 0, armed := h.armed && bitN h.modCfg 28 }
  (c.setChan f h).signal f (bitsN h.modCfg 16 11)

/-- The message goes if it is pending, armed and a threshold is met; a threshold of 0 is met at once (R413). -/
def Chip.modCheck (c : Chip) (f : Nat) : Chip :=
  let h := c.chan f
  if h.pending && h.armed && (decide (bitsN h.modCfg 0 16 ≤ h.sigCount) || h.modTime == 0) then c.modSend f else c

/-- A signalled record has been written: it is pending and counts (R413). -/
def Chip.modRecord (c : Chip) (f : Nat) : Chip :=
  let h := c.chan f
  (c.setChan f { h with pending := true, pendSince := if h.pending then h.pendSince else c.steady, sigCount := h.sigCount + 1 }).modCheck f

/-- Counts a record and does not write it (R357, R360). -/
def Chip.countRecord (c : Chip) (f : Nat) : Chip := c.count (c.fnDie f) (R.insEvtCnt 1)

/-- Writes one record into the completion queue (R396, R412): a fault of its translation counts it and halts both
channels (R357). Log 13 (DESIGN CHOICE). -/
def Chip.writeRec (c : Chip) (f : Nat) (r : Bytes) : Chip :=
  let h := c.chan f
  match c.translate f (h.cqBase + 32 * (h.cqP % 2 ^ h.cqK)) true with
  | (none, c) => (c.countRecord f).haltRings f Halt.recordFault true true 1 h.cqP
  | (some a, c) =>
    let c := c.emit (.hostWrite f a r false false)
    let h := c.chan f
    let c := c.setChan f { h with cqP := wrapAdd 32 h.cqP 1, shadowDirty := true }
    let c := c.count (c.fnDie f) (R.dmaEvtCnt 0)
    if recSignal r then c.modRecord f else c

/-- The queue takes a record now: running, a slot is free (R368), the function may master the bus, the DMA block runs. -/
def Chip.cqOpen (c : Chip) (f : Nat) : Bool :=
  let h := c.chan f
  h.cqHalt == 0 && decide (diff32 h.cqP h.cqC < 2 ^ h.cqK) && c.fnMasters f && c.on (c.fnDie f) 15

/-- A record is ready (R396, R409, R410): counted and not written while the instance is Resetting; in the full state it waits
with its unit; written when the stash is empty and the queue takes it; else it goes behind the stash, and the 64th record there
begins the full state. Log 69 (DESIGN CHOICE). -/
def Chip.placeRec (c : Chip) (f : Nat) (r : Bytes) : Chip :=
  let h := c.chan f
  if f != stewardFn && (c.inst f).st == .resetting then
    let x := c.inst f
    (c.countRecord f).setInst f { x with unwritten := x.unwritten + 1 }
  else if h.full then c.setChan f { h with waiting := h.waiting ++ [r] }
  else if h.stash.isEmpty && c.cqOpen f then c.writeRec f r
  else
    let d := c.fnDie f
    let c := (c.count d (R.dmaEvtCnt 1)).setChan f { h with stash := h.stash ++ [r], full := decide (64 ≤ h.stash.length + 1) }
    if 64 ≤ h.stash.length + 1 then
      (c.count d (R.dmaFullCnt (if f = stewardFn then 512 else f % 512))).raise Cls.dmaCqFull d { block := 15, unit := fnUnit f }
    else c

/-- Writes stashed records oldest first while the queue takes them (R409). Once none is left the function leaves the full
state, and the records that waited are placed (R410). Logs 13 (DESIGN CHOICE), 69 (DESIGN CHOICE). -/
def Chip.drainStash (f : Nat) : Nat → Chip → Chip
  | 0, c => c
  | n + 1, c =>
    let h := c.chan f
    match h.stash with
    | [] => h.waiting.foldl (fun c r => c.placeRec f r) (c.setChan f { h with full := false, waiting := [] })
    | r :: rs =>
      if c.cqOpen f then Chip.drainStash f n ((c.setChan f { h with stash := rs }).writeRec f r) else c

/-- Places the records of the ring's oldest entries in entry order (R396), by fuel: the stamps of its frames as they come, in
frame order (a placed stamp is left empty), then, once the entry has ended, its own records. In the full state they wait with
their entries (R410). -/
def Chip.flushStarted (f : Nat) : Nat → Chip → Chip
  | 0, c => c
  | n + 1, c =>
    match (c.chan f).started with
    | [] => c
    | e :: es =>
      if (c.chan f).full then c
      else
        let lead := e.stamps.takeWhile Option.isSome
        let rest := e.stamps.drop lead.length
        let c := c.setChan f { c.chan f with started := { e with stamps := lead.map (fun _ => some []) ++ rest } :: es }
        let c := ((lead.filterMap id).filter fun r => !r.isEmpty).foldl (fun c r => c.placeRec f r) c
        match e.recs with
        | none => c
        | some rs =>
          if !rest.isEmpty then c
          else Chip.flushStarted f n (rs.foldl (fun c r => c.placeRec f r) (c.setChan f { c.chan f with started := es }))

/-- Places what the ring's entries have ready. -/
def Chip.flushRing (c : Chip) (f : Nat) : Chip := Chip.flushStarted f ((c.chan f).started.length + 1) c

/-- Writes what the queue takes of a function's stash, then places what waited behind it. -/
def Chip.drain (c : Chip) (f : Nat) : Chip := (Chip.drainStash f ((c.chan f).stash.length + 1) c).flushRing f

/-- Ends the started entry with serial number `seq` of function `f` with records (none for types that give none). -/
def Chip.endEntry (c : Chip) (f seq : Nat) (recs : List Bytes) : Chip :=
  let h := c.chan f
  let st := h.started.map fun e => if e.seq = seq && e.recs.isNone then { e with recs := some recs } else e
  (c.setChan f { h with started := st }).flushRing f

/-- Ring index of the started entry with a serial number. -/
def Chip.ringIndex (c : Chip) (f seq : Nat) : Nat := (((c.chan f).started.find? fun e => e.seq == seq).map Started.index).getD 0

/-! ### Doorbells (R369, R370, R378, R385) -/

/-- Function `f` can be addressed through its doorbell page: the part runs and boot is done; the instance exists, is
not orphaned and its VF is enabled; its link is up, its function in D0 with Memory Space Enable (the PF's, or the VFs' of
the PF), no FLR of it under way (R334, R335). -/
def Chip.pageOk (c : Chip) (f : Nat) : Bool :=
  let k := c.fnPci f
  let fn := c.fn k
  let d := c.fnDie f
  c.alive && c.booted && c.on d 12 && !fn.d3 &&
    (if f = stewardFn then fn.mse && c.linkUp c.stwPort c.stwLink
     else
      let x := c.inst f
      x.st != .free && !x.orphaned && c.linkUp x.port x.pf && (c.fn (pfOfKey k)).vfMse && [1, 16].contains (c.fn (pfOfKey k)).sysPage &&
        !(x.st == .resetting && x.cause == .flr))

/-- Doorbell writes of `f` are applied: not while its instance is Resetting (R360, R387), nor while the channel block's gate is
closed (R478). -/
def Chip.bellOk (c : Chip) (f : Nat) : Bool := c.pageOk f && c.gateOpen (c.fnDie f) 14 && !(f != stewardFn && (c.inst f).st == .resetting)

/-- Slots of cached entries. Log 14 (DESIGN CHOICE). -/
def cacheSlots (l : List Bytes) : Nat := (l.map fun b => bitsN (byteAt b 0) 0 6).sum

/-- The cached entries that lie wholly below `n` slots. -/
def cacheKeep : Nat → List Bytes → List Bytes
  | _, [] => []
  | n, b :: bs =>
    let k := bitsN (byteAt b 0) 0 6
    if k ≤ n then b :: cacheKeep (n - k) bs else []

/-- CHN_DS_PROD (R369, R370): a value that would leave the ring lapped halts both channels with LAP_ERROR and is not
taken; a value that moves P back discards cached copies beyond it and the fetch in progress. -/
def chnDsProd (f : Nat) (value : Reg32) (c : Chip) : Chip :=
  let h := c.chan f
  let v := value.toNat
  if !c.bellOk f || h.dsHalt != 0 then c
  else if 2 ^ h.dsK < diff32 v h.dsC then c.haltRings f Halt.lap true true 0 v
  else c.setChan f { (if diff32 v h.dsC < diff32 h.dsP h.dsC then h.discard (cacheKeep (diff32 v h.dsC) h.cache) else h) with dsP := v }

/-- CHN_CQ_CONS (R369, R409): the queue may not be left lapped; slots freed take stashed records. -/
def chnCqCons (f : Nat) (value : Reg32) (c : Chip) : Chip :=
  let h := c.chan f
  let v := value.toNat
  if !c.bellOk f || h.cqHalt != 0 then c
  else if 2 ^ h.cqK < diff32 h.cqP v then c.haltRings f Halt.lap true true 1 v
  else
    (c.setChan f { h with cqC := v }).drain f

/-- The steward's setup passes (R346, R390, R435): bases aligned to 4 KiB or the ring's size, whichever is smaller,
exponents 6 to 20, a version in range. -/
def stwSetupOk (h : Chan) : Bool :=
  decide (6 ≤ h.dsK) && decide (h.dsK ≤ 20) && decide (6 ≤ h.cqK) && decide (h.cqK ≤ 20) &&
    decide (h.dsBase % min 4096 (32 * 2 ^ h.dsK) = 0) && decide (h.cqBase % min 4096 (32 * 2 ^ h.cqK) = 0) &&
    decide (1 ≤ h.verNew) && decide (h.verNew ≤ 2)

/-- A refused restart of the steward (R390, R436): both of its channels halt with SETUP_INVALID, counted once, vector 0
signalled once, whatever codes they held. Log 77 (DEDUCED). -/
def Chip.refuseSetup (c : Chip) (index : Nat) : Chip :=
  (c.setChan stewardFn { c.chan stewardFn with dsHalt := 0, cqHalt := 0 }).haltRings stewardFn Halt.setupInvalid true true 0 index

/-- A restart of one ring of `f` with index `v` (R385); for the steward after the check of its setup, whose version is in use
from then on (R435). Logs 69 (DESIGN CHOICE), 77 (DEDUCED). -/
def restartRing (f : Nat) (ds : Bool) (v : Nat) (c : Chip) : Chip :=
  let h := c.chan f
  let halted := if ds then h.dsHalt != 0 else h.cqHalt != 0
  if !c.bellOk f || !halted then c
  else if f == stewardFn && !stwSetupOk h then c.refuseSetup v
  else
    let h := { h with ver := if f = stewardFn then h.verNew else h.ver }
    let h := if ds then { h.discard [] with dsP := v, dsC := v, dsHalt := 0, shadowDirty := true }
      else { h with cqP := v, cqC := v, cqHalt := 0, shadowDirty := true }
    let c := c.setChan f h
    let c := if f = stewardFn then c else c.setInst f { c.inst f with fresh := false }
    if ds then c else c.drain f

/-- CHN_DS_RESTART. -/
def chnDsRestart (f : Nat) (value : Reg32) (c : Chip) : Chip := restartRing f true value.toNat c

/-- CHN_CQ_RESTART. -/
def chnCqRestart (f : Nat) (value : Reg32) (c : Chip) : Chip := restartRing f false value.toNat c

/-- CHN_INVALIDATE (R378): every cached copy and the fetch in progress are discarded; ignored while the downstream ring is halted. -/
def chnInvalidate (f : Nat) (value : Reg32) (c : Chip) : Chip :=
  let h := c.chan f
  if c.bellOk f && h.dsHalt == 0 && value.getLsbD 0 then c.setChan f (h.discard []) else c

/-- DMA_MOD_ARM (R413): sets armed; with pending set the message goes at once. -/
def dmaModArm (f : Nat) (value : Reg32) (c : Chip) : Chip :=
  let h := c.chan f
  if c.bellOk f && value.getLsbD 0 then
    let c := c.setChan f { h with armed := true }
    if h.pending then c.modSend f else c
  else c

/-- MODERATION_TIMER (R413): time_thr has elapsed since pending was set. Log 12 (DEDUCED). -/
def moderationTimer (f : Nat) (c : Chip) : Chip :=
  let h := c.chan f
  if c.alive && h.pending && h.armed && decide (h.pendSince + 1000 * h.modTime ≤ c.steady) then c.modSend f else c

/-- SHADOW_WRITE (R388, R389): the 16 bytes of the index shadow, in one request. A fault of its translation halts both
channels (R357). Log 68 (DEDUCED). -/
def shadowWrite (f : Nat) (c : Chip) : Chip :=
  let h := c.chan f
  if c.on (c.fnDie f) 15 && h.shadowDirty && c.fnMasters f && (f == stewardFn || ((c.inst f).st != .free && (c.inst f).st != .resetting)) then
    match c.translate f h.shadow true with
    | (none, c) => (c.setChan f { c.chan f with shadowDirty := false }).haltRings f Halt.recordFault true true 1 h.cqP
    | (some a, c) =>
      let b := toLE 4 h.dsC ++ toLE 4 h.cqP ++ toLE 1 h.dsHalt ++ toLE 1 h.cqHalt ++ List.replicate 6 0
      (c.emit (.hostWrite f a b false false)).setChan f { c.chan f with shadowDirty := false }
  else c

/-! ### Fetch and start (R371–R377) -/

/-- Entries of `f` may be started: its ring runs and, for an instance, the instance block, the instance being Active (R343,
R360); management needs the Tether, configured traffic does not (R509). Entries already fetched run while a FREEZE waits (R363)
and while fetching is disabled. -/
def Chip.runsRing (c : Chip) (f : Nat) : Bool :=
  let d := c.fnDie f
  c.booted && c.alive && c.gateOpen d 14 && (c.chan f).dsHalt == 0 && c.fnMasters f &&
    ((f == stewardFn && c.tetherUp) || (f != stewardFn && c.on d 13 && (c.inst f).st == .active && !(c.inst f).orphaned))

/-- Entries of `f` may be fetched: the channel block is enabled and the read engine issues bursts; not while a FREEZE of its
instance waits (R363). -/
def Chip.fetches (c : Chip) (f : Nat) : Bool :=
  c.runsRing f && c.on (c.fnDie f) 14 && c.on (c.fnDie f) 15 && (f == stewardFn || !(c.inst f).freezing)

/-- Slot counts that a type allows (R379, R432, R517, R524), the least and the greatest; none for reserved codes. At
entry format 1, STORAGE_CMD takes 2 slots only (R440). -/
def typeSlots (typ ver : Nat) : Option (Nat × Nat) :=
  if typ = 0x00 then some (1, 32)
  else if typ = 0x02 then some (2, 32)
  else if typ = 0x05 ∨ typ = 0x45 then some (3, 3)
  else if typ = 0x06 ∨ typ = 0x5A then some (7, 7)
  else if typ = 0x09 then some (2, if ver = 1 then 2 else 4)
  else if typ = 0x43 then some (2, 7)
  else if typ = 0x44 then some (1, 9)
  else if typ = 0x46 ∨ typ = 0x6A then some (2, 2)
  else if typ = 0x48 then some (5, 5)
  else if typ = 0x50 then some (4, 4)
  else if [0x01, 0x03, 0x04, 0x07, 0x08, 0x40, 0x41, 0x42, 0x47, 0x51, 0x52, 0x53, 0x54, 0x55, 0x56, 0x57, 0x58, 0x59,
      0x5B, 0x60, 0x61, 0x62, 0x68, 0x69, 0x6B].contains typ then some (1, 1)
  else none

/-- Whether a poster may use a type (R379). -/
def typePermitted (typ f : Nat) : Bool :=
  if f = stewardFn then typ != 0x02 && typ != 0x03 && typ != 0x09 else decide (typ < 0x40)

/-- What R373 says of a well-formed entry: the status it completes with without effect, and its CHN_EVT_CNT. A RULE_CHANGE of
one slot so completes with ENTRY_SIZE and leaves the commit as it is (R108). Log 75 (DESIGN CHOICE). -/
def entryRefused (b : Bytes) (f ver : Nat) : Option (Nat × Nat) :=
  let typ := byteAt b 1
  let n := bitsN (byteAt b 0) 0 6
  match typeSlots typ ver with
  | none => some (St.typeUnsupported, 1)
  | some (lo, hi) =>
    if f == stewardFn && ver == 1 && ((0x55 ≤ typ && typ ≤ 0x5B) || (0x60 ≤ typ && typ ≤ 0x63)) then
      some (St.typeUnsupported, 1)
    else if n < lo || hi < n || (typ == 0x09 && n == 3) then some (St.entrySize, 0)
    else if !typePermitted typ f then some (St.notPermitted, 2)
    else none

/-- Entries of the ring in progress (R377). -/
def inProgress (h : Chan) : Nat := (h.started.filter fun e => e.recs.isNone).length

/-- Buffers on the receive list of an instance, those reserved for granted packets included (R399). -/
def Chip.rxCount (c : Chip) (f : Nat) : Nat :=
  (c.chan f).rx.length + ((c.dp.pkts.filter fun p => p.dstInst && p.dst == f).map fun p => p.bufs.length).sum

/-- The oldest started entry of a type that has not been run. -/
def Chip.nextRun (c : Chip) (f typ : Nat) : Option Started :=
  (c.chan f).started.find? fun e => !e.run && e.recs.isNone && byteAt e.bytes 1 == typ

/-- Marks the started entry with serial number `seq` as run. -/
def Chip.markRun (c : Chip) (f seq : Nat) : Chip :=
  let h := c.chan f
  c.setChan f { h with started := h.started.map fun e => if e.seq = seq && e.recs.isNone then { e with run := true } else e }

/-- The shared form of an entry's row: runs `g` on the oldest started entry of the type, if there is one. -/
def runEntry (f typ : Nat) (g : Started → Chip → Chip) (c : Chip) : Chip :=
  if c.alive then
    match c.nextRun f typ with
    | none => c
    | some e => g e (c.markRun f e.seq)
  else c

/-- Ends a started entry with its ENTRY record. -/
def Chip.endWith (c : Chip) (f : Nat) (e : Started) (status : Nat) (done residue : Nat := 0) (detail : Bytes := []) : Chip :=
  c.endEntry f e.seq [entryRec e.bytes e.index status done residue detail]

/-- NOP (R379): one record with its cookie. -/
def nopEntry (f : Nat) (c : Chip) : Chip := runEntry f 0x01 (fun e c => c.endWith f e St.ok) c

/-- RX_POST (R381): the buffer joins the receive list; the entry waits while the list holds 4,096 buffers. It gives no
record of its own but LENGTH_INVALID. -/
def rxPost (f : Nat) (c : Chip) : Chip :=
  if c.alive then
    match c.nextRun f 0x03 with
    | none => c
    | some e =>
      let len := leAt e.bytes 12 4
      if len < 64 ∨ 65536 < len then (c.markRun f e.seq).endWith f e St.lengthInvalid
      else if 4096 ≤ c.rxCount f then c
      else
        let h := c.chan f
        let c := c.setChan f { h with rx := h.rx ++ [⟨leAt e.bytes 16 8, len, leAt e.bytes 8 4, e.seq⟩] }
        c.endEntry f e.seq []
  else c

end Sys2Proof.Machine
end

