-- ==== Sys2Proof/Machine/Packets.lean ====
section
/-! DEFINITION. Packets: the table of packets, the cells they hold, ports, admission (R187–R196), verdict records
(R521–R525), drops (R217, R218) and the release of what a packet holds. -/

namespace Sys2Proof.Machine

/-! ### The table of packets -/

/-- Adds a packet of `n` bytes to a counter pair; one whose codeword is uncorrectable takes the increment as its value
(R123, R506). -/
def Chip.ctrAdd (c : Chip) (k n : Nat) : Chip :=
  c.setTb fun t =>
    if t.badCtrs.contains k then
      { t with badCtrs := t.badCtrs.filter (· != k), ctrs := tput (0, 0) t.ctrs k (1, n % 2 ^ 64) }
    else { t with ctrs := tmod (0, 0) t.ctrs k fun v => (wrapAdd 64 v.1 1, wrapAdd 64 v.2 n) }

/-- The packet with a number. -/
def Chip.pkt (c : Chip) (id : Nat) : Option Pkt := c.dp.pkts.find? fun p => p.id == id

/-- Stores a packet under its number. -/
def Chip.setPkt (c : Chip) (p : Pkt) : Chip :=
  c.setDp fun d => { d with pkts := d.pkts.map fun q => if q.id = p.id then p else q }

/-- Removes a packet. -/
def Chip.delPkt (c : Chip) (id : Nat) : Chip :=
  c.setDp fun d => { d with pkts := d.pkts.filter fun q => q.id != id }

/-- Adds a packet under the next number and order stamp. -/
def Chip.addPkt (c : Chip) (p : Pkt) : Chip :=
  c.setDp fun d => { d with pkts := d.pkts ++ [{ p with id := d.nextPkt, stamp := d.stamp }],
                            nextPkt := d.nextPkt + 1, stamp := d.stamp + 1 }

/-- Moves a packet to a stage, at the end of that stage's order. -/
def Chip.move (c : Chip) (p : Pkt) (st : PStage) : Chip :=
  (c.setPkt { p with stage := st, stamp := c.dp.stamp }).setDp fun d => { d with stamp := d.stamp + 1 }

/-- The oldest packet that `q` picks. -/
def Chip.oldest (c : Chip) (q : Pkt → Bool) : Option Pkt :=
  (c.dp.pkts.filter q).foldl (fun a p => match a with
    | none => some p
    | some b => if p.stamp < b.stamp then some p else a) none

/-- No packet that `q` picks stands before `p` in order. -/
def Chip.first (c : Chip) (p : Pkt) (q : Pkt → Bool) : Bool :=
  c.dp.pkts.all fun o => !(q o && decide (o.stamp < p.stamp))

/-- Frame length (R13): with FCS, or as an engine left it (R293). -/
def Pkt.len (p : Pkt) : Nat := p.bytes.length + p.tail.length

/-- The bytes that a walk and a scan may read (R73, R75, R129): those before the FCS; of a re-injected packet all that the
engine presents. -/
def Pkt.frame (p : Pkt) : Bytes := if p.reinjected then p.bytes ++ p.tail else p.bytes

/-- The packet as an engine holds it (R293): its frame with the last bytes. -/
def Pkt.buf (p : Pkt) : Bytes := p.bytes ++ p.tail

/-- The packet with what an engine holds, its last four bytes apart. -/
def Pkt.setBuf (p : Pkt) (b : Bytes) : Pkt := { p with bytes := b.take (b.length - 4), tail := b.drop (b.length - 4) }

/-- The packet with a bad cell at byte `b` or before (R504). -/
def Pkt.spoil (p : Pkt) (b : Nat) : Pkt := { p with badAt := some (match p.badAt with | some a => min a b | none => b) }

/-- Bytes of a frame that a line may carry: up to its first bad cell, and at least 64 (R504). -/
def Pkt.lineLen (p : Pkt) : Nat := match p.badAt with | some o => min p.len (max 64 o) | none => p.len

/-- The die of a packet's first Headgate: that of its source (R522, R523). -/
def Pkt.entryDie (p : Pkt) : Nat := if p.srcInst then p.src / 512 else p.src / 64

/-- Cells of a packet (R189). -/
def Pkt.cells (p : Pkt) : Nat := ceilDiv p.len 256

/-- A blank packet, for the fields its maker does not set. -/
def Pkt.blank : Pkt :=
  { id := 0, stamp := 0, die := 0, stage := .arrived, bytes := [], tIn := 0, shift := 0, inDie := 0, srcInst := false, src := 0,
    reinjected := false, start := 0, whole := true, kv := [], md := 0, matchId := 0, hash := 0, epoch := 0, slot := 0,
    holdsEpoch := false, merged := Merged.none, ruleT := 0, ruleX := 0, ruleL := 0, ruleD := 0, through := false,
    urgent := false, demoted := false, tc := 0, owner := 0xFF, dstInst := false, dst := 0xFFFF, colour := 0,
    sampled := false, selected := false, dropN := 0, lookupCheck := false, authFail := false, tlsFail := false, badAt := none, added := 0,
    qdepth := 0, txTime := 0, flow := none, missed := false, holds := [], send := none, bufs := [], granted := 0, readBack := false, gen := false,
    gate := none, tail := List.replicate 4 0 }

/-! ### Headgate slots (R41, R43) -/

/-- Some packet of die `d` waits in its context for re-injection. -/
def Chip.reinjectWaits (c : Chip) (d : Nat) : Bool := c.dp.pkts.any fun p => p.die == d && p.stage == .reinject

/-- Headgate `g` of die `d` keeps its next slot for re-injection: one slot in every 16 (R41). -/
def Chip.gateKept (c : Chip) (d g : Nat) : Bool := c.reinjectWaits d && decide (15 ≤ tget 0 c.dp.gates (d * 16 + g))

/-- The Headgates of die `d` in the order of its rotation (R43). -/
def Chip.gateOrder (c : Chip) (d : Nat) : List Nat := (List.range 12).map fun k => (tget 0 c.dp.rotation d + k) % 12

/-- A slot of Headgate `g` of die `d` is given, to a re-injected packet or to an arrival. -/
def Chip.takeGate (c : Chip) (d g : Nat) (re : Bool) : Chip :=
  c.setDp fun s => { s with rotation := tput 0 s.rotation d ((g + 1) % 12)
                            gates := tmod 0 s.gates (d * 16 + g) fun n => if re then 0 else min 15 (n + 1) }

/-- Some arrival of die `d` waits for a slot. -/
def Chip.slotless (c : Chip) (d : Nat) : Bool := c.dp.pkts.any fun p => p.die == d && p.stage == .arrived && p.gate.isNone

/-- Dispatches an arrival of die `d` to the next Headgate of the rotation that has a free slot (R43); none while each keeps
its slot for re-injection or an earlier arrival waits (R41: arrival order). -/
def Chip.dispatch (c : Chip) (d : Nat) : Option Nat × Chip :=
  match (if c.slotless d then none else (c.gateOrder d).find? fun g => !c.gateKept d g) with
  | none => (none, c)
  | some g => (some g, c.takeGate d g false)

/-- The Headgate whose slot a re-injected packet of die `d` takes: the first that keeps one for it, or any when no arrival
claims a slot (R41). -/
def Chip.reinjectGate (c : Chip) (d : Nat) : Option Nat :=
  match (c.gateOrder d).find? (c.gateKept d) with
  | some g => some g
  | none => if c.slotless d then none else (c.gateOrder d).head?

/-! ### Turns on a Culvert port (R25, R26) -/

/-- The Culvert port that R26 assigns a packet from die `d` to die `e`: by ingress port number for a through packet, by
hash for any other. -/
def Chip.culPort (c : Chip) (p : Pkt) (d e : Nat) : Nat :=
  let g := c.gang d e
  g.getD ((if p.through then p.src else p.hash) % g.length) 0

/-- The die that a packet crosses to. -/
def PStage.crossing : PStage → Option Nat
  | .crossThrough e => some e
  | .crossOwner e => some e
  | .crossDest e => some e
  | _ => none

/-- A packet waits for Culvert port `k` of die `d`, and `q` picks it. -/
def Chip.waitsPort (c : Chip) (d k : Nat) (q : Pkt → Bool) : Bool :=
  c.dp.pkts.any fun p => p.die == d && q p && (match p.stage.crossing with | some e => c.culPort p d e == k | none => false)

/-- Flits of a packet on the Culvert (R26): a descriptor and its data. -/
def Pkt.flits (p : Pkt) : Nat := 1 + ceilDiv p.len 64

/-- Control messages of die `d` wait for port `k` and may take the next flit: at most one in 64 while cells wait (R25).
Log 55 (DESIGN CHOICE). -/
def Chip.ctlFirst (c : Chip) (d k : Nat) : Bool :=
  tget 0 c.dp.ctlGap (d * 8 + k) == 0 && c.tb.notices.any fun n => n.src == d && n.dest != d && c.ctlPort d n.dest == k

/-- It is the packet's turn on its Culvert port to die `e` (R25, R26): control messages come first within their share,
then through packets, then the others, each kind in order. -/
def Chip.culTurn (c : Chip) (p : Pkt) (e : Nat) : Bool :=
  let k := c.culPort p p.die e
  !c.ctlFirst p.die k && (p.through || !c.waitsPort p.die k fun q => q.through) &&
    c.first p fun q => q.die == p.die && q.through == p.through && q.stage.crossing == some e && c.culPort q q.die e == k

/-- The flits of a packet pass port `k` of die `d` (R25). -/
def Chip.passFlits (c : Chip) (p : Pkt) (d k : Nat) : Chip :=
  c.setDp fun s => { s with ctlGap := tmod 0 s.ctlGap (d * 8 + k) fun n => n - p.flits }

/-- A control message may pass port `k` of die `d` now. -/
def Chip.ctlPasses (c : Chip) (d k : Nat) : Bool := tget 0 c.dp.ctlGap (d * 8 + k) == 0 || !c.waitsPort d k fun _ => true

/-- A control message passes port `k` of die `d`: while cells wait, the next comes 63 flits later (R25). -/
def Chip.passCtl (c : Chip) (d k : Nat) : Chip :=
  c.setDp fun s => { s with ctlGap := tput 0 s.ctlGap (d * 8 + k) (if c.waitsPort d k fun _ => true then 63 else 0) }

/-- The Culvert port that R26 assigns other data from die `d` to die `e` with a hash. -/
def Chip.dataPort (c : Chip) (hash d e : Nat) : Nat :=
  let g := c.gang d e
  g.getD (hash % g.length) 0

/-- Data from die `d` to die `e` waits for its port: control messages in their share and through packets go first (R25). -/
def Chip.dataWaits (c : Chip) (d e hash : Nat) : Bool :=
  let k := c.dataPort hash d e
  d != e && c.culUp d k && (c.ctlFirst d k || c.waitsPort d k fun q => q.through)

/-- `n` bytes of host-originated data cross from die `d` to die `e` (R26, R36): none over a failed port (R27). -/
def Chip.crossData (c : Chip) (d e hash n : Nat) : Option Chip :=
  let k := c.dataPort hash d e
  if d = e then some c
  else if c.culUp d k then some (c.setDp fun s => { s with ctlGap := tmod 0 s.ctlGap (d * 8 + k) fun g => g - (1 + ceilDiv n 64) })
  else none

/-! ### Ports (R220–R226) -/

/-- A port starts at this lane: its die is populated and port_en is set. -/
def Chip.isPort (c : Chip) (lane : Nat) : Bool := c.hasDie (lane / 64) && c.bit (lane / 64) (R.macPortCfg (lane % 64)) 0

/-- Lanes of the port. -/
def Chip.portWidth (c : Chip) (lane : Nat) : Nat := 2 ^ c.fld (lane / 64) (R.macPortCfg (lane % 64)) 1 2

/-- Maximum frame length M. -/
def Chip.maxFrame (c : Chip) (lane : Nat) : Nat := c.fld (lane / 64) (R.macPortCfg (lane % 64)) 8 15

/-- The port is through-facing (R49). -/
def Chip.throughFacing (c : Chip) (lane : Nat) : Bool := c.isPort lane && c.bit (lane / 64) (R.macPortCfg (lane % 64)) 6

/-- The port's link is up and its MAC block runs (R223, R225). -/
def Chip.portUp (c : Chip) (lane : Nat) : Bool :=
  c.isPort lane && c.on (lane / 64) 8 && c.bit (lane / 64) (R.macPortStatus (lane % 64)) 0

/-- Line time of `n` bytes on a port, in 2⁻¹⁶ ns: 0.04 ns per byte and lane (R220). -/
def Chip.byteTime (c : Chip) (lane n : Nat) : Nat := n * 65536 / (25 * c.portWidth lane)

/-- Adds to a MAC counter of a port (wraps at 2⁶⁴). -/
def Chip.macCount (c : Chip) (lane k : Nat) (n : Nat := 1) : Chip :=
  c.setTb fun t => { t with macCtr := tmod 0 t.macCtr (lane * 32 + k) fun v => wrapAdd 64 v n }

/-! ### Cells (R187) -/

/-- Cells of a die held in the pools that `q` picks. -/
def Chip.poolUsed (c : Chip) (d : Nat) (q : Pool → Bool) : Nat :=
  (c.dp.pkts.map fun p => ((p.holds.filter fun h => h.die == d && q h.pool).map Hold.cells).sum).sum

/-- Size of a configured or fixed pool of a die. -/
def Chip.poolSize (c : Chip) (d : Nat) : Pool → Nat
  | .ingress => 16384
  | .through => c.fld d R.bufPoolThrough 0 19
  | .engine => c.fld d R.bufPoolEngine 0 19
  | .culvert => c.fld d R.bufPoolCulvert 0 19
  | .window inst dest => if inst then 768 else 160 * c.portWidth dest
  | .tenant .. => 524288 - 16384 - 13312 - c.fld d R.bufPoolThrough 0 19 - c.fld d R.bufPoolEngine 0 19 - c.fld d R.bufPoolCulvert 0 19
  | .spill .. => 33554432

/-- `n` more cells fit a pool. Log 14 (DESIGN CHOICE). -/
def Chip.fits (c : Chip) (d : Nat) (q : Pool) (n : Nat) : Bool := decide (c.poolUsed d (· == q) + n ≤ c.poolSize d q)

/-- A packet without its holds of the pools that `q` picks. -/
def Pkt.release (p : Pkt) (q : Pool → Bool) : Pkt := { p with holds := p.holds.filter fun h => !q h.pool }

/-- A packet with its cells held in a pool of a die. -/
def Pkt.take (p : Pkt) (d : Nat) (q : Pool) : Pkt := { p with holds := p.holds ++ [⟨d, q, p.cells⟩] }

/-! ### Admission (R191–R195) -/

/-- The cells of a packet are read on its die, in the Spillway or the buffer (R498, R502): a bad one is reported and marks the
packet from there on (R504). -/
def Chip.readPkt (c : Chip) (p : Pkt) (hbm : Bool) (cells : CellRead) : Pkt × Chip :=
  let (bad, c) := c.cellsCheck p.die hbm cells p.len { block := if hbm then 0x20 else 5 }
  (match bad with | some b => p.spoil b | none => p, c)

/-- The pool is a tenant queue of this destination (any class). -/
def ofDest (inst : Bool) (dest : Nat) : Pool → Bool
  | .tenant i n _ => i == inst && n == dest
  | .spill i n _ => i == inst && n == dest
  | _ => false

/-- The pool is a queue of this destination and class. -/
def ofQueue (inst : Bool) (dest tc : Nat) : Pool → Bool
  | .tenant i n t => i == inst && n == dest && t == tc
  | .spill i n t => i == inst && n == dest && t == tc
  | _ => false

/-- The pool is an on-die tenant queue. -/
def isTenant : Pool → Bool
  | .tenant .. => true
  | _ => false

/-- The pool is a Spillway queue. -/
def isSpill : Pool → Bool
  | .spill .. => true
  | _ => false

/-- QoS settings of an instance in force on a die. -/
def Chip.qosOf (c : Chip) (d i : Nat) : Qos := tget Qos.none c.qs.qos (d * 4096 + i)

/-- share(d) of a destination on a die (R192). -/
def Chip.share (c : Chip) (d : Nat) (inst : Bool) (dest : Nat) : Nat :=
  if inst then (c.qosOf d dest).share else c.fld d (R.bufPortShare dest) 0 26

/-- on_die(d) of a destination on a die. -/
def Chip.onDieCap (c : Chip) (d : Nat) (inst : Bool) (dest : Nat) : Nat :=
  if inst then (c.qosOf d dest).onDie else c.fld d (R.bufPortOndie dest) 0 19

/-- f(c) of R192. -/
def Chip.classFrac (c : Chip) (d tc : Nat) : Nat :=
  let v := c.fld d (if tc < 4 then R.bufClassFracLo else R.bufClassFracHi) (8 * (tc % 4)) 8
  if v = 0 then 256 else v

/-- The mode preset: the value of PKG_TENANT_MODE, which governs a die from the write on, whichever of its affected blocks
are enabled again (R66). Log 74 (DESIGN CHOICE). -/
def Chip.mode (c : Chip) : Nat := c.fld 0 R.pkgTenantMode 0 2

/-- Free cells of the tenant pool outside its staging area (R195). -/
def Chip.poolFree (c : Chip) (d : Nat) : Nat := c.poolSize d (.tenant false 0 0) - 4096 - c.poolUsed d isTenant

/-- What admission decides. -/
inductive Admit where
  | drop (reason : Nat)
  | onDie
  | spilled
deriving DecidableEq, Repr

/-- The admission of `n` cells to a destination and class on a die, its checks in order (R193), the buffer block's
(R188) and those of the instance and DMA chapters first. -/
def Chip.takeIn (c : Chip) (d : Nat) (inst : Bool) (dest tc n : Nat) : Admit :=
  let x := c.inst dest
  let frozen := inst && x.st == .frozen
  let occ := c.poolUsed d (ofDest inst dest)
  let spilled := decide (c.poolUsed d (fun q => isSpill q && ofQueue inst dest tc q) ≠ 0)
  if !c.en d 5 then .drop Dr.blockDisabled
  else if inst && x.st == .free then .drop Dr.noInstance
  else if inst && !c.en (dest / 512) 13 then .drop Dr.blockDisabled
  else if inst && x.st == .resetting then .drop Dr.instanceReset
  else if inst && (c.chan dest).full then .drop Dr.completionFull
  else if c.share d inst dest < occ then .drop (if frozen then Dr.instanceFrozen else Dr.shareReduced)
  else if c.share d inst dest < occ + n then .drop (if frozen then Dr.instanceFrozen else Dr.shareFull)
  else if c.share d inst dest * c.classFrac d tc / 256 < c.poolUsed d (ofQueue inst dest tc) + n then .drop Dr.classShareFull
  else if !spilled && decide (c.poolUsed d (fun q => isTenant q && ofDest inst dest q) + n ≤ c.onDieCap d inst dest) &&
      decide (n ≤ c.poolFree d) then .onDie
  else if c.mode = 3 then .drop Dr.onDieFull
  else if !c.bit d R.bufCtrl 2 then .drop Dr.blockDisabled
  else if 33554432 < c.poolUsed d isSpill + n then .drop Dr.spillwayFull
  else if 4096 < tget 0 c.qs.staged d + n then .drop Dr.spillBusy
  else .spilled

/-! ### Shapers of a queue (R202, R206) -/

/-- Key of shaper `i` of die `d`; none for 0xFF_FFFF. -/
def shaperKey (d i : Nat) : List Nat := if i < 131072 then [d * 131072 + i] else []

/-- Die that schedules a destination (R197). -/
def destDie (inst : Bool) (dest : Nat) : Nat := if inst then dest / 512 else dest / 64

/-- Shapers of the nodes above a queue: its class, its destination, the host endpoint of an instance. -/
def Chip.nodeShapers (c : Chip) (inst : Bool) (dest tc : Nat) : List Nat :=
  let d := destDie inst dest
  if inst then
    let q := c.qosOf d dest
    shaperKey d (q.classShapers.getD tc 0xFFFFFF) ++ shaperKey d q.shaper
      ++ shaperKey d (c.fld d (R.schHostShp ((c.inst dest).port % 4)) 0 24)
  else shaperKey d (c.fld d (R.schPortCshp (dest % 64) tc) 0 24) ++ shaperKey d (c.fld d (R.schPortCtrl (dest % 64)) 8 24)

/-- The first slot boundary of a level strictly after a time. Log 58 (DESIGN CHOICE). -/
def nextSlot (level t : Nat) : Nat := (t / level + 1) * level

/-- Length of a fine slot (16 ns) in 2⁻¹⁶ ns (R204). -/
def fineSlot : Nat := 2 ^ 20

/-- Starts the idle shapers above a queue that has become non-empty (R206). Log 58 (DESIGN CHOICE). -/
def Chip.wakeShapers (c : Chip) (inst : Bool) (dest tc : Nat) : Chip :=
  (c.nodeShapers inst dest tc).foldl (fun c k =>
    let s := tget Shaper.none c.qs.shapers k
    if s.slot.isNone && decide (s.credit ≤ 0) && decide (0 < s.rate) then
      let s' := { s with credit := 0, last := c.now, slot := some (nextSlot fineSlot c.now), level := fineSlot }
      c.setQs fun q => { q with shapers := tput Shaper.none q.shapers k s' }
    else c) c

def Chip.shaper (c : Chip) (k : Nat) : Shaper := tget Shaper.none c.qs.shapers k
def Chip.setShaper (c : Chip) (k : Nat) (s : Shaper) : Chip := c.setQs fun q => { q with shapers := tput Shaper.none q.shapers k s }

/-- A packet waits in a queue under a shaper (R206). -/
def Chip.shaperBusy (c : Chip) (k : Nat) : Bool :=
  c.dp.pkts.any fun p => p.stage == .queued && (c.nodeShapers p.dstInst p.dst p.tc).contains k

/-- A shaper whose queues are empty loses its credit and is idle (R206). -/
def Chip.settleShaper (c : Chip) (k : Nat) : Chip :=
  let s := c.shaper k
  if decide (0 < s.credit) && !c.shaperBusy k then c.setShaper k { s with credit := 0 } else c

/-- Settles the shapers above a queue that may have become empty (R206). -/
def Chip.settleQueue (c : Chip) (inst : Bool) (dest tc : Nat) : Chip :=
  (c.nodeShapers inst dest tc).foldl (fun c k => c.settleShaper k) c

/-! ### Verdict records (R521–R525) -/

/-- What a packet's outcome adds to its record. -/
structure Fate where
  reason : Nat := 0
  stomped : Bool := false
deriving DecidableEq, Repr

/-- The version of R436 chosen for a record's fields marked v2. Log 40 (DESIGN CHOICE). -/
def verdictBytes (span : Nat) (ver : Nat) (be : Bool) (p : Pkt) (disp : Nat) (fate : Fate) : Bytes :=
  let w := if be then toBE else toLE
  let v2 := fun (n : Nat) => if ver = 2 then n else 0
  w 8 (p.tIn / 65536) ++ w 2 (p.src + (if p.srcInst then 2 ^ 12 else 0) + p.entryDie * 2 ^ 13) ++ w 2 p.epoch
    ++ w 4 p.ruleT ++ w 4 p.ruleX ++ w 4 p.ruleL ++ w 4 p.ruleD ++ w 1 disp ++ w 1 fate.reason
    ++ w 1 (b2n p.through + 2 * b2n p.urgent + 4 * p.tc + 32 * b2n p.reinjected + 64 * b2n p.demoted + 128 * b2n p.sampled)
    ++ w 1 (v2 (p.colour + 4 * b2n fate.stomped + 8 * b2n (p.authFail || p.tlsFail)) + 16 * b2n p.lookupCheck + 32 * b2n p.badAt.isSome)
    ++ w 2 (if p.dst = 0xFFFF then 0xFFFF else p.dst + (if p.dstInst then 2 ^ 12 else 0)) ++ w 2 p.len
    ++ w 4 p.qdepth ++ w 4 (v2 p.added) ++ w 4 p.hash ++ w 1 (p.md % 256) ++ w 1 (if p.through then 0xFF else p.owner)
    ++ w 2 p.matchId ++ w 1 ver ++ w 1 0 ++ w 2 span ++ w 8 p.txTime

/-- A verdict setup of a die. -/
def Chip.verdOf (c : Chip) (d : Nat) : Option Verd := tget none c.sp.verd d

def Chip.setVerd (c : Chip) (d : Nat) (v : Verd) : Chip := c.setSp fun s => { s with verd := tput none s.verd d (some v) }

/-- A record of die `d` is lost (R525). -/
def Chip.verdictLost (c : Chip) (d : Nat) (v : Verd) : Chip :=
  let c := (c.setVerd d { v with lost := wrapAdd 32 v.lost 1, delivered := false }).count d R.fltVerdictOvf
  if v.delivered then c.raise Cls.verdictOverflow d {} else c

/-- Records of die `d`'s present setup that wait for the write engine. -/
def Chip.verdWaiting (c : Chip) (d : Nat) : Nat := (c.sp.verdWait.filter fun w => w.die == d && !w.old).length

/-- Writes one record of die `d` into its slot of the steward's ring; one of a replaced setup under the old one (R524). -/
def Chip.verdWrite (c : Chip) (w : VerdWait) : Chip :=
  let c := c.emit (.hostWrite stewardFn w.addr w.bytes false false)
  match c.verdOf w.die with
  | some v => if w.old then c else c.setVerd w.die { v with prod := wrapAdd 32 v.prod 1, delivered := true }
  | none => c

/-- The steward's ring of a setup takes a record of die `d` (R519, R525): a slot is free beside the records that wait, not more
than 4,096 wait, the steward masters the bus, the record reaches its die. -/
def Chip.verdRoom (c : Chip) (d : Nat) (v : Verd) : Bool :=
  decide (diff32 v.prod v.cons + c.verdWaiting d < 2 ^ v.k) && decide (c.sp.verdWait.length ≤ 4096) &&
    c.alive && c.tetherUp && c.fnMasters stewardFn && c.reach d c.stwDie

/-- Gives a record to the write engine of the steward's die (R525, R391): written as it arises, or waiting while the die's DMA
block does not run. Log 40 (DESIGN CHOICE). -/
def Chip.verdTake (c : Chip) (d : Nat) (v : Verd) (bytes : Bytes) : Chip :=
  let w : VerdWait := ⟨d, v.base + 64 * ((v.prod + c.verdWaiting d) % 2 ^ v.k), false, bytes⟩
  let c := c.setVerd d v
  if c.on c.stwDie 15 && c.sp.verdWait.isEmpty then c.verdWrite w
  else c.setSp fun s => { s with verdWait := s.verdWait ++ [w] }

/-- The write engine of the steward's die runs again: the records that waited are written, or lost where they can no longer be. -/
def Chip.verdFlush (c : Chip) : Chip :=
  let l := c.sp.verdWait
  l.foldl (fun c w =>
    if c.alive && c.tetherUp && c.fnMasters stewardFn && c.reach w.die c.stwDie then c.verdWrite w
    else match c.verdOf w.die with
      | some v => c.verdictLost w.die v
      | none => c.count w.die R.fltVerdictOvf) (c.setSp fun s => { s with verdWait := [] })

/-- The records of die `d` that wait belong to a setup that is no longer in force (R524). -/
def Chip.verdOld (c : Chip) (d : Nat) : Chip :=
  c.setSp fun s => { s with verdWait := s.verdWait.map fun w => if w.die = d then { w with old := true } else w }

/-- Queues a packet that has been admitted, in its virtual output queue (R191, R194). -/
def Chip.enqueueAs (c : Chip) (p : Pkt) (d : Nat) (spill : Bool) : Chip :=
  let p := { (p.release fun _ => true) with die := d }
  let q : Pool := if spill then .spill p.dstInst p.dst p.tc else .tenant p.dstInst p.dst p.tc
  let c := c.move (p.take d q) .queued
  let c := if spill then c.setQs fun s => { s with staged := tmod 0 s.staged d fun n => n + p.cells } else c
  c.wakeShapers p.dstInst p.dst p.tc

/-- Sends a verdict record of `p` to the destination of die `d`'s setup: a slot of the steward's ring, or a collector
frame of one record as tenant traffic in class 7 of the collector port. Log 40 (DESIGN CHOICE). -/
def Chip.verdictSend (c : Chip) (d : Nat) (v : Verd) (p : Pkt) (disp : Nat) (fate : Fate) : Chip :=
  let span := c.fld 0 R.spnDevice 0 14
  let ms := c.ns / 1000000
  let v := if v.window = ms then v else { v with window := ms, used := 0 }
  if v.budget ≤ v.used then c.verdictLost d v
  else
    let v := { v with used := v.used + 1 }
    if v.collector then
      let head := toBE 6 v.dmac ++ toBE 6 v.smac ++ toBE 2 0x88B5 ++ toBE 1 0x56 ++ toBE 1 v.version ++ toBE 1 1 ++ toBE 1 d
        ++ toBE 2 span ++ toBE 2 0 ++ toBE 4 (v.frameSeq + 1) ++ toBE 4 v.lost
      let f : Pkt := { Pkt.blank with
        bytes := head ++ verdictBytes span v.version true p disp fate
        die := d, inDie := d, tIn := c.now, tc := 7, dst := v.port, owner := d, gen := true }
      match c.takeIn d false v.port 7 f.cells with
      | .drop _ => c.verdictLost d v
      | a =>
        let c := c.setVerd d { v with frameSeq := wrapAdd 32 v.frameSeq 1, lost := 0, delivered := true }
        let id := c.dp.nextPkt
        let c := c.addPkt f
        c.enqueueAs { f with id := id } d (a == .spilled)
    else if c.verdRoom d v then c.verdTake d v (verdictBytes span v.version false p disp fate)
    else c.verdictLost d v

/-- The sampling decision at Headgate entry (R522): with a setup of every packet on the ingress die, one packet in N; with drops
only, the packet is kept with the setup's N and counted should it be dropped. Log 40 (DESIGN CHOICE). -/
def Chip.sample (c : Chip) (p : Pkt) : Pkt × Chip :=
  match c.verdOf p.die with
  | none => (p, c)
  | some v =>
    if v.dropsOnly then ({ p with selected := true, dropN := v.n }, c)
    else
      let hit := decide ((v.counter + 1) % v.n = 0)
      ({ p with selected := hit, sampled := hit }, c.setVerd p.die { v with counter := (v.counter + 1) % v.n })

/-- The verdict record of a packet whose outcome is final on die `d` (R521, R522): what was decided at its first Headgate travels
with it, whatever became of the setup there; of a drops-only selection one drop in N is kept. Log 40 (DESIGN CHOICE). -/
def Chip.verdict (c : Chip) (d : Nat) (p : Pkt) (disp : Nat) (fate : Fate) : Chip :=
  if !p.selected || p.gen then c
  else
    let n := (tget 0 c.sp.dropCount p.entryDie + 1) % p.dropN
    let go := if p.dropN = 0 then (true, c)
      else if fate.reason = 0 then (false, c)
      else (decide (n = 0), c.setSp fun s => { s with dropCount := tput 0 s.dropCount p.entryDie n })
    if !go.1 then go.2
    else
      match go.2.verdOf d with
      | none => go.2
      | some v => go.2.verdictSend d v { p with sampled := true } disp fate

/-! ### The end of a packet -/

/-- The disposition code of a packet (R97): that of its merged record. -/
def Pkt.dispCode (p : Pkt) : Nat :=
  match p.merged.disp with
  | some s => bitsN s.act 32 4
  | none => 0

/-- The TX_TIMESTAMP record of a frame of a send (R401, R404, R405, R412), with the cookie and the index of its entry, `t` in
2⁻¹⁶ ns (0: none). -/
def tsRecord (signal : Bool) (cookie index frame status t : Nat) : Bytes :=
  let ns := t / 65536
  mkRec 0x03 status (b2n signal) 0 cookie index frame 0
    (toLE 6 (ns / 1000000000) ++ toLE 4 (ns % 1000000000) ++ toLE 2 (t % 65536))

/-- Gives the send of a frame the frame's transmit timestamp, when it asked for it. Log 48 (DESIGN CHOICE). -/
def Chip.sendStamp (c : Chip) (p : Pkt) (t : Nat) : Chip :=
  match p.send with
  | none => c
  | some r =>
    if !r.tsReq then c
    else
      let h := c.chan r.fn
      let st := h.started.map fun e =>
        if e.seq = r.index then
          { e with stamps := e.stamps.set r.frame (some (tsRecord (bitN h.modCfg 27) (entryCookie e.bytes) e.index r.frame St.ok t)) }
        else e
      (c.setChan r.fn { h with started := st }).flushRing r.fn

/-- The ingress-reserve cells that the received frames of a port hold, of one priority or all (R236). -/
def Chip.fcCells (c : Chip) (lane : Nat) (prio : Option Nat) : Nat :=
  let pcpOf := fun (p : Pkt) =>
    let t := beAt p.bytes 12 2
    if t = 0x8100 ∨ t = 0x88A8 then byteAt p.bytes 14 / 32 else 0
  ((c.dp.pkts.filter fun p => !p.srcInst && p.src == lane && !p.reinjected &&
      (match prio with | none => true | some q => pcpOf p == q)).map fun p =>
    ((p.holds.filter fun h => h.pool == .ingress).map Hold.cells).sum).sum

/-! ### The line of a port (R54–R60, R234–R238) -/

def Chip.txOf (c : Chip) (lane : Nat) : List Tx := tget [] c.dp.tx lane
def Chip.setTx (c : Chip) (lane : Nat) (l : List Tx) : Chip := c.setDp fun d => { d with tx := tput [] d.tx lane l }

/-- Frames under reception on a lane, innermost first. -/
def Chip.rxOf (c : Chip) (lane : Nat) : List Rx := tget [] c.dp.rx lane
def Chip.setRx (c : Chip) (lane : Nat) (l : List Rx) : Chip := c.setDp fun d => { d with rx := tput [] d.rx lane l }

/-- Line time of the inter-frame gap and preamble: 20 bytes (R13). -/
def Chip.gap (c : Chip) (lane : Nat) : Nat := c.byteTime lane 20

/-- The earliest start of a next frame after those that the line is committed to, from `t`. Log 44 (DESIGN CHOICE). -/
def Chip.lineFree (c : Chip) (lane t : Nat) : Nat := (c.txOf lane).foldl (fun a x => max a (x.stop + c.gap lane)) t

/-- Pauses of a lane and priority (8: PAUSE). -/
def Chip.pausesOf (c : Chip) (lane q : Nat) : List PauseIv := tget [] c.dp.pauses (lane * 16 + q)

/-- The end of the pause in force at a time: that of the newest one honoured (R234). -/
def pauseAt (l : List PauseIv) (t : Nat) : Option Nat :=
  match (l.filter fun i => decide (i.from_ ≤ t)).getLast? with
  | some i => if t < i.until_ then some i.until_ else none
  | none => none

/-- The first time from `t` at which no pause of the list is in force, by fuel. -/
def pauseEnd (l : List PauseIv) : Nat → Nat → Nat
  | 0, t => t
  | n + 1, t => match pauseAt l t with | some u => pauseEnd l n u | none => t

/-- The first time from `t` at which PAUSE lets a port start a frame. -/
def Chip.unheld (c : Chip) (lane t : Nat) : Nat := pauseEnd (c.pausesOf lane 8) ((c.pausesOf lane 8).length + 1) t

/-- The first time from `t` at which a port may start a frame of priority `q`. -/
def Chip.unpaused (c : Chip) (lane q t : Nat) : Nat :=
  let b := c.pausesOf lane q
  c.unheld lane (pauseEnd b (b.length + 1) (c.unheld lane t))

/-- Preemption is active on a port (R237). Log 47 (DESIGN CHOICE). -/
def Chip.preempting (c : Chip) (lane : Nat) : Bool := c.fld (lane / 64) (R.macPortPmp (lane % 64)) 10 2 == 2

/-- Where an express frame of `n` bytes may start from `t` on a line whose tenant frame `x` may be cut (R238):
its start, the tenant frame after it, and whether this is its first cut; none where it cannot be cut. A tenant frame that
is suspended stays so. Log 47 (DESIGN CHOICE). -/
def Chip.cutTenant (c : Chip) (lane t n : Nat) (x : Tx) : Option (Nat × Tx × Bool) :=
  let bt := c.byteTime lane
  let len := x.len
  let frag := x.stop - bt (len - x.fragFrom)
  let after := fun (start from_ : Nat) => start + bt n + c.gap lane + bt (len - from_)
  if t < frag ∨ (t = frag ∧ x.frags ≠ 0) then some (t, { x with stop := after t x.fragFrom }, false)
  else
    let sent := max 60 (ceilDiv ((t - frag) * 25 * c.portWidth lane) 65536)
    let left := len - x.fragFrom - sent
    if left < 64 ∨ 3 ≤ x.frags then none
    else
      let start := frag + bt (sent + 4) + c.gap lane
      some (start, { x with fragFrom := x.fragFrom + sent, frags := x.frags + 1, stop := after start (x.fragFrom + sent) }, x.frags == 0)

/-- The earliest start from `t` of an express frame of `n` bytes, `free` giving the first time that no pause holds it; the
line it leaves; whether a tenant frame is cut for the first time (R238). Without active preemption it waits for the line. -/
def Chip.expressStart (c : Chip) (lane n t : Nat) (free : Nat → Nat) : Nat × List Tx × Bool :=
  let line := c.txOf lane
  let plain := (free (c.lineFree lane t), line, false)
  if !c.preempting lane then plain
  else
    match line.find? fun x => !x.through && (c.pkt x.pkt).isSome with
    | none => plain
    | some x =>
      let t0 := free ((line.filter fun y => y.through).foldl (fun a y => max a (y.stop + c.gap lane)) t)
      if x.stop + c.gap lane ≤ t0 then plain
      else
        match c.cutTenant lane t0 n x with
        | none => plain
        | some (s, x', cut) => (s, line.map fun y => if y.pkt = x.pkt then x' else y, cut)

/-- The earliest start of a held through packet on its port from `t` (R59, R238), and the line it leaves. Log 44 (DESIGN CHOICE). -/
def Chip.throughStart (c : Chip) (p : Pkt) (lane t : Nat) : Nat × List Tx × Bool :=
  let free := c.unpaused lane (c.fld (lane / 64) (R.macPortFc (lane % 64)) 18 3)
  if p.urgent then c.expressStart lane p.len t free else (free (c.lineFree lane t), c.txOf lane, false)

/-- Packets held for a port, with their departure times. -/
def Chip.heldFor (c : Chip) (lane : Nat) : List (Nat × Pkt) :=
  c.dp.pkts.filterMap fun p => match p.stage with | .held d => if p.dst = lane then some (d, p) else none | _ => none

/-- A frame of `n` bytes that starts at `start`, its gap and the next preamble end before every held departure of the port
(R58). -/
def Chip.fitsLine (c : Chip) (lane start n : Nat) : Bool :=
  (c.heldFor lane).all fun h => decide (start + c.byteTime lane n + c.gap lane ≤ h.1)

/-- With the line `new` no held departure of the port starts later than with the present one (R236). -/
def Chip.keepsHeld (c : Chip) (lane : Nat) (new : List Tx) : Bool :=
  (c.heldFor lane).all fun h => decide (((c.setTx lane new).throughStart h.2 lane h.1).1 ≤ (c.throughStart h.2 lane h.1).1)

/-! ### The port's own frames (R236, R417) -/

/-- An own frame as the port sends it, without FCS: an HSP frame secured like any other of the port (R256). Log 60 (PRESUMED). -/
def Chip.ownFrame (c : Chip) (lane : Nat) (o : Own) : Except Nat Bytes × Chip :=
  match o with
  | .fc .. => (.ok (List.replicate 60 0), c)
  | .hsp f => c.macsecTx lane none f .clean

/-- An own frame leaves with the bytes `b`: counted. -/
def Own.leave (lane : Nat) (o : Own) (b : Bytes) (c : Chip) : Chip :=
  match o with
  | .fc q quanta => (c.emit (.pause lane (q != 8) (if q = 8 then 0 else 2 ^ q) quanta)).macCount lane 16
  | .hsp _ => ((c.emit (.frame lane b false)).macCount lane 12).macCount lane 13 (b.length + 4)

/-- Flow control goes before HSP frames: it is express. -/
def Own.next (l : List Own) : Option Own :=
  match l.find? fun o => match o with | .fc .. => true | .hsp _ => false with
  | some o => some o
  | none => l.head?

/-- The next own frame of a port leaves if its opening has come: the line is free or, for flow control on a port with active
preemption, can be cut; no honoured PAUSE is in force; it fits before every held departure and makes none later (R236, R238,
R417). One that cannot be secured is dropped. Logs 12 (DEDUCED), 44 (DESIGN CHOICE). -/
def Chip.ownStep (c : Chip) (lane : Nat) : Chip :=
  let l := tget [] c.dp.own lane
  match Own.next l with
  | none => c
  | some o =>
    let gone := fun (c : Chip) => c.setDp fun d => { d with own := tput [] d.own lane (l.erase o) }
    let (start, line, cut) := match o with
      | .fc .. => c.expressStart lane 64 c.now (c.unheld lane)
      | .hsp _ => (c.unheld lane (c.lineFree lane c.now), c.txOf lane, false)
    if !c.portUp lane || !(c.due start || line != c.txOf lane) then c
    else
      match c.ownFrame lane o with
      | (.error e, c') => (gone c').count (lane / 64) (R.bufDropTotal e)
      | (.ok b, c') =>
        let n := b.length + 4
        let line := line ++ [⟨c.dp.nextPkt, start, start + c.byteTime lane n, n, true, 0, 0⟩]
        if !c.fitsLine lane start n || !c.keepsHeld lane line then c
        else
          let c := if cut then c'.macCount lane 17 else c'
          o.leave lane b (((gone c).setTx lane line).setDp fun d => { d with nextPkt := d.nextPkt + 1 })

/-- Sends what own frames of a port may leave now. -/
def Chip.ownFlush (c : Chip) (lane : Nat) : Chip := (tget [] c.dp.own lane).foldl (fun c _ => c.ownStep lane) c

/-- Gives a port an own frame to send at the first opening. -/
def Chip.sendOwn (c : Chip) (lane : Nat) (o : Own) : Chip :=
  (c.setDp fun d => { d with own := tput [] d.own lane (tget [] d.own lane ++ [o]) }).ownFlush lane

/-- Generates PAUSE or PFC for one priority (8 for PAUSE) of a port as its cell count stands (R236). -/
def Chip.fcOne (c : Chip) (lane q : Nat) : Chip :=
  let d := lane / 64
  let p := lane % 64
  let n := c.fcCells lane (if q = 8 then none else some q)
  let key := lane * 16 + q
  let sent := c.dp.xoff.contains key
  if !sent && decide (c.fld d (R.macPortFcthr p) 0 16 < n) then
    (c.setDp fun s => { s with xoff := s.xoff ++ [key] }).sendOwn lane (.fc q 0xFFFF)
  else if sent && decide (n ≤ c.fld d (R.macPortFcthr p) 16 16) then
    (c.setDp fun s => { s with xoff := s.xoff.filter (· != key) }).sendOwn lane (.fc q 0)
  else c

/-- Generates flow control of a port (R236); a port whose link is down sends nothing. -/
def Chip.fcPort (c : Chip) (lane : Nat) : Chip :=
  if !c.portUp lane then c
  else
    match c.fld (lane / 64) (R.macPortFc (lane % 64)) 16 2 with
    | 1 => c.fcOne lane 8
    | 2 => (List.range 8).foldl (fun c q => c.fcOne lane q) c
    | _ => c

/-- Counts a drop on die `d` (R217): the code's total, the pair with its source, and the pair with the destination
instance where the drop is at or after admission to one. A buffer block whose gate is closed counts nothing (R478). -/
def Chip.countDrop (c : Chip) (d reason : Nat) (srcInst : Bool) (src : Nat) (dest : Option Nat) : Chip :=
  let key := fun (k i : Nat) => ((d * 256 + reason) * 2 + k) * 4096 + i
  if !c.gateOpen d 5 then c else
  let c := c.count d (R.bufDropTotal reason)
  let c := c.setTb fun t => { t with drops := tmod 0 t.drops (key (b2n srcInst) src) fun v => satAdd 32 v 1 }
  match dest with
  | none => c
  | some i =>
    if srcInst && i == src then c
    else c.setTb fun t => { t with drops := tmod 0 t.drops (key 1 i) fun v => satAdd 32 v 1 }

/-- Puts a receive buffer back into a list kept in posting order. -/
def putBuf (l : List RxBuf) (b : RxBuf) : List RxBuf :=
  (l.takeWhile fun q => decide (q.index < b.index)) ++ b :: l.dropWhile fun q => decide (q.index < b.index)

/-- The buffers reserved for a packet that is not delivered stay on the list of its instance (R399). -/
def Chip.backBufs (c : Chip) (p : Pkt) : Chip :=
  if !p.dstInst || p.bufs.isEmpty || (c.inst p.dst).st == .resetting || (c.inst p.dst).st == .free then c
  else c.setChan p.dst { c.chan p.dst with rx := p.bufs.foldl putBuf (c.chan p.dst).rx }

/-- Drops a packet on the die where it is (R217): counted, its verdict made, its cells, buffers and epoch released. `atQueue`: at
or after admission. A packet that had not entered a Headgate makes no verdict record; a frame of the part's own has no
source and counts in the code's total alone. Log 40 (DESIGN CHOICE). -/
def Chip.dropPkt (c : Chip) (p : Pkt) (reason : Nat) (atQueue : Bool := false) : Chip :=
  let c := (c.delPkt p.id).backBufs p
  let c := if p.stage == .queued then c.settleQueue p.dstInst p.dst p.tc else c
  if p.gen then c.count p.die (R.bufDropTotal reason)
  else
    let c := c.countDrop p.die reason p.srcInst p.src (if atQueue && p.dstInst && p.dst != 0xFFFF then some p.dst else none)
    let c := if reason = Dr.instanceReset then c.count p.die (R.insEvtCnt 2) else c
    let c := if reason = Dr.scanBusy then c.count p.die R.hgtScanBusyCnt else c
    let c := if p.stage == .arrived then c else c.verdict p.die { p with txTime := 0 } p.dispCode { reason := reason }
    let c := c.sendStamp p 0
    if p.srcInst then c else c.fcPort p.src

/-- Whether every block the owner stage needs runs on a die: table, engine and cipher-scheduling (R65). Log 46 (DEDUCED). -/
def Chip.ownerBlocks (c : Chip) (d : Nat) : Bool := c.en d 4 && c.en d 11 && c.en d 9

/-- Admits a packet on die `d` to its destination and class, or drops it (R193); its epoch is released (R115). A tenant
packet of an owner die one of whose blocks of R65 is disabled is dropped. -/
def Chip.admitPkt (c : Chip) (p : Pkt) (d : Nat) : Chip :=
  if !c.ownerBlocks d then c.dropPkt p Dr.blockDisabled
  else
  let p := { p with die := d, holdsEpoch := false, qdepth := c.poolUsed d (ofDest p.dstInst p.dst) }
  match c.takeIn d p.dstInst p.dst p.tc p.cells with
  | .drop r => c.dropPkt p r true
  | .onDie => c.enqueueAs p d false
  | .spilled => c.enqueueAs p d true

end Sys2Proof.Machine
end

