-- ==== Sys2Proof/Machine/Parse.lean ====
section
/-! DEFINITION. The parse graph and its walk (spec/03), the pattern matcher (R127–R135). -/

namespace Sys2Proof.Machine

/-! ### Node records and transitions (R76, R77) -/

/-- Fields of a node record `r`. -/
def Node.selOffset (r : Nat) : Nat := bitsN r 0 9
def Node.selWidth (r : Nat) : Nat := bitsN r 9 5 + 1
def Node.selEn (r : Nat) : Bool := bitN r 14
def Node.transCount (r : Nat) : Nat := bitsN r 16 5
def Node.defaultNext (r : Nat) : Nat := bitsN r 24 8
def Node.selMask (r : Nat) : Nat := bitsN r 32 32
def Node.advKind (r : Nat) : Nat := bitsN r 64 2
def Node.advConst (r : Nat) : Nat := bitsN r 66 9
def Node.advOffset (r : Nat) : Nat := bitsN r 75 9
def Node.advWidth (r : Nat) : Nat := bitsN r 84 4 + 1
def Node.advUnit (r : Nat) : Nat := 2 ^ bitsN r 88 3
def Node.advMask (r : Nat) : Nat := bitsN r 96 16
def Node.terminal (r : Nat) : Bool := bitN r 128
def Node.inner (r : Nat) : Bool := bitN r 129
def Node.markEn (r : Nat) : Bool := bitN r 130
def Node.markSlot (r : Nat) : Nat := bitsN r 132 3
def Node.errCode (r : Nat) : Nat := bitsN r 136 8

/-- An extraction of a node record. -/
structure Extract where
  src : Nat
  len : Nat
  dst : Nat
  layered : Bool
deriving DecidableEq, Repr

/-- The enabled extractions of a node record, in order. -/
def Node.extracts (r : Nat) : List Extract :=
  (List.range 8).filterMap fun i =>
    let x := bitsN r (160 + 32 * i) 32
    if bitN x 20 then some ⟨bitsN x 0 9, bitsN x 9 4 + 1, bitsN x 13 7, bitN x 21⟩ else none

/-- The check of R71 on a loaded node record: references below the node count, field ranges. `ts`: its transitions, of which
those in use alone are checked, since R77 has the others not read. Log 75 (DESIGN CHOICE). -/
def Node.valid (count r : Nat) (ts : List Nat) : Bool :=
  decide (Node.defaultNext r < count) && decide (Node.transCount r ≤ 16) && decide (Node.advKind r < 2) &&
    (ts.take (Node.transCount r)).all (fun t => decide (bitsN t 64 8 < count)) &&
    (Node.extracts r).all (fun x => decide (x.dst + x.len ≤ 128) && !(x.layered && decide (64 < x.dst + x.len))) &&
    !(decide (0 < Node.errCode r) && decide (Node.errCode r < 0x10))

/-! ### The walk (R78–R82) -/

/-- State of a walk. Header marks are eight numbers, 0x3FF for none. -/
structure Walk where
  steps : Nat
  base : Nat
  inner : Bool
  nested : Bool
  innerOffset : Nat
  marks : List Nat
  kv : Bytes
deriving DecidableEq, Repr

/-- The walk's start: base 0, outer layer, key vector of zeros. -/
def Walk.start : Walk := ⟨0, 0, false, false, 0x3FF, List.replicate 8 0x3FF, List.replicate 128 0⟩

/-- Parse metadata (R82). -/
def Walk.metadata (w : Walk) (err last : Nat) : Nat :=
  err + w.steps * 2 ^ 8 + b2n w.inner * 2 ^ 13 + b2n w.nested * 2 ^ 14 + last * 2 ^ 16 + w.base * 2 ^ 24
    + w.innerOffset * 2 ^ 34 + ((List.range 8).map fun k => (w.marks.getD k 0x3FF) * 2 ^ (44 + 10 * k)).sum

/-- Highest byte offset a node reads at a base, plus one; 0 if it reads none (R78 step 2). A terminal node's select field,
which R79 has not read, is not counted. Log 75 (DESIGN CHOICE). -/
def Node.reach (r base : Nat) : Nat :=
  let ex := (Node.extracts r).map fun x => base + x.src + x.len
  let err := Node.errCode r ≠ 0
  let sel := if !err && Node.selEn r && !Node.terminal r then [base + Node.selOffset r + ceilDiv (Node.selWidth r) 8] else []
  let adv := if !err && Node.advKind r == 1 then [base + Node.advOffset r + ceilDiv (Node.advWidth r) 8] else []
  (ex ++ sel ++ adv).foldl max 0

/-- The advance of a node at a base; none where its field passes the window. -/
def Node.advance (r : Nat) (frame : Bytes) (wlen base : Nat) : Option Nat :=
  if Node.advKind r = 1 then
    let o := base + Node.advOffset r
    if wlen < o + ceilDiv (Node.advWidth r) 8 then none
    else some ((bitFieldBE frame (8 * o) (Node.advWidth r) &&& Node.advMask r) * Node.advUnit r + Node.advConst r)
  else some (Node.advConst r)

/-- The next node (R78 step 9). -/
def Node.next (r : Nat) (trans : Nat → Nat) (frame : Bytes) (base : Nat) : Nat :=
  if Node.selEn r then
    let v := bitFieldBE frame (8 * (base + Node.selOffset r)) (Node.selWidth r) &&& Node.selMask r
    match (List.range (Node.transCount r)).find? fun j =>
        let t := trans j
        v &&& bitsN t 32 32 == bitsN t 0 32 &&& bitsN t 32 32 with
    | some j => bitsN (trans j) 64 8
    | none => Node.defaultNext r
  else Node.defaultNext r

/-- Header mark, inner layer and extractions of a node (R78 steps 3 to 5, R81). -/
def Node.apply (r : Nat) (frame : Bytes) (w : Walk) : Walk :=
  let w := if Node.inner r then
      { w with nested := w.nested || w.inner, inner := true, innerOffset := w.base
               kv := w.kv.take 64 ++ List.replicate 64 0 } else w
  let w := if Node.markEn r then { w with marks := w.marks.set (Node.markSlot r) w.base } else w
  (Node.extracts r).foldl (fun w x =>
    { w with kv := splice w.kv (x.dst + if x.layered && w.inner then 64 else 0) (slice frame (w.base + x.src) x.len) }) w

/-- Word `w` of the parse memories (as WALK_BEGIN numbers them) is read at a node with record `r`: its record, or one of
its transitions in use (R77, R79). -/
def Node.readsWord (r node w : Nat) : Bool :=
  w == node || (decide (256 ≤ w) && (w - 256) / 16 == node && decide ((w - 256) % 16 < Node.transCount r) && Node.selEn r &&
    !Node.terminal r && Node.errCode r == 0)

/-- The walk from a node, by fuel (24 steps): the walk's state at its end, the parse error and the last node. `mem`
names the word of the parse memories that reads uncorrectable (R72, R85). -/
def walkFrom (nodes trans : Tab Nat) (frame : Bytes) (n : Nat) (mem : Option Nat) : Nat → Nat → Nat → Walk → Walk × Nat × Nat
  | 0, _, prev, w => (w, 0x01, prev)
  | fuel + 1, node, _, w =>
    let wlen := min 512 n
    let r := tget 0 nodes node
    let w' := { w with steps := w.steps + 1 }
    if (match mem with | some m => Node.readsWord r node m | none => false) then (w', 0x04, node)
    else
      let err := Node.errCode r
      let nb := if err ≠ 0 then some w.base else (Node.advance r frame wlen w.base).map (w.base + ·)
      let reach := Node.reach r w.base
      let past := fun (lim : Nat) => decide (lim < reach) || (match nb with | some b => decide (lim < b) | none => false)
      if past 512 then (w', 0x02, node)
      else if past wlen then (w', 0x03, node)
      else
        let w' := Node.apply r frame w'
        if err ≠ 0 then (w', err, node)
        else
          let base := w.base
          let w' := { w' with base := nb.getD base }
          if Node.terminal r then (w', 0, node)
          else walkFrom nodes trans frame n mem fuel (Node.next r (fun j => tget 0 trans (16 * node + j)) frame base) node w'

/-- The walk of a frame of `n` bytes before its FCS from a start node: key vector and metadata (R78, R82). -/
def parseWalk (nodes trans : Tab Nat) (frame : Bytes) (n start : Nat) (mem : Option Nat) : Bytes × Nat :=
  let (w, err, last) := walkFrom nodes trans frame n mem 24 start start Walk.start
  (w.kv, w.metadata err last)

/-- Fields of the parse metadata. -/
def Md.err (m : Nat) : Nat := bitsN m 0 8
def Md.innerSeen (m : Nat) : Bool := bitN m 13
def Md.lastNode (m : Nat) : Nat := bitsN m 16 8
def Md.payload (m : Nat) : Nat := bitsN m 24 10
def Md.innerOffset (m : Nat) : Nat := bitsN m 34 10
def Md.mark (m k : Nat) : Nat := bitsN m (44 + 10 * k) 10

/-! ### The pattern matcher (R127–R135) -/

/-- Whether a packet is scanned (R131): by its source; never from a through-facing port. -/
def Chip.scanned (c : Chip) (p : Pkt) : Bool :=
  if p.reinjected then c.bit p.die R.hgtScanCfg 6
  else if p.srcInst then c.bit p.die R.hgtScanCfg 5
  else
    let i := p.src % 64
    !c.throughFacing p.src && c.bit p.die (if i < 32 then R.hgtScanPortEnLo else R.hgtScanPortEnHi) (i % 32)

/-- The bytes of a packet that are scanned (R129); none with an empty automaton, which reports 0 for every packet (R127): nothing of
the automaton store is then read, whatever R133 says of a read in error. Log 59 (DESIGN CHOICE). -/
def Chip.scanBytes (c : Chip) (p : Pkt) : Bytes :=
  if c.fld 0 R.hgtAutomatonInfo 0 17 = 0 then []
  else (p.frame.take (Md.payload p.md + 64 * c.fld p.die R.hgtScanCfg 0 5)).drop (Md.payload p.md)

/-- The match identifier of a packet (R128–R130): the lowest identifier the automaton reports within the scanned range;
0 for none, for an empty automaton, or where nothing is scanned. -/
def Chip.matchOf (c : Chip) (p : Pkt) : Nat :=
  let s := c.scanBytes p
  if s.isEmpty then 0
  else ((List.range 0xFFFF).find? fun i => decide (0 < i) && Config.automatonMatches c.dp.automaton i s).getD 0

/-! ### Commands -/

/-- The parser, classification, Headgate and buffer blocks of a die run (R87, R126, R188). Logs 42 (DESIGN CHOICE), 46 (DEDUCED). -/
def Chip.arrivalBlocks (c : Chip) (d : Nat) : Bool := c.en d 0 && c.en d 1 && c.en d 2 && c.en d 5

/-- The current epoch slot (R104). -/
def Chip.curSlot (c : Chip) : Nat := (c.rl.slots.findIdx fun s => s.st == .current)

/-- Counts a parse error (R86): its code on the die that walked the packet, and once against the ingress port or host
endpoint, on its die. -/
def Chip.parseError (c : Chip) (p : Pkt) (err : Nat) : Chip :=
  if err = 0 then c
  else
    let c := c.count p.die (R.pgrErrCnt err)
    if p.srcInst then c.count (p.src / 512) (R.pgrHostErr ((c.inst p.src).port % 4)) else c.count (p.src / 64) (R.pgrPortErr (p.src % 64))

/-- The word of the parse memories that reads uncorrectable, of an error of WALK_BEGIN. -/
def badWord : Option (Nat × ScrubOutcome) → Option Nat
  | some (w, .uncorrectable) => some w
  | _ => none

/-- Reports a parse memory word that reads in error, if the walk reads it (R72, R502). -/
def Chip.walkRead (c : Chip) (p : Pkt) (mem : Option (Nat × ScrubOutcome)) : Chip :=
  match mem with
  | none => c
  | some (w, found) =>
    if Md.err (parseWalk c.dp.nodes c.dp.trans p.frame p.frame.length p.start (some w)).2 = 0x04 then
      c.readCheck p.die false found { block := 0, addr := if w < 256 then 0x10000 + 64 * w else 0x20000 + 16 * (w - 256) }
    else c

/-- Enters a packet into a Headgate: its epoch is latched and counted on its slot (unless it carries one: re-injection,
R40, R114, R125), it is sampled (R522), walked, and sent to the matcher's queue or on to the ingress stage. Log 59 (DESIGN CHOICE). -/
def Chip.headgate (c : Chip) (p : Pkt) (memErr : Option (Nat × ScrubOutcome)) : Chip :=
  let s := c.curSlot
  let p := if p.reinjected then p else { p with slot := s, epoch := (c.rl.slots.getD s ⟨0, .current, false⟩).epoch }
  let p := { p with holdsEpoch := true }
  let c := if p.reinjected then c
    else c.setRl fun r => { r with epcPkts := tmod 0 r.epcPkts (p.die * 4 + p.slot) fun n => wrapAdd 64 n 1 }
  let (p, c) := if p.reinjected then (p, c) else c.sample p
  let (kv, md) := parseWalk c.dp.nodes c.dp.trans p.frame p.frame.length p.start (badWord memErr)
  let p := { p with kv := kv, md := md, matchId := 0 }
  let c := (c.parseError p (Md.err md)).walkRead p memErr
  if c.scanned p then
    if 2048 ≤ (c.dp.pkts.filter fun q => q.die == p.die && q.stage == .scan).length then
      (c.setPkt { p with stage := .walked }).dropPkt { p with stage := .walked } Dr.scanBusy
    else c.move p .scan
  else c.move p .walked

/-- An arrival may begin its walk: it has a Headgate's slot, or takes one now as the first that waits for one (R41, R43). -/
def Chip.slotFor (c : Chip) (p : Pkt) : Option Chip :=
  match p.gate with
  | some _ => some c
  | none =>
    if !c.first p (fun q => q.die == p.die && q.stage == .arrived && q.gate.isNone) then none
    else ((c.gateOrder p.die).find? fun g => !c.gateKept p.die g).map fun g => c.takeGate p.die g false

/-- WALK_BEGIN (R75): the packet at the head of its source's arrivals enters the Headgate. With a block of the die
disabled it is dropped (R87, R126, R188). A frame shorter than 516 bytes is wholly received first (R230). -/
def walkBegin (id : Nat) (memErr : Option (Nat × ScrubOutcome)) (c : Chip) : Chip :=
  match c.pkt id with
  | none => c
  | some p =>
    if p.stage != .arrived || !c.alive || (decide (p.len < 516) && !p.whole) ||
        !c.first p (fun q => q.die == p.die && q.stage == .arrived && q.srcInst == p.srcInst && q.src == p.src) then c
    else
      match c.slotFor p with
      | none => c
      | some c => if !c.arrivalBlocks p.die then c.dropPkt p Dr.blockDisabled else c.headgate p memErr

/-- SCAN_RESULT_READY (R132): results come in dispatch order of the die. An uncorrectable automaton read gives
0xFFFF (R133), where anything is scanned (R127, R129). -/
def scanResultReady (id : Nat) (memErr : ScrubOutcome) (c : Chip) : Chip :=
  match c.pkt id with
  | none => c
  | some p =>
    if p.stage != .scan || !c.alive || !c.first p (fun q => q.die == p.die && q.stage == .scan) then c
    else
      let read := !(c.scanBytes p).isEmpty
      let c := if read then c.readCheck p.die false memErr { block := 1 } else c
      c.move { p with matchId := if read && memErr == .uncorrectable then 0xFFFF else c.matchOf p } .walked

end Sys2Proof.Machine
end

