-- ==== Sys2Proof/Machine/Hash.lean ====
section
/-! DEFINITION. The key source space (R92), the symmetric flow hash (R136–R142), flow keys (R158, R159) and owner
dies (R33). -/

namespace Sys2Proof.Machine

/-! ### Key source space -/

/-- The 168 source bytes of a packet (R92), with a hash. -/
def Chip.source (c : Chip) (p : Pkt) (hash : Nat) : Bytes :=
  p.kv ++ toBE 16 p.md
    ++ toBE 2 (if p.srcInst then 0xFFFF else p.src) ++ toBE 2 (if p.srcInst then p.src else 0xFFFF)
    ++ toBE 1 p.inDie
    ++ toBE 1 (128 * b2n p.srcInst + 64 * b2n (!p.srcInst && c.throughFacing p.src) + 32 * b2n p.reinjected)
    ++ List.replicate 10 0 ++ toBE 2 p.matchId ++ toBE 4 hash ++ List.replicate 2 0

/-- Key profile of a packet (R93). -/
def Chip.profile (c : Chip) (p : Pkt) : Nat := c.fld p.die (R.clsProfileMap (Md.lastNode p.md)) 0 4

/-! ### Toeplitz hash (R140) -/

/-- Toeplitz hash of an input under a 320-bit key: for each set input bit j, the key bits j to j + 31, taken modulo
320, are exclusive-ORed in. -/
def toeplitz (key : Nat) (input : Bytes) : Nat :=
  let dbl := key * 2 ^ 320 + key
  ((bytesBits input).zipIdx).foldl (fun h b => if b.1 then h ^^^ (dbl / 2 ^ (608 - b.2 % 320) % 2 ^ 32) else h) 0

/-- The hash key of a die: byte 0 first. -/
def Chip.hashKey (c : Chip) (d : Nat) : Nat := (List.range 10).foldl (fun a w => a * 2 ^ 32 + c.rd d (R.hgtHashKey w)) 0

/-! ### Hash profiles (R137–R139) -/

/-- Lengths of the address and of the port fields of a form; none for a form without addresses. -/
def formLens (form : Nat) : Option (Nat × Nat) :=
  match form with
  | 1 => some (4, 0)
  | 2 => some (4, 2)
  | 3 => some (16, 0)
  | 4 => some (16, 2)
  | 5 => some (6, 0)
  | _ => none

/-- What a hash profile builds: key_kind, the hash input, and the packet's direction (R159). -/
structure HashIn where
  kind : Nat
  input : Bytes
  dir : Nat
deriving DecidableEq, Repr

/-- The hash input of profile `k` of die `d` over a key source space. -/
def Chip.hashIn (c : Chip) (d k : Nat) (s : Bytes) : HashIn :=
  let pr := c.rd d (R.hgtHashProf k)
  let sr := c.rd d (R.hgtHashSrc k)
  let form := bitsN pr 0 3
  match formLens form with
  | none => ⟨0, [], 0⟩
  | some (al, pl) =>
    let a := slice s (bitsN pr 8 8) al
    let b := slice s (bitsN pr 16 8) al
    let pa := slice s (bitsN sr 0 8) pl
    let pb := slice s (bitsN sr 8 8) pl
    let tag := if bitN pr 3 then
        let n := bitsN pr 4 2 + 1
        List.replicate (4 - n) 0 ++ slice s (bitsN pr 24 8) n
      else []
    let sort := fun (x y : Bytes) => if beNat x ≤ beNat y then x ++ y else y ++ x
    let typ := if form = 5 then slice s (bitsN sr 16 8) 2 else []
    let dir := if beNat a < beNat b ∨ (beNat a = beNat b ∧ beNat pa ≤ beNat pb) then 0 else 1
    ⟨form + 8 * b2n (bitN pr 3), tag ++ sort a b ++ sort pa pb ++ typ, dir⟩

/-- The flow key (R158): 40 bytes of zero-padded input. -/
def HashIn.key (h : HashIn) : Bytes := slice h.input 0 40

/-- Length of the hash input that a key_kind stands for. -/
def kindLen (kind : Nat) : Nat :=
  (if bitN kind 3 then 4 else 0) +
  (match bitsN kind 0 3 with
   | 1 => 8
   | 2 => 12
   | 3 => 32
   | 4 => 36
   | 5 => 14
   | _ => 0)

/-- Symmetric flow hash of a flow key (R140, R158). -/
def Chip.keyHash (c : Chip) (d kind : Nat) (key : Bytes) : Nat :=
  if bitsN kind 0 3 = 0 then 0 else toeplitz (c.hashKey d) (key.take (kindLen kind))

/-- Owner die of a hash (R33): the entry of die `d`'s indirection table. Log 52 (DESIGN CHOICE). -/
def Chip.ownerDie (c : Chip) (d hash : Nat) : Nat :=
  let j := hash % 256
  c.fld d (R.hgtIndir (j / 8)) (4 * (j % 8)) 3

/-- The hash profile checks of R141 for profile `k` of a die: form in range, used fields within bytes 0–149. -/
def Chip.hashProfileOk (c : Chip) (d k : Nat) : Bool :=
  let pr := c.rd d (R.hgtHashProf k)
  let sr := c.rd d (R.hgtHashSrc k)
  let form := bitsN pr 0 3
  let ok := fun (src len : Nat) => decide (src + len ≤ 150)
  match formLens form with
  | none => form == 0
  | some (al, pl) =>
    ok (bitsN pr 8 8) al && ok (bitsN pr 16 8) al && (pl == 0 || (ok (bitsN sr 0 8) pl && ok (bitsN sr 8 8) pl)) &&
      (form != 5 || ok (bitsN sr 16 8) 2) && (!bitN pr 3 || ok (bitsN pr 24 8) (bitsN pr 4 2 + 1))

/-- Member of a group of `n` that a hash chooses (R142). -/
def memberOf (hash n : Nat) : Nat := bitsN hash 8 16 * n / 2 ^ 16

/-- Engine that a hash chooses on a die: the even engine of a pair in paired mode (R142, R308). -/
def Chip.engineOf (c : Chip) (d hash : Nat) : Nat :=
  if c.bit d R.dreCtrl 2 then bitsN hash 27 5 * 2 else bitsN hash 26 6

end Sys2Proof.Machine
end

