-- ==== Sys2Proof/Machine/Exact.lean ====
section
/-! DEFINITION. The exact-match tables as cuckoo tables (R147–R157): buckets, lookup, the search for a path of moves,
insertion. A table is sparse over bucket × 4 + slot. -/

namespace Sys2Proof.Machine

/-- The two buckets of a key among `nb` (R148). -/
def buckets (nb : Nat) (key : Bytes) : Nat × Nat :=
  let b1 := (crc32c key).toNat * nb / 2 ^ 32
  let b2 := (crc32 key).toNat * nb / 2 ^ 32
  (b1, if b2 = b1 then (b1 + 1) % nb else b2)

/-- The entries of a bucket, by slot. -/
def bucketSlots {α : Type} (t : Tab (Option α)) (b : Nat) : List (Option α) := (List.range 4).map fun i => tget none t (4 * b + i)

/-- The lowest free slot of a bucket. -/
def freeSlot {α : Type} (t : Tab (Option α)) (b : Nat) : Option Nat := (bucketSlots t b).findIdx? Option.isNone

/-- The places of a key's two buckets whose entry `q` picks. -/
def exactPlaces {α : Type} (nb : Nat) (t : Tab (Option α)) (key : Bytes) (q : α → Bool) : List (Nat × α) :=
  let (b1, b2) := buckets nb key
  ([b1, b2].flatMap fun b => (List.range 4).map fun i => 4 * b + i).filterMap fun k =>
    match tget none t k with
    | some e => if q e then some (k, e) else none
    | none => none

/-- The other bucket of a key that sits in bucket `b`. -/
def altBucket (nb : Nat) (key : Bytes) (b : Nat) : Nat :=
  let (b1, b2) := buckets nb key
  if b = b1 then b2 else b1

/-- The search for a path (R155), by fuel (eight steps): the places to be moved in order, and the free place. The last
occupant takes the lowest free slot of its alternate bucket, where R155 names none. Log 76 (DESIGN CHOICE). -/
def cuckooPath {α : Type} (nb : Nat) (keyOf : α → Bytes) (t : Tab (Option α)) (s0 : Nat) :
    Nat → Nat → Nat → Option Nat → List Nat → Option (List Nat × Nat)
  | 0, _, _, _, _ => none
  | fuel + 1, step, cur, left, path =>
    let occ := fun (i : Nat) => tget none t (4 * cur + i)
    let alt := fun (i : Nat) => match occ i with | some e => altBucket nb (keyOf e) cur | none => cur
    match (List.range 4).find? fun i => (occ i).isSome && (freeSlot t (alt i)).isSome with
    | some i => some (path ++ [4 * cur + i], 4 * alt i + (freeSlot t (alt i)).getD 0)
    | none =>
      match ((List.range 4).map fun j => (s0 + step + j) % 4).find? fun i =>
          !(left == some (alt i)) && !path.contains (4 * cur + i) with
      | none => none
      | some i => cuckooPath nb keyOf t s0 fuel (step + 1) (alt i) (some cur) (path ++ [4 * cur + i])

/-- Runs a path of moves from its far end backwards (R156); answers the table with the first place free. -/
def cuckooMove {α : Type} [DecidableEq α] (t : Tab (Option α)) : List Nat → Nat → Tab (Option α)
  | [], _ => t
  | k :: ks, free => let t' := tput none t free (tget none t k); cuckooMove (tput none t' k none) ks k

/-- Inserts an entry (R155, R156): the table, the place taken and the number of moves; none for INSERT_FAILED, which
leaves the table as it was. -/
def cuckooInsert {α : Type} [DecidableEq α] (nb : Nat) (keyOf : α → Bytes) (t : Tab (Option α)) (e : α) : Option (Tab (Option α) × Nat) :=
  let key := keyOf e
  let (b1, b2) := buckets nb key
  match freeSlot t b1, freeSlot t b2 with
  | some i, _ => some (tput none t (4 * b1 + i) (some e), 0)
  | none, some i => some (tput none t (4 * b2 + i) (some e), 0)
  | none, none =>
    match cuckooPath nb keyOf t ((crc32 key).toNat % 4) 8 1 b1 none [] with
    | none => none
    | some (path, free) =>
      some (tput none (cuckooMove t path.reverse free) (path.headD 0) (some e), path.length)

/-! ### Visibility (R105) -/

/-- Order of a slot's epoch among the live ones. -/
def epochOrd (slots : List Slot) (s : Nat) : Nat :=
  let get := fun (i : Nat) => (slots.getD i ⟨0, .free, false⟩)
  let cur := ((slots.find? fun s => s.st == .current).map Slot.epoch).getD 0
  let age := fun (i : Nat) => (cur + 65537 - (get i).epoch) % 65536
  let oldest := ((List.range 4).filter fun i => (get i).st != .free).foldl (fun a i => max a (age i)) 0
  oldest - age s

/-- An entry with these marks is visible to a lookup made under slot `s`. -/
def visible (slots : List Slot) (m : Marks) (s : Nat) : Bool :=
  (match m.birth with | none => true | some b => decide (epochOrd slots b ≤ epochOrd slots s)) &&
  (match m.death with | none => true | some d => decide (epochOrd slots s < epochOrd slots d))

end Sys2Proof.Machine
end

