-- ==== Sys2Proof/Machine/SpanOps.lean ====
section
/-! DEFINITION. What sends Huanyx Span frames (R415–R424): frame format, neighbours, publication queues. -/

namespace Sys2Proof.Machine

def Chip.neigh (c : Chip) (lane : Nat) : Neigh := tget Neigh.none c.sp.neigh lane

def Chip.setNeigh (c : Chip) (lane : Nat) (n : Neigh) : Chip :=
  c.setSp fun s => { s with neigh := tput Neigh.none s.neigh lane n }

/-- The port is span-enabled (R416). -/
def Chip.spanPort (c : Chip) (lane : Nat) : Bool :=
  let i := lane % 64
  c.isPort lane && c.bit (lane / 64) (if i < 32 then R.spnPortEnLo else R.spnPortEnHi) (i % 32)

/-- Lanes of the package. -/
def Chip.lanes (c : Chip) : List Nat := List.range (64 * c.dies)

/-- Lanes whose neighbour is UP. -/
def Chip.upNeighbours (c : Chip) : List Nat := (c.sp.neigh.filter fun e => e.2.st == .up).map Prod.fst

/-- This part's span device number and base MAC address (R415). -/
def Chip.spanDevice (c : Chip) : Nat := c.fld 0 R.spnDevice 0 14
def Chip.baseMac (c : Chip) (d : Nat) : Nat := c.rd d R.spnBaseMacLo + c.fld d R.spnBaseMacHi 0 16 * 2 ^ 32

/-- An HSP frame (R417, R418), padded to the minimum frame length. -/
def Chip.hspFrame (c : Chip) (lane ver typ seq : Nat) (body : Bytes) : Bytes :=
  let d := lane / 64
  let b := toBE 6 0x0180C200000E ++ toBE 6 (c.baseMac d + lane) ++ toBE 2 0x88B5 ++ toBE 1 0x48 ++ toBE 1 ver ++ toBE 1 typ
    ++ toBE 1 0 ++ toBE 4 (c.rd d R.spnDomain) ++ toBE 2 (c.fld d R.spnDevice 0 14) ++ toBE 2 body.length ++ toBE 4 seq ++ body
  b ++ List.replicate (60 - b.length) 0

/-- Sends an HSP frame on a port at its first opening: between frames, without grant or share (R417). -/
def Chip.spanSend (c : Chip) (lane ver typ seq : Nat) (body : Bytes) : Chip :=
  if c.portUp lane then
    c.sendOwn lane (.hsp (c.hspFrame lane ver typ seq body))
  else c

/-- An event of a full send (R426): such events do not count in the limit of R424. -/
def fullMark : Nat := 2 ^ 62

/-- The 12 bytes of a publication entry (R423). -/
def pubEntry (ev : Nat) : Bytes := toBE 1 (ev / 2 ^ 60 % 4) ++ toBE 1 0 ++ toBE 2 (ev / 2 ^ 48 % 4096) ++ toBE 6 ev ++ toBE 2 0

/-- The body of a PUBLISH. -/
def pubBody (evs : List Nat) : Bytes := toBE 1 evs.length ++ List.replicate 3 0 ++ evs.flatMap pubEntry

/-- Sends queued publication events to a neighbour while its window of 64 frames has room (R424), by fuel. -/
def Chip.spanFlush (lane : Nat) : Nat → Chip → Chip
  | 0, c => c
  | k + 1, c =>
    let n := c.neigh lane
    if n.st != .up || n.queue.isEmpty || decide (64 ≤ n.unacked.length) then c
    else
      let evs := n.queue.take 100
      let seq := wrapAdd 32 n.seqTx 1
      let n := { n with queue := n.queue.drop 100, seqTx := seq, unacked := n.unacked ++ [(seq, evs)]
                        resent := if n.unacked.isEmpty then c.steady else n.resent }
      Chip.spanFlush lane k ((c.setNeigh lane n).spanSend lane n.version 2 seq (pubBody evs))

/-- Queues a publication event for one neighbour; an event that finds 4,096 queued is lost (R424). Log 72 (DESIGN CHOICE). -/
def Chip.spanQueue (c : Chip) (lane ev : Nat) : Chip :=
  let n := c.neigh lane
  if (n.queue.filter fun e => decide (e < fullMark)).length < 4096 then Chip.spanFlush lane 1 (c.setNeigh lane { n with queue := n.queue ++ [ev] })
  else
    let d := lane / 64
    let c := c.count d (R.spnEvtCnt 6)
    if n.lostDone then c
    else (c.setNeigh lane { n with lostDone := true }).raise Cls.spnPubLost d { block := 16, unit := lane }

/-- A learned location is publishable: an instance, or a port that is not span-enabled (R423). -/
def Chip.publishable (c : Chip) (locInst : Bool) (loc : Nat) : Bool := locInst || !c.spanPort loc

/-- Publishes a learn (op 1) or removal (op 2) event to every UP neighbour (R423). -/
def Chip.publish (c : Chip) (op key : Nat) (locInst : Bool) (loc : Nat) : Chip :=
  if c.publishable locInst loc then c.upNeighbours.foldl (fun c l => c.spanQueue l (op * 2 ^ 60 + key)) c else c

end Sys2Proof.Machine
end

