-- ==== Sys2Proof/Machine/Tables.lean ====
section
/-! DEFINITION. The forwarding tables, learning and ageing (spec/06). -/

namespace Sys2Proof.Machine

/-! ### The MAC table of a die -/

/-- Buckets of the MAC table, and of the flow table under the mode preset (R147). -/
def macBuckets : Nat := 2097152
def Chip.flowBuckets (c : Chip) : Nat := if c.mode = 3 then 100663296 else 67108864

/-- The eight key bytes of a MAC key (R148). -/
def macKeyBytes (key : Nat) : Bytes := toBE 8 key

def Chip.macTab (c : Chip) (d : Nat) : Tab (Option MacE) := tget [] c.tb.mac d
def Chip.setMacTab (c : Chip) (d : Nat) (t : Tab (Option MacE)) : Chip := c.setTb fun s => { s with mac := tput [] s.mac d t }

/-- Adds to the relocation generation of a table (0 MAC, 1 flow) of a die (R151). -/
def Chip.bumpGen (c : Chip) (d table n : Nat) : Chip :=
  c.setTb fun s => { s with gens := tmod 0 s.gens (d * 2 + table) fun v => wrapAdd 16 v n }

/-- The learned entry of a key in a die's replica, with its place. -/
def Chip.learned (c : Chip) (d key : Nat) : Option (Nat × MacE) :=
  (exactPlaces macBuckets (c.macTab d) (macKeyBytes key) fun e => e.key == key && !e.static).head?

/-- The static entry of a key visible under a slot. -/
def Chip.staticMac (c : Chip) (d key slot : Nat) : Option (Nat × MacE) :=
  (exactPlaces macBuckets (c.macTab d) (macKeyBytes key) fun e => e.key == key && e.static && visible c.rl.slots e.m slot).head?

/-- Home die of a MAC key (R177). -/
def Chip.homeDie (c : Chip) (key : Nat) : Nat := (crc32c (macKeyBytes key)).toNat / 2 ^ 16 * c.dies / 2 ^ 16

/-- Die of a learned location, and its count register (R170). -/
def locDie (locInst : Bool) (loc : Nat) : Nat := if locInst then loc / 512 else loc / 64
def locCount (locInst : Bool) (loc : Nat) : RegAddr := if locInst then R.tblLearnInstCnt (loc % 512) else R.tblLearnPortCnt (loc % 64)
def locLimit (locInst : Bool) (loc : Nat) : RegAddr := if locInst then R.tblLearnInst (loc % 512) else R.tblLearnPort (loc % 64)

/-- The learned-entry count of a location rises or falls, on the location's die alone (R170). -/
def Chip.locAdd (c : Chip) (d : Nat) (locInst : Bool) (loc : Nat) (up : Bool) : Chip :=
  if d = locDie locInst loc then
    let v := c.rd d (locCount locInst loc)
    c.wr d (locCount locInst loc) (if up then v + 1 else v - 1)
  else c

/-- Removes the entry at a place of a die's replica. -/
def Chip.macErase (c : Chip) (d place : Nat) (e : MacE) : Chip :=
  let c := c.setMacTab d (tput none (c.macTab d) place none)
  if e.static then c else c.locAdd d e.locInst e.loc false

/-- Inserts an entry into a die's replica; none for INSERT_FAILED, which is counted. -/
def Chip.macInsert (c : Chip) (d : Nat) (e : MacE) : Option Chip :=
  match cuckooInsert macBuckets (fun e => macKeyBytes e.key) (c.macTab d) e with
  | none => none
  | some (t, n) =>
    let c := (c.setMacTab d t).bumpGen d 0 n
    some (if e.static then c else c.locAdd d e.locInst e.loc true)

/-- Sends a notice from one die to another over the Culvert; a failed port loses it (R172).
Logs 13 (DESIGN CHOICE), 55 (DESIGN CHOICE). -/
def Chip.notify (c : Chip) (n : Notice) : Chip :=
  if n.src = n.dest ∨ c.reach n.src n.dest then c.setTb fun s => { s with notices := s.notices ++ [n] } else c

/-- Takes the oldest notice of a kind on its way to a die, once its Culvert port gives it a flit (R25) and
the die's table block has its clock (R478). Log 55 (DESIGN CHOICE). -/
def Chip.takeNotice (c : Chip) (kind : NKind) (d : Nat) : Option (Notice × Chip) :=
  match (if c.gateOpen d 4 then c.tb.notices.findIdx? fun n => n.kind == kind && n.dest == d else none) with
  | none => none
  | some i =>
    match c.tb.notices[i]? with
    | none => none
    | some n =>
      let k := c.ctlPort n.src d
      let rest := c.setTb fun s => { s with notices := s.notices.eraseIdx i }
      if n.src = d then some (n, rest)
      else if c.ctlPasses n.src k then some (n, rest.passCtl n.src k)
      else none

/-- Records a hit on the learned entry of a key on die `d` (R177). -/
def Chip.macHit (c : Chip) (d key : Nat) : Chip :=
  match c.learned d key with
  | none => c
  | some (k, e) =>
    if e.hit then c
    else
      let c := c.setMacTab d (tput none (c.macTab d) k (some { e with hit := true }))
      let h := c.homeDie key
      if d = h then c else (c.count d (R.tblEvtCnt 9)).notify ⟨.hit, h, d, key, false, 0, 0⟩

/-- Puts a learned entry for a key into die `d`'s replica at a location and time: inserts it, or moves the present one. With an
insert or a move to another location the hit bit is set on the home replica and clear elsewhere (R174, R177). None where the insert
fails. -/
def Chip.macLearn (c : Chip) (d key : Nat) (locInst : Bool) (loc time : Nat) : Option Chip :=
  let home := d == c.homeDie key
  match c.learned d key with
  | some (k, e) =>
    let moved := !(e.locInst == locInst && e.loc == loc)
    let e' := { e with locInst := locInst, loc := loc, time := time, hit := if moved then home else e.hit }
    let c := (c.locAdd d e.locInst e.loc false).setMacTab d (tput none (c.macTab d) k (some e'))
    some (c.locAdd d locInst loc true)
  | none => c.macInsert d ⟨key, false, home, ⟨none, none⟩, 0, locInst, loc, 0, time⟩

/-! ### Learning in the ingress stage (R165–R168) -/

/-- Queues a learn event on a die (R168): it replaces a pending one of its key, or is counted LEARN_RATE when the queue
is full. -/
def Chip.learnQueue (c : Chip) (d : Nat) (ev : LearnEv) : Chip :=
  let q := tget [] c.tb.learnQ d
  let set := fun (q : List LearnEv) => c.setTb fun s => { s with learnQ := tput [] s.learnQ d q }
  if q.any fun e => e.key == ev.key then set (q.map fun e => if e.key = ev.key then ev else e)
  else if q.length < 1024 then set (q ++ [ev])
  else c.count d (R.tblEvtCnt 5)

/-- The source lookup of a packet (R165, R166) with its key source bytes. Answers whether the packet is dropped with
LEARN_LIMIT (R167). Log 55 (DESIGN CHOICE). -/
def Chip.learnSource (c : Chip) (p : Pkt) (prof : Nat) (s : Bytes) : Bool × Chip :=
  let d := p.die
  let lim := c.fld d (locLimit p.srcInst p.src) 0 24
  if !c.en d 4 || !c.bit d (R.tblLearnProf prof) 0 || lim == 0 || p.reinjected then (false, c)
  else
    let mac := beNat (slice s (c.fld d (R.tblLearnProf prof) 8 8) 6)
    let bd := beNat (slice s (c.fld d (R.clsProfMac prof) 8 8) 2) % 4096
    let key := bd * 2 ^ 48 + mac
    if bitN mac 40 || mac == 0 then (false, c.count d (R.tblEvtCnt 6))
    else if (c.staticMac d key p.slot).isSome then (false, c)
    else
      let event := match c.learned d key with
        | some (_, e) => !(e.locInst == p.srcInst && e.loc == p.src)
        | none => true
      if !event then (false, c.macHit d key)
      else if lim ≤ c.rd d (locCount p.srcInst p.src) then
        (c.bit d (locLimit p.srcInst p.src) 24, c.count d (R.tblEvtCnt 4))
      else (false, c.learnQueue d ⟨key, p.srcInst, p.src, false⟩)

/-! ### Commands of learning -/

/-- Whether a learn notice (its time, its die) is taken over a present entry (R169). -/
def newer (t from_ : Nat) (e : MacE) : Bool :=
  let df := toSigned 32 (diff32 t e.time)
  decide (0 < df) || (df == 0 && decide (locDie e.locInst e.loc < from_))

/-- A replica takes a learn event: it has no learned entry of the key, or an older one (R169). -/
def Chip.takesLearn (c : Chip) (d key t from_ : Nat) : Bool :=
  match c.learned d key with
  | none => true
  | some (_, e) => newer t from_ e

/-- The learned entry of an event's key stands at the event's location on die `d`. -/
def Chip.learnedAt (c : Chip) (d : Nat) (ev : LearnEv) : Bool :=
  (c.learned d ev.key).any fun m => m.2.locInst == ev.locInst && m.2.loc == ev.loc

/-- Originates a learn event on a die (R167): the limit is checked again, the own replica written, by the rule of every
replica (R169), and the others told; it is published (R423), an installed one is counted (R425). -/
def Chip.originate (c : Chip) (d : Nat) (ev : LearnEv) : Chip :=
  if c.fld d (locLimit ev.locInst ev.loc) 0 24 ≤ c.rd d (locCount ev.locInst ev.loc) then c.count d (R.tblEvtCnt 4)
  else
    let t := c.ns % 2 ^ 32
    match (if c.takesLearn d ev.key t d then c.macLearn d ev.key ev.locInst ev.loc t else some c) with
    | none => c.count d (R.tblEvtCnt 2)
    | some c =>
      let c := c.allDies.foldl (fun c e => if e = d then c else c.notify ⟨.learn, e, d, ev.key, ev.locInst, ev.loc, t⟩) c
      let c := if ev.installed && c.learnedAt d ev then c.count d (R.spnEvtCnt 7) else c
      c.publish 1 ev.key ev.locInst ev.loc

/-- LEARN_ORIGINATE (R167): the oldest pending event; none after a time-base step for 4 µs (R470). Log 55 (DESIGN CHOICE). -/
def learnOriginate (d : Nat) (c : Chip) : Chip :=
  match tget [] c.tb.learnQ d with
  | [] => c
  | ev :: q =>
    if !c.on d 4 || decide (c.steady < c.clk.learnHold) then c
    else (c.setTb fun s => { s with learnQ := tput [] s.learnQ d q }).originate d ev

/-- LEARN_NOTICE (R169, R171): the oldest learn notice on its way to a die is applied; a failed insert is told to its
origin. -/
def learnNotice (d : Nat) (c : Chip) : Chip :=
  if !(c.alive && c.hasDie d) then c
  else
    match c.takeNotice .learn d with
    | none => c
    | some (n, c) =>
      let c := c.count d (R.tblEvtCnt 8)
      if !c.takesLearn d n.key n.time n.src then c
      else
        match c.macLearn d n.key n.locInst n.loc n.time with
        | some c => c
        | none => (c.count d (R.tblEvtCnt 2)).notify ⟨.fail, n.src, d, n.key, n.locInst, n.loc, n.time⟩

/-- Removes a die's learned entry of a key if its learn_time matches (R171, R180). -/
def Chip.removeTimed (c : Chip) (d key time : Nat) : Chip :=
  match c.learned d key with
  | none => c
  | some (k, e) => if e.time = time then c.macErase d k e else c

/-- LEARN_REPLICA_FAIL (R171): the origin reports the failure and withdraws the address everywhere. -/
def learnReplicaFail (d : Nat) (c : Chip) : Chip :=
  if !(c.alive && c.hasDie d) then c
  else
    match c.takeNotice .fail d with
    | none => c
    | some (n, c) =>
      let c := (c.count d (R.tblEvtCnt 7)).raise Cls.tblLearnReplicaFull d { block := 4 }
      let c := c.allDies.foldl (fun c e => if e = d then c else c.notify ⟨.withdraw, e, d, n.key, false, 0, n.time⟩) c
      c.removeTimed d n.key n.time

/-- LEARN_WITHDRAWAL (R171). -/
def learnWithdrawal (d : Nat) (c : Chip) : Chip :=
  if !(c.alive && c.hasDie d) then c
  else
    match c.takeNotice .withdraw d with
    | none => c
    | some (n, c) => c.removeTimed d n.key n.time

/-- HIT_NOTICE (R177): the home die sets its hit bit and the sender's bit of remote_mask; a notice for an absent key is
ignored. -/
def hitNotice (d : Nat) (c : Chip) : Chip :=
  if !(c.alive && c.hasDie d) then c
  else
    match c.takeNotice .hit d with
    | none => c
    | some (n, c) =>
      match c.learned d n.key with
      | none => c
      | some (k, e) =>
        c.setMacTab d (tput none (c.macTab d) k (some { e with hit := true, remote := setBitN e.remote n.src true }))

/-- CLEAR_NOTICE (R177). -/
def clearNotice (d : Nat) (c : Chip) : Chip :=
  if !(c.alive && c.hasDie d) then c
  else
    match c.takeNotice .clear d with
    | none => c
    | some (n, c) =>
      match c.learned d n.key with
      | none => c
      | some (k, e) => c.setMacTab d (tput none (c.macTab d) k (some { e with hit := false }))

/-- MAC_REMOVAL (R180): a removal arrives at a die. -/
def macRemoval (d : Nat) (c : Chip) : Chip :=
  if !(c.alive && c.hasDie d) then c
  else
    match c.takeNotice .removal d with
    | none => c
    | some (n, c) => c.removeTimed d n.key n.time

/-- The home die removes a learned entry and tells every other die (R180); `pub`: the removal is published. -/
def Chip.homeRemove (c : Chip) (d place : Nat) (e : MacE) (pub : Bool) : Chip :=
  let c := (c.macErase d place e).count d (R.tblEvtCnt 10)
  let c := c.allDies.foldl (fun c o => if o = d then c else c.notify ⟨.removal, o, d, e.key, false, 0, e.time⟩) c
  if pub then c.publish 2 e.key e.locInst e.loc else c

/-- The entries of a bucket of die `d`'s MAC table are lost with their codeword, an uncorrectable one (R505). -/
def Chip.macLose (c : Chip) (d bucket : Nat) : Chip :=
  ((List.range 4).map fun i => 4 * bucket + i).foldl (fun c k => match tget none (c.macTab d) k with
    | some e => c.macErase d k e
    | none => c) c

/-- What a read of the MAC table for a key finds on a die (R502, R505): of an uncorrectable bucket, that of the key's entry or its
first one, every entry is lost. Log 55 (DESIGN CHOICE). -/
def Chip.macRead (c : Chip) (d key : Nat) (found : ScrubOutcome) : Chip :=
  let c := c.readCheck d false found { block := 4 }
  if found != .uncorrectable then c
  else match (exactPlaces macBuckets (c.macTab d) (macKeyBytes key) fun e => e.key == key).head? with
    | some (k, _) => c.macLose d (k / 4)
    | none => c.macLose d (buckets macBuckets (macKeyBytes key)).1

/-- Removes every learned entry that `q` picks from every replica that the steward's die reaches (R183, R27); answers how many die
0's replica lost. Each removed entry of die 0's replica is published as a removal. -/
def Chip.macFlushAll (c : Chip) (q : MacE → Bool) (pub : Bool) : Nat × Chip :=
  let gone := fun (d : Nat) => if !c.reach c.stwDie d then [] else ((c.macTab d).filterMap fun e => e.2.map fun m => (e.1, m)).filter fun e => !e.2.static && q e.2
  let zero := gone 0
  let c' := c.allDies.foldl (fun c d => (gone d).foldl (fun c e => c.macErase d e.1 e.2) c) c
  (zero.length, if pub then zero.foldl (fun c e => c.publish 2 e.2.key e.2.locInst e.2.loc) c' else c')

/-! ### The flow table and cache of a die (R158–R162) -/

def Chip.flowTab (c : Chip) (d : Nat) : Tab (Option FlowE) := tget [] c.tb.flow d
def Chip.setFlowTab (c : Chip) (d : Nat) (t : Tab (Option FlowE)) : Chip := c.setTb fun s => { s with flow := tput [] s.flow d t }

/-- Fields of a flow entry image (R150). -/
def Flow.kind (b : Bytes) : Nat := byteAt b 40
def Flow.noAge (b : Bytes) : Bool := bitN (byteAt b 41) 2
def Flow.rule (b : Bytes) : Nat := leAt b 44 4
/-- The action record for a direction, if present. -/
def Flow.record (b : Bytes) (dir : Nat) : Option Nat :=
  let w := leAt b (48 + 4 * dir) 4
  if bitN w 31 then some (w % 2 ^ 17) else none

/-- The 41 key bytes of a flow key: key_kind, then the 40 key bytes (R148). -/
def flowKeyBytes (kind : Nat) (key : Bytes) : Bytes := toBE 1 kind ++ slice key 0 40

/-- The key bytes of a flow entry image. -/
def Flow.keyBytes (b : Bytes) : Bytes := flowKeyBytes (Flow.kind b % 16) b

/-- A record word of a flow entry image without its reserved bits (R14, R150). -/
def Flow.recWord (b : Bytes) (i : Nat) : Bytes :=
  let w := leAt b i 4
  toLE 4 (w % 2 ^ 17 + 2 ^ 31 * b2n (bitN w 31))

/-- A flow entry image as stored: reserved fields zero (R14), valid and hit set, the given by_steward. -/
def Flow.store (b : Bytes) (steward : Bool) : Bytes :=
  slice b 0 40 ++ toLE 1 (byteAt b 40 % 16) ++ toLE 1 (1 + 2 + (byteAt b 41 &&& 4) + 8 * b2n steward) ++ [0, 0] ++ slice b 44 4
    ++ Flow.recWord b 48 ++ Flow.recWord b 52 ++ slice b 56 8

/-- The image of a flow entry as it is read: with its hit bit (R150). -/
def FlowE.read (e : FlowE) : Bytes := splice e.img 41 (toLE 1 (setBitN (byteAt e.img 41) 1 e.hit))

/-- The place and entry of a flow key on a die. -/
def Chip.flowFind (c : Chip) (d : Nat) (kb : Bytes) : Option (Nat × FlowE) :=
  (exactPlaces c.flowBuckets (c.flowTab d) kb fun e => Flow.keyBytes e.img == kb).head?

/-- Set of the flow cache (R161). -/
def flowSet (kb : Bytes) : Nat := (crc32c kb).toNat * 98304 / 2 ^ 32

def Chip.cacheSet (c : Chip) (d set : Nat) : List FlowE := tget [] (tget [] c.tb.fcache d) set
def Chip.setCacheSet (c : Chip) (d set : Nat) (l : List FlowE) : Chip :=
  c.setTb fun s => { s with fcache := tput [] s.fcache d (tput [] (tget [] s.fcache d) set l) }

/-- Updates the cached copy of a key, or removes it (`none`) (R161). -/
def Chip.cacheUpdate (c : Chip) (d : Nat) (kb : Bytes) (img : Option Bytes) : Chip :=
  let set := flowSet kb
  let l := c.cacheSet d set
  match img with
  | none => c.setCacheSet d set (l.filter fun e => Flow.keyBytes e.img != kb)
  | some b => c.setCacheSet d set (l.map fun e => if Flow.keyBytes e.img = kb then { e with img := b } else e)

/-- Fills the cache with a table hit (R161): an eviction from a full set of eight takes a victim the spec leaves open
and writes its set hit bit back to its table entry (R176). -/
def Chip.cacheFill (c : Chip) (d : Nat) (kb : Bytes) (e : FlowE) : Chip :=
  let set := flowSet kb
  let l := c.cacheSet d set
  if l.length < 8 then c.setCacheSet d set (l ++ [{ e with hit := false }])
  else
    let v := c.drawn 8
    let c := c.draw
    let old := l.getD v e
    let c := if old.hit then
        match c.flowFind d (Flow.keyBytes old.img) with
        | some (k, f) => c.setFlowTab d (tput none (c.flowTab d) k (some { f with hit := true }))
        | none => c
      else c
    c.setCacheSet d set (l.set v { e with hit := false })

/-- The entry of a slot is lost with its codeword (R505), and its cached copy with it (R161). -/
def Chip.flowLose (c : Chip) (d place : Nat) : Chip :=
  match tget none (c.flowTab d) place with
  | none => c
  | some e => (c.setFlowTab d (tput none (c.flowTab d) place none)).cacheUpdate d (Flow.keyBytes e.img) none

/-- The key has a copy in the flow cache. -/
def Chip.flowCached (c : Chip) (d : Nat) (kb : Bytes) : Bool := (c.cacheSet d (flowSet kb)).any fun e => Flow.keyBytes e.img == kb

/-- What a read of the flow table for a key finds on a die (R502, R505): of an uncorrectable codeword, that of the key's entry or
the first of its buckets, both slots are lost. Log 56 (DESIGN CHOICE). -/
def Chip.flowRead (c : Chip) (d : Nat) (kb : Bytes) (found : ScrubOutcome) : Chip :=
  let c := c.readCheck d true found { block := 4 }
  if found != .uncorrectable then c
  else
    let k := match c.flowFind d kb with
      | some (k, _) => k / 2 * 2
      | none => 4 * (buckets c.flowBuckets kb).1
    (c.flowLose d k).flowLose d (k + 1)

/-- A lookup of a key meets an uncorrectable codeword: it reads the table, since the cache does not hold the key. -/
def Chip.flowMeets (c : Chip) (d : Nat) (kb : Bytes) (found : ScrubOutcome) : Bool := found == .uncorrectable && !c.flowCached d kb

/-- A flow lookup on a die, cache first (R161, R176). `read`: what the table's codeword reads as, where the cache does not hold the
key. Answers the image found. Log 56 (DESIGN CHOICE). -/
def Chip.flowLookup (c : Chip) (d : Nat) (kb : Bytes) (read : ScrubOutcome) : Option Bytes × Chip :=
  let set := flowSet kb
  match (c.cacheSet d set).find? fun e => Flow.keyBytes e.img == kb with
  | some e => (some e.img, c.setCacheSet d set ((c.cacheSet d set).map fun x => if Flow.keyBytes x.img = kb then { x with hit := true } else x))
  | none =>
    let c := c.flowRead d kb read
    match c.flowFind d kb with
    | none => (none, c)
    | some (k, e) =>
      let c := c.setFlowTab d (tput none (c.flowTab d) k (some { e with hit := true }))
      (some e.img, c.cacheFill d kb e)

/-- Inserts a flow entry on a die (R155, R162): `inl` the present entry, `inr none` failed, `inr some` done, no stale copy
of the key left in the cache (R161). -/
def Chip.flowInsert (c : Chip) (d : Nat) (img : Bytes) : Sum Bytes (Option Chip) :=
  let kb := Flow.keyBytes img
  match c.flowFind d kb with
  | some (_, e) => .inl e.read
  | none =>
    match cuckooInsert c.flowBuckets (fun e => Flow.keyBytes e.img) (c.flowTab d) ⟨img, true⟩ with
    | none => .inr none
    | some (t, n) => .inr (some (((c.setFlowTab d t).bumpGen d 1 n).cacheUpdate d kb none))

/-- Rewrites the present entry of an image's key in place (R157); none if there is none. Log 56 (DESIGN CHOICE). -/
def Chip.flowRewrite (c : Chip) (d : Nat) (img : Bytes) : Option Chip :=
  let kb := Flow.keyBytes img
  match c.flowFind d kb with
  | none => none
  | some (k, _) => some ((c.setFlowTab d (tput none (c.flowTab d) k (some ⟨img, true⟩))).cacheUpdate d kb (some img))

/-- Deletes a flow key on a die (R157); none if absent. -/
def Chip.flowDelete (c : Chip) (d : Nat) (kb : Bytes) : Option Chip :=
  match c.flowFind d kb with
  | none => none
  | some (k, _) => some ((c.setFlowTab d (tput none (c.flowTab d) k none)).cacheUpdate d kb none)

/-- Clears the flow table and cache of every die (R65). Log 56 (DESIGN CHOICE). -/
def Chip.flowClear (c : Chip) : Chip := c.setTb fun s => { s with flow := [], fcache := [] }

/-! ### The sweepers (R174–R180) -/

/-- A visit of the MAC sweeper to one entry. -/
def Chip.sweepMac (c : Chip) (d place : Nat) : Chip :=
  match tget none (c.macTab d) place with
  | none => c
  | some e =>
    if e.static || c.homeDie e.key != d then c
    else if e.hit then
      let c := c.setMacTab d (tput none (c.macTab d) place (some { e with hit := false, remote := 0 }))
      (bitList e.remote 8).foldl (fun c o => c.notify ⟨.clear, o, d, e.key, false, 0, 0⟩) c
    else c.homeRemove d place e true

/-- A visit of the flow sweeper to one entry (R176). -/
def Chip.sweepFlow (c : Chip) (d place : Nat) : Chip :=
  match tget none (c.flowTab d) place with
  | none => c
  | some e =>
    if Flow.noAge e.img then c
    else
      let kb := Flow.keyBytes e.img
      let set := flowSet kb
      let cached := (c.cacheSet d set).any fun x => Flow.keyBytes x.img == kb && x.hit
      if e.hit || cached then
        let c := c.setFlowTab d (tput none (c.flowTab d) place (some { e with hit := false }))
        c.setCacheSet d set ((c.cacheSet d set).map fun x => if Flow.keyBytes x.img = kb then { x with hit := false } else x)
      else ((c.setFlowTab d (tput none (c.flowTab d) place none)).cacheUpdate d kb none).count d (R.tblEvtCnt 11)

/-- Key of a die's sweeper; its age interval in ns; its buckets. -/
def sweepKey (d : Nat) (table : ExactTable) : Nat := d * 2 + (match table with | .mac => 0 | .flow => 1)
def Chip.ageInterval (c : Chip) (d : Nat) (table : ExactTable) : Nat :=
  (match table with | .mac => c.fld d R.tblMacAge 0 12 | .flow => c.fld d R.tblFlowAge 0 12) * 1000000000
def Chip.sweepBuckets (c : Chip) (table : ExactTable) : Nat := match table with | .mac => macBuckets | .flow => c.flowBuckets

/-- The bucket is the sweeper's next, and its place in the interval has come (R174): visits go in bucket order, spread
evenly over the age interval; none while the interval is 0 (R175). -/
def Chip.sweepDue (c : Chip) (d : Nat) (table : ExactTable) (bucket : Nat) : Bool :=
  let s := tget (0, 0) c.tb.sweep (sweepKey d table)
  let t := c.ageInterval d table
  t != 0 && s.1 == bucket && decide (s.2 + t * bucket / c.sweepBuckets table ≤ c.steady)

/-- The sweeper goes on to its next bucket; after the last, to the first of the next pass, one interval after the start of
this one. -/
def Chip.sweepNext (c : Chip) (d : Nat) (table : ExactTable) : Chip :=
  c.setTb fun s => { s with sweep := tmod (0, 0) s.sweep (sweepKey d table) fun v =>
    if v.1 + 1 < c.sweepBuckets table then (v.1 + 1, v.2) else (0, v.2 + c.ageInterval d table) }

/-- The sweepers of a die start a pass as its table block is enabled. Log 76 (DESIGN CHOICE). -/
def Chip.sweepStart (c : Chip) (d : Nat) : Chip :=
  c.setTb fun s => { s with sweep := tput (0, 0) (tput (0, 0) s.sweep (sweepKey d .mac) (0, c.steady)) (sweepKey d .flow) (0, c.steady) }

/-- SWEEPER_VISIT (R174): the sweeper visits its next bucket; not while the table block is disabled (R173). Log 12 (DEDUCED). -/
def sweeperVisit (d : Nat) (table : ExactTable) (bucket : Nat) (c : Chip) : Chip :=
  let places := (List.range 4).map fun i => 4 * bucket + i
  if !c.on d 4 || !c.sweepDue d table bucket then c
  else
    let c := match table with
      | .mac => places.foldl (fun (c : Chip) k => c.sweepMac d k) c
      | .flow => places.foldl (fun (c : Chip) k => c.sweepFlow d k) c
    c.sweepNext d table

/-! ### Management entries (R181–R183) -/

/-- A key_kind names a form 1 to 5 and sets no reserved bit (R182). -/
def kindOk (kind : Nat) : Bool := decide (1 ≤ kind % 8) && decide (kind % 8 ≤ 5) && decide (kind < 16)

/-- A FLOW_WRITE that is refused with BAD_ACTION (R182): its form, a reserved bit. -/
def flowWriteBad (b : Bytes) : Bool :=
  let img := slice b 16 64
  !kindOk (Flow.kind img) || byteAt b 8 &&& 0xFE != 0 || decide (16 ≤ byteAt img 41) || leAt img 42 2 != 0 ||
    bitsN (leAt img 48 4) 17 14 != 0 || bitsN (leAt img 52 4) 17 14 != 0

/-- FLOW_WRITE (R182). The entry waits while the steward's die does not reach the owner die (R27). `read`: what the codeword reads as
(R502, R505). Logs 55 (DESIGN CHOICE), 56 (DESIGN CHOICE). -/
def flowWrite (read : ScrubOutcome) (c : Chip) : Chip :=
  let owner := fun (b : Bytes) => c.ownerDie 0 (c.keyHash 0 (Flow.kind (slice b 16 64)) (slice b 16 64))
  if (c.nextRun stewardFn 0x45).any fun e => !flowWriteBad e.bytes && !c.reach c.stwDie (owner e.bytes) then c
  else runEntry stewardFn 0x45 (fun e c =>
    let b := e.bytes
    let img := slice b 16 64
    if flowWriteBad b then c.endWith stewardFn e St.badAction
    else
      let d := owner b
      let img := Flow.store img true
      let ok := fun (c : Chip) => c.endWith stewardFn e St.ok 0 0 (toLE 1 d)
      let c := c.flowRead d (Flow.keyBytes img) read
      match c.flowInsert d img with
      | .inl _ =>
        if bitN (byteAt b 8) 0 then ok ((c.flowRewrite d img).getD c) else c.endWith stewardFn e St.keyExists
      | .inr none => (c.count d (R.tblEvtCnt 3)).endWith stewardFn e St.insertFailed
      | .inr (some c) => ok c) c

/-- FLOW_DELETE (R182), with `read` and the wait of FLOW_WRITE. -/
def flowDelete (read : ScrubOutcome) (c : Chip) : Chip :=
  let owner := fun (b : Bytes) => c.ownerDie 0 (c.keyHash 0 (byteAt b 8) (slice b 9 40))
  if (c.nextRun stewardFn 0x46).any fun e => kindOk (byteAt e.bytes 8) && !c.reach c.stwDie (owner e.bytes) then c
  else runEntry stewardFn 0x46 (fun e c =>
    let kind := byteAt e.bytes 8
    if !kindOk kind then c.endWith stewardFn e St.badAction
    else
      let kb := flowKeyBytes kind (slice e.bytes 9 40)
      let d := owner e.bytes
      match (c.flowRead d kb read).flowDelete d kb with
      | some c => c.endWith stewardFn e St.ok
      | none => (c.flowRead d kb read).endWith stewardFn e St.notFound) c

/-- MAC_FLUSH (R183). -/
def macFlush (c : Chip) : Chip :=
  runEntry stewardFn 0x47 (fun e c =>
    let sel := byteAt e.bytes 8
    let v := leAt e.bytes 12 2
    let range := (sel = 1 ∧ 64 * c.dies ≤ v) ∨ (sel = 2 ∧ 512 * c.dies ≤ v) ∨ (sel = 3 ∧ 4096 ≤ v)
    if sel = 0 ∨ 4 < sel then c.endWith stewardFn e St.badAction
    else if range then c.endWith stewardFn e St.indexRange
    else
      let (n, c) := c.macFlushAll (fun m =>
        if sel = 1 then !m.locInst && m.loc == v
        else if sel = 2 then m.locInst && m.loc == v
        else if sel = 3 then m.key / 2 ^ 48 == v
        else true) true
      c.endWith stewardFn e St.ok 0 0 (toLE 4 n)) c

end Sys2Proof.Machine
end

