-- ==== Sys2Proof/Machine/Frames.lean ====
section
/-! DEFINITION. Frame bytes: Internet checksums, IP and UDP length fields, templates (R103), segmentation of host sends
(R240–R242). -/

namespace Sys2Proof.Machine

/-! ### Internet checksums -/

/-- Sum of a byte string's 16-bit words, an odd last byte padded with zero. -/
def wordSum : Bytes → Nat
  | [] => 0
  | [a] => a.toNat * 256
  | a :: b :: t => a.toNat * 256 + b.toNat + wordSum t

/-- One's-complement sum folded to 16 bits. -/
def fold16 (n : Nat) : Nat :=
  let a := n / 65536 + n % 65536
  let b := a / 65536 + a % 65536
  b / 65536 + b % 65536

/-- The Internet checksum of a byte string. -/
def inetSum (b : Bytes) : Nat := 65535 - fold16 (wordSum b)

/-- IPv4 header length in bytes at an offset. -/
def ihl (f : Bytes) (o : Nat) : Nat := byteAt f o % 16 * 4

/-- Recomputes the IPv4 header checksum at an offset, where a header fits. -/
def fixIpv4 (f : Bytes) (o : Nat) : Bytes :=
  if f.length < o + 20 then f
  else
    let f := splice f (o + 10) [0, 0]
    splice f (o + 10) (toBE 2 (inetSum (slice f o (max 20 (ihl f o)))))

/-- Sets the length field of the IP header at an offset to what the frame holds (R103, R242). -/
def setIpLen (f : Bytes) (o : Nat) (v6 : Bool) : Bytes :=
  let n := f.length - o
  if v6 then splice f (o + 4) (toBE 2 (n - 40)) else fixIpv4 (splice f (o + 2) (toBE 2 n)) o

/-- The transport checksum of the segment at `l4` under the IP header at `l3`, with protocol `proto`; its checksum field, at
`at_`, counted as zero. The segment ends where the IP length says, or with the frame if that length does not fit it.
Log 49 (DESIGN CHOICE). -/
def l4Sum (f : Bytes) (l3 l4 at_ proto : Nat) (v6 : Bool) : Nat :=
  let f := splice f at_ [0, 0]
  let stop := if v6 then l3 + 40 + beAt f (l3 + 4) 2 else l3 + beAt f (l3 + 2) 2
  let seg := (if at_ + 2 ≤ stop ∧ stop ≤ f.length then f.take stop else f).drop l4
  let pseudo := if v6 then slice f (l3 + 8) 32 ++ toBE 4 seg.length ++ toBE 4 proto
    else slice f (l3 + 12) 8 ++ toBE 2 proto ++ toBE 2 seg.length
  inetSum (pseudo ++ seg)

/-- Writes the TCP or UDP checksum of the header at `l4`; a UDP sum of 0 goes out as 0xFFFF. A header whose checksum lies past
the end of the data is left as it is. Log 49 (DESIGN CHOICE). -/
def fixL4 (f : Bytes) (l3 l4 : Nat) (v6 udp : Bool) : Bytes :=
  let at_ := l4 + if udp then 6 else 16
  let s := l4Sum f l3 l4 at_ (if udp then 17 else 6) v6
  if f.length < at_ + 2 then f else splice f at_ (toBE 2 (if udp && s == 0 then 0xFFFF else s))

/-- Offset and EtherType of what follows a frame's addresses and VLAN tags (at most two). Log 49 (DESIGN CHOICE). -/
def l3Of (b : Bytes) : Nat × Nat :=
  let tag := fun (o : Nat) => beAt b o 2 = 0x8100 ∨ beAt b o 2 = 0x88A8
  let o := if tag 12 then (if tag 16 then 20 else 16) else 12
  (o + 2, beAt b o 2)

/-- The IP header that a UDP header at `u` lies under, and whether it is IPv6: the one that ends there, innermost as it is, or the
frame's outermost where none ends there. Log 48 (DESIGN CHOICE). -/
def ipBefore (b : Bytes) (u : Nat) : Option (Nat × Bool) :=
  if 40 ≤ u ∧ byteAt b (u - 40) / 16 = 6 ∧ byteAt b (u - 34) = 17 then some (u - 40, true)
  else
    match [20, 24, 28, 32, 36, 40, 44, 48, 52, 56, 60].find? fun h =>
        decide (h ≤ u) && byteAt b (u - h) == 0x40 + h / 4 && byteAt b (u - h + 9) == 17 with
    | some h => some (u - h, false)
    | none =>
      let (l3, t) := l3Of b
      if t = 0x0800 then some (l3, false) else if t = 0x86DD then some (l3, true) else none

/-! ### Header marks in the parse metadata -/

/-- The parse metadata with its eight marks replaced. -/
def setMarks (m : Nat) (f : Nat → Nat) : Nat :=
  (List.range 8).foldl (fun a k => setBitsN a (44 + 10 * k) 10 (f (Md.mark m k))) m

/-- The places of a packet's headers after its bytes have moved, none where they are gone: its header marks, and the PTP
header of a host send (R245). -/
def Pkt.moved (p : Pkt) (f : Nat → Option Nat) : Pkt :=
  { p with md := setMarks p.md fun v => if v = 0x3FF then v else (f v).getD 0x3FF
           send := p.send.map fun s => { s with ptp := s.ptp.bind f, ip := s.ip.bind fun i => (f i.1).map fun v => (v, i.2) } }

/-! ### Templates (R103) -/

/-- Decapsulation: the bytes before inner_offset go; marks below it read none, the others fall by it. -/
def decap (p : Pkt) : Pkt :=
  let n := Md.innerOffset p.md
  { p with bytes := p.bytes.drop n }.moved fun v => if v < n then none else some (v - n)

/-- One edit of a rewrite template; none where it is skipped, which leaves the frame as it was. Log 49 (DESIGN CHOICE). -/
def applyEdit (t : Bytes) (e : Nat) (p : Pkt) : Option Pkt :=
  let o := 16 + 16 * e
  let anchor := byteAt t o
  let base := if anchor = 8 then 0 else Md.mark p.md (anchor % 8)
  let op := byteAt t (o + 3)
  let n := byteAt t (o + 4)
  let x := base + leAt t (o + 1) 2
  let len := p.bytes.length
  let val := slice t (o + 6) n
  if base = 0x3FF then none
  else if op = 3 then
    if len < x then none
    else sum ({ p with bytes := p.bytes.take x ++ val ++ p.bytes.drop x }.moved fun v => some (if x ≤ v then v + n else v))
      (if x ≤ base ∧ anchor ≠ 8 then base + n else base)
  else if len < x + n then none
  else if op = 4 then
    sum ({ p with bytes := p.bytes.take x ++ p.bytes.drop (x + n) }.moved fun v =>
        if v < x then some v else if v < x + n then none else some (v - n))
      base
  else if op = 2 then sum { p with bytes := splice p.bytes x (toBE n (beAt p.bytes x n - 1)) } base
  else sum { p with bytes := splice p.bytes x val } base
where
  sum (p : Pkt) (base : Nat) : Option Pkt :=
    some (if bitN (byteAt t (16 + 16 * e + 5)) 0 then { p with bytes := fixIpv4 p.bytes base } else p)

/-- The rewrite of a template of kind 0x01: the packet after it and the number of edits skipped. Log 49 (DESIGN CHOICE). -/
def rewrite (t : Bytes) (p : Pkt) : Pkt × Nat :=
  (List.range (byteAt t 1)).foldl (fun a e => match applyEdit t e a.1 with
    | some q => (q, a.2)
    | none => (a.1, a.2 + 1)) (p, 0)

/-- Places the header image of an encapsulation template before a payload and sets its lengths and checksums. -/
def encapBytes (t payload : Bytes) : Bytes :=
  let n := byteAt t 1
  let fl := byteAt t 2
  let v6 := !bitN fl 0
  let l3 := byteAt t 3
  let l4 := byteAt t 4
  let f := slice t 16 n ++ payload
  let f := setIpLen f l3 v6
  if bitN fl 1 then
    let f := splice f (l4 + 4) (toBE 2 (f.length - l4))
    if v6 || bitN fl 2 then fixL4 f l3 l4 v6 true else f
  else f

/-- Encapsulation with a template of kind 0x02. -/
def encap (t : Bytes) (p : Pkt) : Pkt :=
  { p with bytes := encapBytes t p.bytes }.moved fun v => some (v + byteAt t 1)

/-! ### Segmentation and checksum offload of host sends (R240–R242) -/

/-- The send fields of R240. -/
structure SendFields where
  segEn : Bool
  outerV6 : Bool
  tunnel : Bool
  innerV6 : Bool
  udp : Bool
  tsReq : Bool
  oneStep : Bool
  ol3 : Nat
  ol4 : Nat
  il3 : Nat
  il4 : Nat
  hdr : Nat
  mss : Nat
  ptp : Nat
deriving DecidableEq, Repr

/-- Reads the send fields; offsets not in use read 0. -/
def sendFields (b : Bytes) : SendFields :=
  let f := byteAt b 0
  let tun := bitN f 2
  ⟨bitN f 0, bitN f 1, tun, bitN f 3, bitN f 4, bitN f 5, bitN f 6,
   if tun then byteAt b 1 else 0, if tun then byteAt b 2 else 0, byteAt b 3, byteAt b 4, leAt b 6 2, leAt b 8 2,
   if bitN f 6 then leAt b 10 2 else 0⟩

/-- Offsets in use. -/
def SendFields.used (s : SendFields) : List Nat := [s.ol3, s.ol4, s.il3, s.il4].filter (· != 0) ++ (if s.oneStep then [s.ptp] else [])

/-- The send of `len` data bytes is refused with SEG_INVALID (R241). -/
def SendFields.refused (s : SendFields) (len : Nat) : Bool :=
  if s.segEn then
    decide (s.mss = 0) || decide (s.hdr < 14) || decide (512 < s.hdr) || decide (len < s.hdr) ||
      decide (16384 < s.hdr + s.mss + 4) || decide (262144 < len - s.hdr) || s.il3 == 0 || s.il4 == 0 ||
      (s.tunnel && (s.ol3 == 0 || s.ol4 == 0)) || s.used.any fun o => decide (s.hdr ≤ o)
  else decide (16384 < len + 4) || s.used.any fun o => decide (len ≤ o)

/-- The IP header of a one-step message in frame `f` of the send (R245): the inner one where its offset is in use. -/
def SendFields.ptpIp (s : SendFields) (f : Bytes) : Option (Nat × Bool) :=
  if s.il3 ≠ 0 then some (s.il3, s.innerV6) else ipBefore f (s.ptp - 8)

/-- Frames of the send (R242). -/
def SendFields.frames (s : SendFields) (len : Nat) : Nat :=
  if s.segEn then max 1 (ceilDiv (len - s.hdr) s.mss) else 1

/-- Data bytes that frame `k` needs, counted from the start of the send. -/
def SendFields.needs (s : SendFields) (len k : Nat) : Nat :=
  if s.segEn then min len (s.hdr + (k + 1) * s.mss) else len

/-- The checksums that offsets in use call for (R242), outer last; `sent` is whether the outer UDP checksum as sent is
not 0. -/
def SendFields.sums (s : SendFields) (f : Bytes) : Bytes :=
  let sent := s.ol4 ≠ 0 ∧ beAt f (s.ol4 + 6) 2 ≠ 0
  let f := if s.il3 ≠ 0 ∧ !s.innerV6 then fixIpv4 f s.il3 else f
  let f := if s.il4 ≠ 0 ∧ s.il3 ≠ 0 then fixL4 f s.il3 s.il4 s.innerV6 s.udp else f
  let f := if s.ol3 ≠ 0 ∧ !s.outerV6 then fixIpv4 f s.ol3 else f
  if s.ol4 ≠ 0 ∧ s.ol3 ≠ 0 ∧ (s.outerV6 ∨ sent) then fixL4 f s.ol3 s.ol4 s.outerV6 true else f

/-- Frame `k` of `n` of a send (R242), padded to the minimum frame length (R227). Log 49 (DESIGN CHOICE). -/
def SendFields.frame (s : SendFields) (data : Bytes) (k n : Nat) : Bytes :=
  let pad := fun (f : Bytes) => f ++ List.replicate (60 - f.length) 0
  if !s.segEn then pad (s.sums data)
  else
    let h := data.take s.hdr
    let f := h ++ (data.drop (s.hdr + k * s.mss)).take s.mss
    let id := fun (f : Bytes) (o : Nat) (v6 : Bool) =>
      if o = 0 then f
      else
        let f := if v6 then f else splice f (o + 4) (toBE 2 (beAt f (o + 4) 2 + k))
        setIpLen f o v6
    let f := id (id f s.il3 s.innerV6) s.ol3 s.outerV6
    let f := if s.udp then splice f (s.il4 + 4) (toBE 2 (f.length - s.il4))
      else
        let f := splice f (s.il4 + 4) (toBE 4 (beAt f (s.il4 + 4) 4 + k * s.mss))
        let fl := byteAt f (s.il4 + 13)
        let fl := if k + 1 = n then fl else setBitN (setBitN fl 0 false) 3 false
        splice f (s.il4 + 13) (toBE 1 (if k = 0 then fl else setBitN fl 7 false))
    let f := if s.ol4 ≠ 0 then splice f (s.ol4 + 4) (toBE 2 (f.length - s.ol4)) else f
    pad (s.sums f)

end Sys2Proof.Machine
end

