-- ==== Sys2Proof/Machine/Classify.lean ====
section
/-! DEFINITION. Classification: action records (R96), the ingress lookups (R88–R94), the merge (R98), the class
(R48–R53), groups (R146), Weir policers (R210–R214), and what leads from a verdict to a stage of the packet. -/

namespace Sys2Proof.Machine

/-! ### Action records (R96) -/

def Act.rule (a : Nat) : Nat := bitsN a 0 32
def Act.disp (a : Nat) : Nat := bitsN a 32 4
def Act.classSet (a : Nat) : Bool := bitN a 36
def Act.classThrough (a : Nat) : Bool := bitN a 37
def Act.urgent (a : Nat) : Bool := bitN a 38
def Act.queueSet (a : Nat) : Bool := bitN a 39
def Act.tc (a : Nat) : Nat := bitsN a 40 3
def Act.countEn (a : Nat) : Bool := bitN a 43
def Act.mirror (a : Nat) : Nat := bitsN a 44 4
def Act.dest (a : Nat) : Nat := bitsN a 48 16
def Act.dropReason (a : Nat) : Nat := bitsN a 64 8
def Act.program (a : Nat) : Nat := bitsN a 72 8
def Act.rewriteSet (a : Nat) : Bool := bitN a 80
def Act.tunnelSet (a : Nat) : Bool := bitN a 81
def Act.tunnelOp (a : Nat) : Nat := bitsN a 82 2
def Act.policeSet (a : Nat) : Bool := bitN a 84
def Act.cipherSet (a : Nat) : Bool := bitN a 85
def Act.miss (a : Nat) : Nat := bitsN a 86 2
def Act.rewriteIndex (a : Nat) : Nat := bitsN a 96 14
def Act.tunnelIndex (a : Nat) : Nat := bitsN a 112 14
def Act.policer (a : Nat) : Nat := bitsN a 128 20
def Act.counter (a : Nat) : Nat := bitsN a 160 20
def Act.cipher (a : Nat) : Nat := bitsN a 192 20

/-- The record of a learned MAC hit (R163): its disposition and nothing else. -/
def Act.learned (locInst : Bool) (loc : Nat) : Nat := (if locInst then 4 else 1) * 2 ^ 32 + loc * 2 ^ 48

/-! ### The merge (R98) -/

/-- A group's result: the matched result of the lowest rank that sets it. -/
def better (cur : Option Src) (s : Src) (sets : Bool) : Option Src :=
  if sets && (match cur with | none => true | some c => decide (s.rank < c.rank)) then some s else cur

/-- Merges a matched result. -/
def Merged.join (m : Merged) (s : Src) : Merged where
  disp := better m.disp s (Act.disp s.act != 0)
  cls := better m.cls s (Act.classSet s.act)
  queue := better m.queue s (Act.queueSet s.act)
  rewrite := better m.rewrite s (Act.rewriteSet s.act)
  tunnel := better m.tunnel s (Act.tunnelSet s.act)
  police := better m.police s (Act.policeSet s.act)
  cipher := better m.cipher s (Act.cipherSet s.act)
  mirror := better m.mirror s (Act.mirror s.act != 0)
  miss := better m.miss s (Act.miss s.act != 0)

/-- The record that sets a group; all zero where none does. -/
def actOf (g : Option Src) : Nat := (g.map Src.act).getD 0

/-- The merged traffic class: that of the queue group, or 0 (R191). -/
def Merged.tc (m : Merged) : Nat := Act.tc (actOf m.queue)

/-! ### Lookups (R90, R94, R105) -/

/-- The action record that is visible under a slot on die `d`; none while its codeword there is uncorrectable (R505). -/
def Chip.action (c : Chip) (d i slot : Nat) : Option Nat :=
  match tget none c.rl.acts i with
  | some v => if visible c.rl.slots v.m slot && !c.tb.badObjs.contains (.action d i) then some v.val else none
  | none => none

/-- The template visible under a slot on die `d`, in the same way. -/
def Chip.template (c : Chip) (d i slot : Nat) : Option Bytes :=
  match tget none c.rl.templ i with
  | some v => if visible c.rl.slots v.m slot && !c.tb.badObjs.contains (.template d i) then some v.bytes else none
  | none => none

/-- A ternary match: equal in every bit that the mask sets. Log 51 (DESIGN CHOICE). -/
def ternMatch (key : Bytes) (e : TernE) : Bool :=
  (key.zip (e.value.zip e.mask)).all fun p => (p.1 &&& p.2.2) == (p.2.1 &&& p.2.2)

/-- The ternary key of a profile. -/
def Chip.ternKey (c : Chip) (d prof : Nat) (s : Bytes) : Bytes :=
  (List.range 80).map fun k =>
    let sel := c.fld d (R.clsProfTsel prof (k / 4)) (8 * (k % 4)) 8
    if sel = 0xFF then 0 else BitVec.ofNat 8 (byteAt s sel)

/-- The visible ternary entries of the profile's banks that match, lowest location first. Log 51 (DESIGN CHOICE). -/
def Chip.ternHits (c : Chip) (d prof slot : Nat) (s : Bytes) : List (Nat × TernE) :=
  let key := c.ternKey d prof s
  let banks := c.fld d (R.clsProfCtrl prof) 16 16
  c.rl.tern.filterMap fun e =>
    match e.2 with
    | some t => if bitN banks (e.1 / 8192) && visible c.rl.slots t.m slot && ternMatch key t then some (e.1, t) else none
    | none => none

/-- The longest visible prefix of an address on die `d`, but for those whose codewords there are uncorrectable (R90, R105, R505). -/
def Chip.lpmFind (c : Chip) (d : Nat) (v6 : Bool) (vrf addr slot : Nat) : Option LpmE :=
  let w := if v6 then 128 else 32
  (c.rl.lpm.filter fun e => e.v6 == v6 && e.vrf == vrf && visible c.rl.slots e.m slot &&
      !c.tb.badObjs.contains (.prefix_ d e.v6 e.vrf e.len e.addr) &&
      e.addr / 2 ^ (w - e.len) == addr / 2 ^ (w - e.len)).foldl
    (fun a e => match a with
      | none => some e
      | some b => if b.len < e.len then some e else some b) none

/-- What the ingress lookups give a packet: matched results by rank, the rule identifiers of R122, effects. -/
structure Looked where
  srcs : List Src
  ruleT : Nat
  ruleX : Nat
  ruleL : Nat
  ruleD : Nat
  hits : List Nat
  macKey : Option Nat
deriving DecidableEq, Repr

/-- A lookup is enabled by a profile (R94). -/
def Chip.looksUp (c : Chip) (d prof : Nat) (l : Lookup) : Bool :=
  let ctl := c.rd d (R.clsProfCtrl prof)
  match l with
  | .ternary => bitN ctl 0
  | .lpm => bitN ctl 1
  | .mac => bitN ctl 2
  | .direct => bitN ctl 3
  | .flow => false

/-- The prefix that the LPM lookup of a profile finds for a packet's source bytes on die `d`. -/
def Chip.lpmOf (c : Chip) (d prof slot : Nat) (s : Bytes) : Option LpmE :=
  let r := c.rd d (R.clsProfLpm prof)
  let v6 := bitN (c.rd d (R.clsProfCtrl prof)) 4
  let vrf := if bitN r 16 then beNat (slice s (bitsN r 8 8) 2) % 4096 else 0
  c.lpmFind d v6 vrf (beNat (slice s (bitsN r 0 8) (if v6 then 16 else 4))) slot

/-- The key of the MAC lookup of a profile. -/
def Chip.macKeyOf (c : Chip) (d prof : Nat) (s : Bytes) : Nat :=
  let r := c.rd d (R.clsProfMac prof)
  beNat (slice s (bitsN r 8 8) 2) % 4096 * 2 ^ 48 + beNat (slice s (bitsN r 0 8) 6)

/-- The action record that the direct lookup of a profile names. -/
def Chip.directOf (c : Chip) (d prof slot : Nat) (s : Bytes) : Option Nat :=
  let r := c.rd d (R.clsProfDirect prof)
  let idx := beNat (slice s (bitsN r 0 8) 2) &&& bitsN r 8 16
  ((tget [] c.rl.direct idx).find? fun v => visible c.rl.slots v.m slot).map VCell.val

/-- The ingress lookups of a packet with its source bytes; `bad` lookups return no match (R508). Log 51 (DESIGN CHOICE). -/
def Chip.ingressLookups (c : Chip) (p : Pkt) (prof : Nat) (s : Bytes) (bad : List Lookup) : Looked :=
  let d := p.die
  let go := fun (l : Lookup) => c.looksUp d prof l && !bad.contains l
  let tern := if go .ternary then c.ternHits d prof p.slot s else []
  let lpm := if go .lpm then (c.lpmOf d prof p.slot s).bind fun e => c.action d e.rec_ p.slot else none
  let key := c.macKeyOf d prof s
  let mac : Option Nat × Option Nat := if go .mac then
      match c.staticMac d key p.slot with
      | some (_, e) => (c.action d e.rec_ p.slot, none)
      | none =>
        match c.learned d key with
        | some (_, e) => (some (Act.learned e.locInst e.loc), some key)
        | none => (none, none)
    else (none, none)
  let dir := if go .direct then (c.directOf d prof p.slot s).bind fun i => c.action d i p.slot else none
  let t := tern.head?.map fun e => e.2.act
  let mk := fun (r : Nat) (a : Option Nat) => (a.map fun x => Src.mk r x).toList
  let rule := fun (a : Option Nat) => (a.map Act.rule).getD 0
  { srcs := mk 1 t ++ mk 3 dir ++ mk 4 lpm ++ mk 5 mac.1
    ruleT := rule t, ruleX := rule mac.1, ruleL := rule lpm, ruleD := rule dir
    hits := tern.map Prod.fst, macKey := mac.2 }

/-- An object of the rule tables of a die is found uncorrectable: no lookup there matches it until a commit writes it (R505). -/
def Chip.spoilObj (c : Chip) (o : BadObj) : Chip :=
  if c.tb.badObjs.contains o then c else c.setTb fun t => { t with badObjs := t.badObjs ++ [o] }

/-- A table read of a packet's ingress stage concerns the packet: a lookup of its profile, an action record, a template. -/
def Chip.readsTab (c : Chip) (d prof : Nat) (r : TabRead) : Bool :=
  match r with
  | .lookup l => c.looksUp d prof l
  | .action i => (tget none c.rl.acts i).isSome
  | .template i => (tget none c.rl.templ i).isSome

/-- One table read in error of a packet's ingress stage (R502, R505): reported, and, where it is uncorrectable, what it concerns is
lost to lookups: of the MAC table the bucket, of the LPM table the prefix found, of the direct table the record named. A ternary
lookup returns no match this once. Log 51 (DESIGN CHOICE). -/
def Chip.tabRead (c : Chip) (p : Pkt) (prof : Nat) (s : Bytes) (r : TabRead) (found : ScrubOutcome) : Chip :=
  let d := p.die
  if r = .lookup .mac then c.macRead d (c.macKeyOf d prof s) found
  else
    let c := c.readCheck d false found { block := 4 }
    if found != .uncorrectable then c
    else match r with
      | .lookup .lpm => (match c.lpmOf d prof p.slot s with | some e => c.spoilObj (.prefix_ d e.v6 e.vrf e.len e.addr) | none => c)
      | .lookup .direct => (match c.directOf d prof p.slot s with | some i => c.spoilObj (.action d i) | none => c)
      | .action i => c.spoilObj (.action d i)
      | .template i => c.spoilObj (.template d i)
      | .lookup _ => c

/-- Counts a packet of `len` bytes on a die for a matched result (R99, R123). -/
def Chip.countAct (c : Chip) (d act len : Nat) : Chip :=
  if Act.countEn act then c.ctrAdd (d * 2 ^ 20 + Act.counter act) len else c

/-- Number of a lookup, its rank (R90). Log 51 (DESIGN CHOICE). -/
def lookupRank : Lookup → Nat
  | .ternary => 1
  | .flow => 2
  | .direct => 3
  | .lpm => 4
  | .mac => 5

/-- A lookup of die `d` fails its check (R508): the record names the table by its rank in the cause byte.
Logs 19 (DESIGN CHOICE), 51 (DESIGN CHOICE). -/
def Chip.lookupBad (c : Chip) (d : Nat) (l : Lookup) : Chip := c.raise Cls.lookupCheck d { block := 4, cause := lookupRank l }

/-! ### Groups (R143–R146) -/

/-- The members of an aggregate or ECMP group. -/
def Chip.group (c : Chip) (ecmp : Bool) (n : Nat) : List Nat := tget [] c.rl.groups (if ecmp then 4096 + n else n)

/-- Resolves an aggregate by a hash: its member lane, or a drop reason. -/
def Chip.resolveAgg (c : Chip) (n hash : Nat) : Except Nat Nat :=
  let l := c.group false n
  if l.isEmpty then .error Dr.groupEmpty else .ok (l.getD (memberOf hash l.length) 0)

/-- Resolves a forward disposition to a destination (kind, number), or a drop reason (R146), by the
tables of die `d`. Log 50 (DESIGN CHOICE). -/
def Chip.resolve (c : Chip) (d disp dest hash slot : Nat) : Except Nat (Bool × Nat) :=
  if disp = 1 then .ok (false, dest)
  else if disp = 2 then (c.resolveAgg dest hash).map fun l => (false, l)
  else if disp = 3 then
    let l := c.group true dest
    if l.isEmpty then .error Dr.groupEmpty
    else
      match c.action d (l.getD (memberOf hash l.length) 0) slot with
      | none => .error Dr.groupMemberInvalid
      | some a =>
        if Act.disp a = 1 then .ok (false, Act.dest a)
        else if Act.disp a = 2 then (c.resolveAgg (Act.dest a) hash).map fun l => (false, l)
        else .error Dr.groupMemberInvalid
  else .ok (true, dest)

/-- What a forward resolves to as the class sees it (R49, R51): whether the one port, or every member of the aggregate, is
through-facing; none where it resolves to neither (an ECMP group that is empty or whose record is not usable, R146). -/
def Chip.resolvesThrough (c : Chip) (d disp dest hash slot : Nat) : Option Bool :=
  let agg := fun (n : Nat) => some ((c.group false n).all c.throughFacing)
  if disp = 1 then some (c.throughFacing dest)
  else if disp = 2 then agg dest
  else if disp = 3 then
    let l := c.group true dest
    if l.isEmpty then none
    else
      match c.action d (l.getD (memberOf hash l.length) 0) slot with
      | none => none
      | some a => if Act.disp a = 1 then some (c.throughFacing (Act.dest a)) else if Act.disp a = 2 then agg (Act.dest a) else none
  else some false

/-! ### Associations as classification sees them (R264, R267) -/

/-- The cipher group names a MACsec association. -/
def Chip.isMacsec (c : Chip) (act : Nat) : Bool :=
  match tget none c.cp.assocs (Act.cipher act) with
  | some x => x.framing == 3
  | none => false

/-- The merged actions hold a group that the Flume does not carry (R49). -/
def Chip.notFlume (c : Chip) (m : Merged) : Bool :=
  m.tunnel.isSome || (match m.cipher with | some s => !c.isMacsec s.act | none => false) || Act.disp (actOf m.disp) == 6

/-- The class of a packet at the end of classification (R48–R52, R102): through, and whether CLASS_DEMOTED applies, which
R51 and R102 lay down for every packet whose merged class is through, wherever it came from. Log 74 (DESIGN CHOICE). -/
def Chip.classOf (c : Chip) (p : Pkt) (m : Merged) : Bool × Bool :=
  let want := Act.classThrough (actOf m.cls)
  let disp := Act.disp (actOf m.disp)
  let may := !p.srcInst && !p.reinjected && c.throughFacing p.src
  if !want then (false, false)
  else if c.notFlume m then (false, true)
  else if disp = 0 ∨ disp = 5 then (may, false)
  else
    match c.resolvesThrough p.die disp (Act.dest (actOf m.disp)) p.hash p.slot with
    | some true => (may, false)
    | some false => (false, true)
    | none => (false, false)

/-- Counts a demotion against the ingress port, on its die (R51, R102); a host send has none. Log 74 (DESIGN CHOICE). -/
def Chip.countDemoted (c : Chip) (p : Pkt) : Chip :=
  if p.srcInst then c else c.count (p.src / 64) (R.clsDemoted (p.src % 64))

/-! ### Weir policers (R210–R214) -/

/-- Tokens of a bucket after a refill at `rate` to time `now`, capped at `burst` bytes. Log 54 (DEDUCED). -/
def bucket (tokens rate burst last now : Nat) : Nat := min (tokens + rate * (now - last)) (burst * 524288000)

/-- Meters a packet of `len` bytes (RFC 2698, colour-blind): the policer after it and the colour, 1 green, 2 yellow,
3 red. Log 54 (DEDUCED). -/
def Policer.meter (q : Policer) (len now : Nat) : Policer × Nat :=
  let b := len * 524288000
  let tc := bucket q.tc q.cir q.cbs q.last now
  let tp := bucket q.tp q.pir q.pbs q.last now
  let q := { q with last := now, tc := tc, tp := tp }
  if tp < b then ({ q with red := satAdd 48 q.red 1 }, 3)
  else if tc < b then ({ q with tp := tp - b, yellow := satAdd 48 q.yellow 1 }, 2)
  else ({ q with tc := tc - b, tp := tp - b, green := satAdd 48 q.green 1 }, 1)

/-- Marks a group as carried out: rank 0 is overridden by nothing. -/
def doneSrc (act : Nat) : Option Src := some ⟨0, act⟩

/-- The police action of a packet on die `d` (R211–R213): the packet after it, or a drop. Logs 50 (DESIGN CHOICE), 54 (DEDUCED). -/
def Chip.police (c : Chip) (p : Pkt) (d : Nat) : Except Nat Pkt × Chip :=
  let a := actOf p.merged.police
  if !Act.policeSet a then (.ok p, c)
  else
    let p := { p with merged := { p.merged with police := doneSrc 0 } }
    let n := Act.policer a
    if n / 131072 ≠ d then (.error Dr.policerRemote, c)
    else if !c.en d 7 then (.error Dr.blockDisabled, c)
    else
      let (q, col) := (tget Policer.none c.qs.policers n).meter p.len c.now
      let c := c.setQs fun s => { s with policers := tput Policer.none s.policers n q }
      let p := { p with colour := col }
      let act := if col = 2 then q.yAct else if col = 3 then q.rAct else 0
      let tc := if col = 2 then q.yTc else q.rTc
      if act = 1 then (.error (if col = 2 then Dr.policeYellow else Dr.policeRed), c)
      else if act = 2 then
        (.ok { p with tc := tc, merged := { p.merged with queue := doneSrc (2 ^ 39 + tc * 2 ^ 40) } }, c)
      else (.ok p, c)

/-- A mirror copy leaves to its session; of a frame still under reception once its FCS has been checked (R229): the copy is
tenant class. -/
def Chip.copyTo (c : Chip) (p : Pkt) (session : Nat) : Chip :=
  if p.whole then c.emit (.mirror session p.bytes)
  else c.setRx p.src ((c.rxOf p.src).map fun r => if r.pkt = some p.id then { r with copies := r.copies ++ [(session, p.bytes)] } else r)

/-- The mirror action of a packet (R51, R96): its copy leaves to the session. Logs 8 (DESIGN CHOICE), 50 (DESIGN CHOICE). -/
def Chip.mirrorOf (c : Chip) (p : Pkt) : Pkt × Chip :=
  let s := Act.mirror (actOf p.merged.mirror)
  if s = 0 then (p, c) else ({ p with merged := { p.merged with mirror := doneSrc 0 } }, c.copyTo p s)

/-! ### Crossing the Culvert (R26, R27, R46) -/

/-- Sends a tenant packet over the Culvert from die `d`, in its Culvert share; `st` names where it arrives. Log 45 (DEDUCED). -/
def Chip.sendCulvert (c : Chip) (p : Pkt) (d e : Nat) (st : PStage) (atQueue : Bool) : Chip :=
  if !c.culUp d (c.culPort p d e) then c.dropPkt p Dr.culvertDown atQueue
  else
    let p' := { p with holds := p.holds.filter fun h => match h.pool with | .window .. => true | _ => false }
    let c' := c.setPkt p'
    if c'.fits d .culvert p.cells then c'.move (p'.take d .culvert) st else c.dropPkt p Dr.culvertFull atQueue

/-! ### The through path (R54, R61) -/

/-- Departure time of a through packet at egress die `e` (R54). -/
def Chip.departure (c : Chip) (p : Pkt) (e : Nat) : Nat := p.tIn + p.shift + c.fld e (R.schFlumeLat p.inDie) 0 16 * 32768

/-- A through packet reaches its egress die: held until its departure, or dropped (R61). -/
def Chip.holdThrough (c : Chip) (p : Pkt) : Chip :=
  let e := p.dst / 64
  if !c.en e 6 then c.dropPkt p Dr.blockDisabled
  else if !c.fits e .through p.cells then c.dropPkt p Dr.throughFull
  else c.move ({ p with qdepth := c.poolUsed e (fun q => q == Pool.through) }.take e .through) (.held (c.departure p e))

/-- Counts `n` skipped edits against the ingress port (R103); a host send has none. Log 49 (DESIGN CHOICE). -/
def Chip.countSkipped (c : Chip) (p : Pkt) (n : Nat) : Chip :=
  if p.srcInst then c else c.setTb fun t => { t with skipped := tmod 0 t.skipped p.src fun v => satAdd 32 v n }

/-- Applies the rewrite of a packet's merged actions and counts the edits it skips (R103). -/
def Chip.rewritten (c : Chip) (p : Pkt) : Pkt × Chip :=
  let a := actOf p.merged.rewrite
  if Act.rewriteSet a then
    match c.template p.die (Act.rewriteIndex a) p.slot with
    | some t =>
      let (q, n) := rewrite t p
      (q, c.countSkipped p n)
    | none => (p, c)
  else (p, c)

/-- What a merged disposition without a forward drops with (R97, R100); none for the others. -/
def dispDrop (m : Merged) : Option Nat :=
  let a := actOf m.disp
  if Act.disp a = 0 then some Dr.noVerdict else if Act.disp a = 5 then some (Act.dropReason a) else none

/-- Takes a through-class packet from the ingress stage onto the Flume (steps 3 to 5 of the through path). -/
def Chip.toFlume (c : Chip) (p : Pkt) : Chip :=
  match dispDrop p.merged with
  | some r => c.dropPkt p r
  | none =>
    let a := actOf p.merged.disp
    match c.resolve p.die (Act.disp a) (Act.dest a) p.hash p.slot with
    | .error r => c.dropPkt p r
    | .ok (_, lane) =>
      let (p, c) := c.rewritten { p with dst := lane }
      let p := p.release fun _ => true
      let c := c.setPkt p
      let e := lane / 64
      if e = p.die then c.holdThrough p
      else if !c.fits p.die .through p.cells then c.dropPkt p Dr.throughFull
      else if !c.culUp p.die (c.culPort p p.die e) then c.dropPkt p Dr.culvertDown
      else c.move (p.take p.die .through) (.crossThrough e)

/-! ### The engine queue (R44, R282) -/

/-- Hands a packet to its engine's queue, within the engine share. -/
def Chip.toEngine (c : Chip) (p : Pkt) : Chip :=
  let p' := p.release fun _ => true
  let c' := c.setPkt p'
  if !c'.fits p.die .engine p.cells then c.dropPkt p Dr.engineBusy
  else c'.move (p'.take p.die .engine) (.engineQ (c.engineOf p.die p.hash))

/-! ### The owner stage (R89, R103, R193) -/

/-- Applies the encapsulation of a packet's merged actions, and admits the packet (R103, R193). Log 50 (DESIGN CHOICE). -/
def Chip.finishOwner (c : Chip) (p : Pkt) : Chip :=
  let a := actOf p.merged.tunnel
  let p := if Act.tunnelSet a && Act.tunnelOp a == 1 then
      match c.template p.die (Act.tunnelIndex a) p.slot with
      | some t => encap t p
      | none => p
    else p
  c.admitPkt p p.die

/-- Waits for a cipher core (R44, R248): a unit over the packet's association. -/
def Chip.toCipher (c : Chip) (p : Pkt) (assoc : Nat) : Chip :=
  let u : CUnit := ⟨c.cp.nextUnit, .esp p.id, false, assoc, 0, none, 0, 0⟩
  (c.move p .cipher).setCp fun s => { s with nextUnit := s.nextUnit + 1, units := tmod [] s.units p.die fun l => l ++ [u] }

/-- The rewrite and tunnel actions up to a cipher action, then the cipher or the queue (R103, R253). Log 50 (DESIGN CHOICE). -/
def Chip.applyActions (c : Chip) (p : Pkt) : Chip :=
  let ta := actOf p.merged.tunnel
  if Act.tunnelSet ta && Act.tunnelOp ta == 2 && !Md.innerSeen p.md then c.dropPkt p Dr.noInner
  else
    let p := if Act.tunnelSet ta && Act.tunnelOp ta == 2 then decap p else p
    let (p, c) := c.rewritten p
    let ca := actOf p.merged.cipher
    let c := c.setPkt p
    if !Act.cipherSet ca || c.isMacsec ca then c.finishOwner p
    else
      match c.assoc (Act.cipher ca) with
      | some x => if Act.cipher ca / 65536 = p.die ∧ x.framing ≤ 2 then c.toCipher p (Act.cipher ca) else c.dropPkt p Dr.keySlotEmpty
      | none => c.dropPkt p Dr.keySlotEmpty

/-- Flow control of the port that a packet came in on, as its cells leave the ingress reserve (R236). -/
def Chip.fcOf (c : Chip) (p : Pkt) : Chip := if p.srcInst || p.gen then c else c.fcPort p.src

/-- The end of the owner stage of a packet whose results are merged: mirror, police, the miss action and the
disposition. Log 50 (DESIGN CHOICE). -/
def Chip.ownerEnd (c : Chip) (p : Pkt) : Chip :=
  let (p, c) := c.mirrorOf p
  let at_ := match p.merged.police with | some s => if s.rank = 2 then p.die else p.inDie | none => p.die
  let (r, c) := c.police p at_
  match r with
  | .error e => c.dropPkt p e
  | .ok p =>
    let p := { p with tc := p.merged.tc }
    let c := c.setPkt p
    let miss := Act.miss (actOf p.merged.miss)
    let a := actOf p.merged.disp
    if p.missed && (miss == 0 || miss == 2) then c.dropPkt p Dr.flowMiss
    else if p.missed && miss == 1 then c.toEngine p
    else
      match dispDrop p.merged with
      | some e => c.dropPkt p e
      | none =>
        if Act.disp a = 6 then c.toEngine p
        else
          match c.resolve p.die (Act.disp a) (Act.dest a) p.hash p.slot with
          | .error e => c.dropPkt p e
          | .ok (inst, n) =>
            let p := { p with dstInst := inst, dst := n }
            if !inst && !c.isPort n then c.dropPkt { p with dst := 0xFFFF } Dr.linkDown
            else (c.setPkt p).applyActions p

/-- Joins the flow result of a packet with the carried merge (R98, R101, R159, R160): a hit's record of the packet's
direction at rank 2, its class group ignored. -/
def Chip.flowMerge (c : Chip) (p : Pkt) (dir : Nat) (found : Option Bytes) : Chip :=
  match found with
  | none => c.ownerEnd { p with missed := true }
  | some img =>
    let p := { p with flow := some img, ruleX := Flow.rule img }
    match Flow.record img dir with
    | none => c.ownerEnd p
    | some r =>
      match c.action p.die r p.slot with
      | none => c.dropPkt p Dr.flowActionStale
      | some a =>
        let c := c.countAct p.die a p.len
        c.ownerEnd { p with merged := { p.merged.join ⟨2, a⟩ with cls := p.merged.cls } }

/-- The hash input of a packet under its profile. Log 52 (DESIGN CHOICE). -/
def Chip.packetHash (c : Chip) (p : Pkt) : HashIn := c.hashIn p.inDie (c.fld p.inDie (R.clsProfileMap (Md.lastNode p.md)) 0 4) (c.source p 0)

/-- A tenant packet begins the owner stage on its owner die (R65, R89, R158): the lookup captures the relocation
generation; a packet of form 0 makes none. -/
def Chip.ownerStart (c : Chip) (p : Pkt) : Chip :=
  if !c.ownerBlocks p.die then c.dropPkt p Dr.blockDisabled
  else if (c.packetHash p).kind % 8 = 0 then c.ownerEnd p
  else c.move p (.lookup (tget 0 c.tb.gens (p.die * 2 + 1)))

/-- Steers a tenant packet to its owner die (R33): the owner stage at once, or a crossing. -/
def Chip.toOwner (c : Chip) (p : Pkt) : Chip :=
  let o := c.ownerDie p.die p.hash
  let p := { p with owner := o }
  let c := c.setPkt p
  if o = p.die then c.ownerStart p else c.sendCulvert p p.die o (.crossOwner o) false

/-! ### The ingress stage -/

/-- The ingress stage of a packet (R88): hash, lookups, counts, learning, merge and class; then the Flume or the owner die.
A tenant frame still under reception waits for its FCS check (R229). `bad`: lookups that fail their check (R508); `errs`: table reads in
error (R505). Log 50 (DESIGN CHOICE). -/
def Chip.ingress (c : Chip) (p : Pkt) (bad : List Lookup) (errs : List (TabRead × ScrubOutcome)) : Chip :=
  let d := p.die
  let prof := c.profile p
  let h := c.packetHash p
  let p := { p with hash := c.keyHash d h.kind h.key }
  let s := c.source p p.hash
  let used := bad.filter fun l => c.looksUp d prof l
  let errs := errs.filter fun e => c.readsTab d prof e.1
  let c := used.foldl (fun c l => c.lookupBad d l) c
  let c := errs.foldl (fun c e => c.tabRead p prof s e.1 e.2) c
  let lost := errs.filter fun e => e.2 == .uncorrectable
  let r := c.ingressLookups p prof s (if lost.any fun e => e.1 == .lookup .ternary then .ternary :: bad else bad)
  let c := r.hits.foldl (fun c k => c.setTb fun t => { t with hits := tmod 0 t.hits (d * 2 ^ 17 + k) fun n => wrapAdd 64 n 1 }) c
  let c := match r.macKey with | some k => c.macHit d k | none => c
  let c := r.srcs.foldl (fun c x => c.countAct d x.act p.len) c
  let (limit, c) := c.learnSource p prof s
  let m := r.srcs.foldl Merged.join Merged.none
  let p := { p with merged := m, ruleT := r.ruleT, ruleX := r.ruleX, ruleL := r.ruleL, ruleD := r.ruleD, lookupCheck := !used.isEmpty || !lost.isEmpty }
  let (thr, dem) := c.classOf p m
  let p := { p with through := thr, demoted := dem, urgent := thr && Act.urgent (actOf m.cls), tc := m.tc }
  let c := if dem then c.countDemoted p else c
  let c := c.setPkt p
  if limit then c.dropPkt p Dr.learnLimit
  else
    let final := fun (g : Option Src) => thr || h.kind % 8 == 0 || (match g with | some x => decide (x.rank ≤ 1) | none => false)
    let (p, c) := if final m.mirror then c.mirrorOf p else (p, c)
    let (q, c) := if final m.police then c.police p d else (.ok p, c)
    match q with
    | .error e => c.dropPkt p e
    | .ok p =>
      let c := c.setPkt p
      if thr then (c.toFlume p).fcOf p
      else if p.whole then (c.toOwner p).fcOf p
      else c.move p .waitFcs

/-- INGRESS_STAGE (R88): the packet at the head of its source's walked packets. -/
def ingressStage (id : Nat) (bad : List Lookup) (errs : List (TabRead × ScrubOutcome)) (c : Chip) : Chip :=
  match c.pkt id with
  | none => c
  | some p =>
    if p.stage != .walked || !c.alive ||
        !c.first p (fun q => q.die == p.die && q.stage == .walked && q.srcInst == p.srcInst && q.src == p.src) then c
    else c.ingress p bad errs

/-! ### Arrivals on other dies, lookups -/

/-- CULVERT_ARRIVAL (R26) after `replays` flit replays (R507): the port serves its kinds in priority, each in order (R25). A
through packet joins the delay line, a packet steered to its owner begins the owner stage, a granted packet enters its
egress window. Its cells are read as `cells` says; a bad one is marked and travels on (R504). A die whose buffer block is disabled drops
every arrival (R188). Logs 45 (DEDUCED), 46 (DEDUCED). -/
def culvertArrival (id replays : Nat) (cells : CellRead) (c : Chip) : Chip :=
  match c.pkt id with
  | none => c
  | some p =>
    let go := fun (e : Nat) (g : Pkt → Chip → Chip) =>
      let k := c.culPort p p.die e
      if !c.alive || !c.culTurn p e then c
      else
        let (p, c) := ((culReplays p.die k replays c).passFlits p p.die k).readPkt p false cells
        let c := c.setPkt p
        if !c.culUp p.die k then c.dropPkt p Dr.culvertDown (p.stage == .crossDest e)
        else if !c.en e 5 then c.dropPkt { p with die := e } Dr.blockDisabled (p.stage == .crossDest e)
        else g { p with die := e } c
    match p.stage with
    | .crossThrough e => go e fun p c => let p := p.release fun q => q == .through; (c.setPkt p).holdThrough p
    | .crossOwner e => go e fun p c => let p := p.release fun _ => true; (c.setPkt p).ownerStart p
    | .crossDest e => go e fun p c => c.move (p.release fun q => q == .culvert) .window
    | _ => c

/-- The flow lookup of a packet on its owner die: what it finds, the packet with a mark of a lookup that met an uncorrectable codeword or
failed its check (R504, R508). `bad`: the check fails, and it returns no match. -/
def Chip.flowResult (c : Chip) (p : Pkt) (memErr : ScrubOutcome) (bad : Bool) : Option Bytes × Pkt × Chip :=
  let h := c.packetHash p
  let kb := flowKeyBytes h.kind h.key
  let meets := c.flowMeets p.die kb memErr
  let (found, c) := c.flowLookup p.die kb memErr
  (if bad then none else found, { p with lookupCheck := p.lookupCheck || bad || meets }, if bad then c.lookupBad p.die .flow else c)

/-- FLOW_LOOKUP_RESULT (R161). A miss over a change of the relocation generation is read again (R151); a failed check is final
(R508). -/
def flowLookupResult (id : Nat) (memErr : ScrubOutcome) (bad : Bool) (c : Chip) : Chip :=
  match c.pkt id with
  | none => c
  | some p =>
    match p.stage with
    | .lookup g =>
      if !c.alive then c
      else if !c.ownerBlocks p.die then c.dropPkt p Dr.blockDisabled
      else
        let (found, p, c) := c.flowResult p memErr bad
        if found.isNone && !bad && tget 0 c.tb.gens (p.die * 2 + 1) != g then (c.count p.die (R.tblEvtCnt 1)).move p .reread
        else (c.flowMerge p (c.packetHash p).dir found).fcOf p
    | _ => c

/-- FLOW_REREAD_RESULT (R151): the result is final. Log 55 (DESIGN CHOICE). -/
def flowRereadResult (id : Nat) (memErr : ScrubOutcome) (bad : Bool) (c : Chip) : Chip :=
  match c.pkt id with
  | none => c
  | some p =>
    if p.stage != .reread || !c.alive then c
    else if !c.ownerBlocks p.die then c.dropPkt p Dr.blockDisabled
    else
      let (found, p, c) := c.flowResult p memErr bad
      (c.flowMerge p (c.packetHash p).dir found).fcOf p

end Sys2Proof.Machine
end

