-- ==== Sys2Proof/Machine/EngineOps.lean ====
section
/-! DEFINITION. What engine contexts share with DMA and the cipher engine (spec/10): contexts and their registers, port
operations and their results, the packet a context holds, engine state, the end of a context. -/

namespace Sys2Proof.Machine

/-! ### Contexts -/

/-- Table key of a context. -/
def ctxKey (d e x : Nat) : Nat := d * 8192 + e * 128 + x

def Chip.ctx (c : Chip) (d e x : Nat) : Option Ctx := tget none c.dre.ctxs (ctxKey d e x)
def Chip.setCtx (c : Chip) (d e x : Nat) (k : Option Ctx) : Chip := c.setDre fun s => { s with ctxs := tput none s.ctxs (ctxKey d e x) k }

/-- Contexts of a die, with their keys. -/
def Chip.ctxsOf (c : Chip) (d : Nat) : List (Nat × Ctx) :=
  c.dre.ctxs.filterMap fun e => if e.1 / 8192 = d then e.2.map fun k => (e.1 % 8192, k) else none

/-- Value of a register g0 to g31. -/
def Ctx.g (k : Ctx) (i : Nat) : Nat := k.regs.getD i 0

/-- Writes a register, 64 bits. -/
def Ctx.setG (k : Ctx) (i v : Nat) : Ctx := { k with regs := k.regs.set i (v % 2 ^ 64) }

/-- The 64 bytes of a register group (R284). -/
def Ctx.group (k : Ctx) (n : Nat) : Bytes := (List.range 8).flatMap fun i => toLE 8 (k.g (8 * n + i))

/-- Register writes that put 64 bytes into a group. -/
def groupWrites (n : Nat) (b : Bytes) : List (Nat × Nat) := (List.range 8).map fun i => (8 * n + i, leAt b (8 * i) 8)

/-- Place of a port's last status among R287's sources 34 to 38; the hash port has none. -/
def statusSlot : EnginePort → Option Nat
  | .ts => some 0
  | .hb => some 1
  | .pb => some 2
  | .ci => some 3
  | .dma => some 4
  | .hash => none

/-- The operation outstanding on a port of a context. -/
def Ctx.op (k : Ctx) (p : EnginePort) : Option PortOp := k.ops.find? fun o => o.port == p

/-- Contexts of an engine: all, and those of one kind. -/
def Chip.engineCtxs (c : Chip) (d e : Nat) : List (Nat × Ctx) := (c.ctxsOf d).filter fun k => k.1 / 128 == e

/-- The cap on contexts of one kind per engine (R280). Log 14 (DESIGN CHOICE). -/
def Chip.ctxCap (c : Chip) (job : Bool) : Nat := if c.mode = 2 then (if job then 96 else 32) else (if job then 64 else 128)

/-- The engine that works for engine `e` of die `d`: the even one of its pair in paired mode (R308). Log 65 (DESIGN CHOICE). -/
def Chip.enginePair (c : Chip) (d e : Nat) : Nat := if c.bit d R.dreCtrl 2 then e / 2 * 2 else e

/-- A job context holds the entry with serial number `seq` of function `f`. -/
def Chip.hasCtx (c : Chip) (f seq : Nat) : Bool :=
  c.dre.ctxs.any fun k => match k.2 with | some x => x.job && x.fn == f && x.index == seq | none => false

/-- Storage commands that have started for an engine and hold no context yet. -/
def Chip.jobsDue (c : Chip) (o e : Nat) : Nat :=
  (c.chans.map fun h => (h.2.started.filter fun s =>
    (s.engine.map fun g => (g.1, c.enginePair g.1 g.2)) == some (o, e) && s.recs.isNone && !c.hasCtx h.1 s.seq).length).sum

/-- The context that new work takes: the lowest free one, while its kind is under its cap; those that started commands are to
take are not a packet's (R44, R281). -/
def Chip.freeCtx (c : Chip) (d e : Nat) (job : Bool) : Option Nat :=
  let l := c.engineCtxs d e
  if c.ctxCap job ≤ (l.filter fun k => k.2.job == job).length ∨ (!job ∧ 128 ≤ l.length + c.jobsDue d e) then none
  else (List.range 128).find? fun x => !(l.any fun k => k.1 % 128 == x)

/-- The 64-byte lines of engine state that an operation reaches (R296): first and last; none where it reaches none. -/
def PortOp.lines (o : PortOp) : Option (Nat × Nat) :=
  let n := bitsN o.a 32 25
  if o.port = .hb ∧ o.op ≤ 3 then some (o.a / 64, o.a / 64)
  else if o.port = .dma ∧ bitN o.a 13 ∧ n ≠ 0 then some (o.c / 64, (o.c + n - 1) / 64)
  else none

/-- Two operations reach one line. -/
def PortOp.meets (o q : PortOp) : Bool :=
  match o.lines, q.lines with
  | some (a, b), some (s, t) => decide (a ≤ t) && decide (s ≤ b)
  | _, _ => false

/-- Every operation issued before that of port `p` to a line of engine state that it reaches has been carried out (R296). -/
def Ctx.linesDone (k : Ctx) (p : EnginePort) : Bool :=
  match k.op p with
  | none => true
  | some o => (k.ops.takeWhile fun q => q.port != p).all fun q => q.result.isSome || !q.meets o

/-- Every packet-buffer operation issued before that of port `p` has been carried out (R296). -/
def Ctx.pbDone (k : Ctx) (p : EnginePort) : Bool :=
  (k.ops.takeWhile fun o => o.port != p).all fun o => o.port != .pb || o.result.isSome

/-- Gives the operation of a port its result: status and register writes. -/
def Ctx.answer (k : Ctx) (p : EnginePort) (status : Nat) (writes : List (Nat × Nat)) : Ctx :=
  { k with ops := k.ops.map fun o => if o.port = p ∧ o.result = none then { o with started := true, result := some (status, writes) } else o }

/-- Hash by which host-originated data of a context crosses the Culvert (R26): that of its packet. Log 65 (DESIGN CHOICE). -/
def Chip.ctxHash (c : Chip) (k : Ctx) : Nat := ((k.pkt.bind c.pkt).map Pkt.hash).getD 0

/-! ### The end of a context (R299, R300) -/

/-- A context whose end action has taken effect, or that has faulted: freed once nothing is outstanding (R299). -/
def Chip.endCtx (c : Chip) (d e x : Nat) (k : Ctx) : Chip :=
  c.setCtx d e x (if k.ops.isEmpty then none else some { k with pkt := none, st := .draining })

/-- The record of a job that the part writes itself (R407). -/
def jobRec (ent : Bytes) (index status : Nat) : Bytes :=
  mkRec 0x04 status (b2n (bitN (byteAt ent 2) 1)) 0x09 (leAt ent 12 4) index 0 0

/-- The entry of a job context. Log 66 (DESIGN CHOICE). -/
def Chip.jobEntry (c : Chip) (k : Ctx) : Option Started :=
  (c.chan k.fn).started.find? fun e => e.seq == k.index && e.recs.isNone

/-- Ends the entry of a job context of die `d` with records; a message that a failed Culvert port cuts off from the function's die ends
nothing (R27). Log 65 (DESIGN CHOICE). -/
def Chip.endJob (c : Chip) (d : Nat) (k : Ctx) (recs : List Bytes) : Chip :=
  if c.reach d (c.fnDie k.fn) then c.endEntry k.fn k.index recs else c

/-- Fault causes of R300. -/
def Cause.illegal := 0
def Cause.stack := 1
def Cause.range := 2
def Cause.csError := 3
def Cause.lockstep := 4
def Cause.killed := 5
def Cause.disabled := 6

/-- A context fault (R300): counted and reported; its packet is dropped, its job completes with ENGINE_FAULT. -/
def Chip.ctxFault (c : Chip) (d e x cause : Nat) : Chip :=
  match c.ctx d e x with
  | none => c
  | some k =>
    let c := (c.endCtx d e x k).count d (R.dreFaultCnt cause)
    let c := c.raise Cls.dreContextFault d { block := 11, unit := e * 128 + x, cause := cause, value := k.pc }
    let c := match k.pkt.bind c.pkt with
      | some p => c.dropPkt p Dr.engineDrop
      | none => c
    if !k.job then c
    else
      match c.jobEntry k with
      | some s => c.endJob d k [jobRec s.bytes s.index St.engineFault]
      | none => c

/-! ### The packet of a context (R293) -/

/-- Reads `n` bytes of a packet, zero beyond its length. Log 65 (DESIGN CHOICE). -/
def Pkt.read (p : Pkt) (off n : Nat) : Bytes := slice p.buf off n

/-- Writes bytes into a packet; what lies beyond its length is not kept. -/
def Pkt.write (p : Pkt) (off : Nat) (b : Bytes) : Pkt :=
  if p.len ≤ off then p else p.setBuf ((splice p.buf off b).take p.len)

/-- Sets the packet length (R293), FCS included; growth is zero-filled. -/
def Pkt.setLen (p : Pkt) (l : Nat) : Pkt := p.setBuf (slice p.buf 0 l)

/-- A packet as a context receives it: a frame with its FCS, which a re-injected packet carries already. Log 65
(DESIGN CHOICE). -/
def Pkt.sealed (p : Pkt) : Pkt := if p.reinjected then p else { p with tail := toLE 4 (crc32 p.bytes).toNat }

/-! ### Engine state -/

/-- The 6 GiB of engine state of a die. -/
def stateBytes : Nat := 6 * 2 ^ 30

def Chip.stateRead (c : Chip) (d off n : Nat) : Bytes := treadN 0#8 c.dre.estate (d * 2 ^ 33 + off) n
def Chip.stateWrite (c : Chip) (d off : Nat) (b : Bytes) : Chip := c.setDre fun s => { s with estate := twriteN 0#8 s.estate (d * 2 ^ 33 + off) b }

end Sys2Proof.Machine
end

