-- ==== Sys2Proof/Machine/Entries.lean ====
section
/-! DEFINITION. Read tags (R329, R330) and the entries of a ring: their fetch into the entry cache (R375, R376), their start
(R373, R374, R377), and the engine that a storage command waits for (R281, R383). -/

namespace Sys2Proof.Machine

/-! ### Tags (R329–R331) -/

def tagKey (port link t : Nat) : Nat := port * 32768 + link * 16384 + t
def Chip.tag (c : Chip) (k : Nat) : Tag := tget Tag.none c.tags k
def Chip.setTag (c : Chip) (k : Nat) (t : Tag) : Chip := { c with tags := tput Tag.none c.tags k t }

/-- Tags that a link may use (R329, R314). Logs 14 (DESIGN CHOICE), 22 (PRESUMED). -/
def Chip.tagLimit (c : Chip) (pf : Nat) : Nat :=
  let port := pf / 2
  let f := c.fn pf
  let flit := c.bit (port / 4) (R.hepEpStatus (port % 4)) (9 + 16 * (pf % 2))
  if f.tag14 && flit then (if c.bit (port / 4) (R.hepEpCfg (port % 4)) 0 then 1024 else 2048)
  else if f.tag10 then 768 else 256

/-- The lowest free tags of a link. Log 58 (DESIGN CHOICE). -/
def Chip.freeTags (c : Chip) (pf n : Nat) : List Nat :=
  ((List.range (c.tagLimit pf)).filter fun t => (c.tag (tagKey (pf / 2) (pf % 2) t)).st == .free).take n

/-- The attributes of requests follow the function's PF (R326). Log 22 (PRESUMED). -/
def Chip.relaxedOf (c : Chip) (f : Nat) : Bool := (c.fn (pfOfKey (c.fnPci f))).relaxed

/-- The time at which a read times out (R330), by the Completion Timeout Value; a reserved value counts as 0b0000. -/
def timeoutNs (v : Nat) : Nat :=
  match v with
  | 1 => 100000
  | 2 => 10000000
  | 5 => 55000000
  | 6 => 210000000
  | 9 => 900000000
  | 10 => 3500000000
  | 13 => 13000000000
  | 14 => 64000000000
  | _ => 50000000

/-- Requests of a read burst (R328): pieces of the Max_Read_Request_Size. Log 22 (PRESUMED). -/
def readRequests (mrrs : Nat) : Nat → Nat → Nat → List (Nat × Nat)
  | 0, _, _ => []
  | fuel + 1, off, n => if n = 0 then [] else (off, min n mrrs) :: readRequests mrrs fuel (off + min n mrrs) (n - min n mrrs)

/-- A read request of function `f` takes a tag: its place and length, the bus address it reads. -/
def Chip.issueTag (c : Chip) (f tag : Nat) (use : TagUse) (off addr len : Nat) (relaxed : Bool) : Chip :=
  let pf := pfOfKey (c.fnPci f)
  (c.setTag (tagKey (pf / 2) (pf % 2) tag) ⟨.outstanding, f, use, off, len, 0, false, c.steady, timeoutNs (c.fn pf).ctv⟩).emit
    (.hostRead f tag addr len relaxed)

/-- Counts how a host read of a function failed, with its PF's AER log (R331): READ_REJECTED, HOST_POISON, READ_TIMEOUT. `k`: the
PCI Express function of the request. -/
def Chip.readFailed (c : Chip) (k tag status : Nat) : Chip :=
  let pf := pfOfKey k
  let c := if status = St.hostPoison then c.setFn k ((c.fn k).note 0x04 (if bitN (tget 0 (c.fn pf).cfg 4) 6 then 0x81000000 else 0x80000000)) else c
  if status = St.readRejected then c.hepEvt (pf / 2) 6
  else if status = St.hostPoison then (c.hepEvt (pf / 2) 5).aerLog pf 12 "Poisoned TLP Received" (cplHeader k tag) true
  else (c.hepEvt (pf / 2) 3).aerLog pf 14 "Completion Timeout" []

/-! ### Fetch (R371, R372, R375, R376) -/

/-- Slots named by an entry's first slot. -/
def entrySlots (b : Bytes) : Nat := bitsN (byteAt b 0) 0 6

/-- Index of the entry behind the cached ones. -/
def Chan.fetchAt (h : Chan) : Nat := wrapAdd 32 h.dsC (cacheSlots h.cache)

/-- Slots posted behind the cached entries. -/
def Chan.posted (h : Chan) : Nat := diff32 h.dsP h.dsC - cacheSlots h.cache

/-- The entry being read is malformed (R372). -/
def Chan.badFetch (h : Chan) : Bool :=
  let n := entrySlots h.fetch.bytes
  n == 0 || decide (32 < n) || decide (2 ^ h.dsK < h.fetchAt % 2 ^ h.dsK + n)

/-- Translates the pieces of a read; none where one has no mapping. -/
def Chip.xlateAll (f : Nat) : List (Nat × Nat) → Chip → Option (List (Nat × Nat)) × Chip
  | [], c => (some [], c)
  | (a, n) :: ps, c =>
    match c.translate f a false with
    | (none, c) => (none, c)
    | (some bus, c) =>
      let (r, c) := Chip.xlateAll f ps c
      (r.map fun l => (bus, n) :: l, c)

/-- The requests of translated pieces: place in the entry, address, length. -/
def pieceReads (mrrs : Nat) : Nat → List (Nat × Nat) → List (Nat × Nat × Nat)
  | _, [] => []
  | off, (bus, n) :: ps => ((readRequests mrrs 4096 0 n).map fun r => (off + r.1, bus + r.1, r.2)) ++ pieceReads mrrs (off + n) ps

/-- Reads slots `lo` to `hi` − 1 of the entry behind the cached ones, without Relaxed Ordering (R375, R326); waits for tags. -/
def Chip.fetchRead (c : Chip) (f lo hi : Nat) : Chip :=
  let h := c.chan f
  let pf := pfOfKey (c.fnPci f)
  match Chip.xlateAll f (pieces 3 (h.dsBase + 32 * ((h.fetchAt + lo) % 2 ^ h.dsK)) (32 * (hi - lo))) c with
  | (none, c) => c.haltRings f Halt.fetchFault true false 0 h.fetchAt
  | (some ps, c') =>
    let reqs := pieceReads (c.fn pf).mrrs (32 * lo) ps
    let tags := c.freeTags pf reqs.length
    if tags.length < reqs.length then c
    else
      let c := c'.setChan f { h with fetch := { h.fetch with bytes := slice h.fetch.bytes 0 (32 * hi), open_ := reqs.length } }
      (tags.zip reqs).foldl (fun c r => c.issueTag f r.1 (.fetch h.fetch.gen) r.2.1 r.2.2.1 r.2.2.2 false) c

/-- The entry being read is held whole: it joins the cache. -/
def Chan.keepEntry (h : Chan) : Chan :=
  { h with cache := h.cache ++ [slice h.fetch.bytes 0 (32 * entrySlots h.fetch.bytes)], fetch := ⟨h.fetch.gen + 1, [], 0, 0⟩ }

/-- What the slots held lead to: MALFORMED_ENTRY halts the ring once the entry is at the head, with C at its first slot; an
entry held whole joins the cache. -/
def Chip.fetchSettle (c : Chip) (f : Nat) : Chip :=
  let h := c.chan f
  if h.badFetch then (if h.cache.isEmpty then c.haltRings f Halt.malformed true false 0 h.fetchAt else c)
  else if entrySlots h.fetch.bytes ≤ h.fetch.held then c.setChan f h.keepEntry
  else c

/-- ENTRY_FETCH (R375, R376): the next entry's first slot is read as soon as it is posted, and held; its other slots once P
covers them all and the entry fits the cache (one of more than 8 slots only at the head). A fetch fault halts the ring. -/
def entryFetch (f : Nat) (c : Chip) : Chip :=
  let h := c.chan f
  let ahead := cacheSlots h.cache
  let n := entrySlots h.fetch.bytes
  if !c.fetches f || h.fetch.open_ != 0 || h.posted == 0 || decide (8 ≤ ahead) then c
  else if h.fetch.held = 0 then c.fetchRead f 0 1
  else if h.badFetch then c.fetchSettle f
  else if h.posted < n ∨ (8 < ahead + n ∧ ahead ≠ 0) then c
  else c.fetchRead f 1 n

/-- Slots of a fetch have arrived in part or in full. -/
def Chip.fetchData (c : Chip) (f gen off : Nat) (data : Bytes) (ending : Bool) : Chip :=
  let h := c.chan f
  let b := slice (splice h.fetch.bytes off data) 0 h.fetch.bytes.length
  if h.fetch.gen ≠ gen then c
  else if !ending then c.setChan f { h with fetch := { h.fetch with bytes := b } }
  else if h.fetch.open_ ≠ 1 then c.setChan f { h with fetch := { h.fetch with bytes := b, open_ := h.fetch.open_ - 1 } }
  else (c.setChan f { h with fetch := { h.fetch with bytes := b, open_ := 0, held := b.length / 32 } }).fetchSettle f

/-- A read of a fetch has failed (R386): FETCH_ERROR, unless the fetch has been discarded. -/
def Chip.fetchFailed (c : Chip) (f gen : Nat) : Chip :=
  let h := c.chan f
  if h.fetch.gen = gen then c.haltRings f Halt.fetchError true false 0 h.fetchAt else c

/-! ### The engine of a storage command (R281, R383) -/

/-- The hash of a storage command's connection. -/
def Chip.jobHash (c : Chip) (f : Nat) (b : Bytes) : Nat := c.keyHash (c.fnDie f) (byteAt b 9) (slice b 16 40)

/-- The engine of a storage command: its connection's owner die and the engine there (R281). -/
def Chip.jobEngine (c : Chip) (f : Nat) (b : Bytes) : Nat × Nat :=
  let h := c.jobHash f b
  let o := c.ownerDie (c.fnDie f) h
  (o, c.engineOf o h)

/-- A job context of an engine is free for one more storage command (R44, R280). -/
def Chip.jobRoom (c : Chip) (o e : Nat) : Bool :=
  let l := c.engineCtxs o e
  c.on o 11 && decide (c.jobsDue o e < min (c.ctxCap true - (l.filter fun k => k.2.job).length) (128 - l.length))

/-- A cipher job stays unfetched in its ring while the engine contexts of its function's die are all taken (R44). -/
def Chip.cipherWaits (c : Chip) (f : Nat) (b : Bytes) : Bool :=
  byteAt b 1 == 0x05 && decide (8192 ≤ (c.dre.ctxs.filter fun k => k.1 / 8192 == c.fnDie f && k.2.isSome).length)

/-- The engine that the storage command at the head of `f` waits for: that of its first wait, or its own. -/
def Chip.waitsFor (c : Chip) (f : Nat) (b : Bytes) : Nat × Nat :=
  match (c.chan f).waits with
  | some (o, e) => (o, c.enginePair o e)
  | none => c.jobEngine f b

/-- A storage command of `f` waits unfetched in its ring (R281): no job context of its engine is free, or the Culvert port that
carries it there is down. Log 65 (DESIGN CHOICE). -/
def Chip.storageWaits (c : Chip) (f : Nat) (b : Bytes) : Bool :=
  let x := c.waitsFor f b
  byteAt b 1 == 0x09 && !([0, 6, 7].contains (byteAt b 9 % 8)) &&
    (!c.jobRoom x.1 x.2 || (c.crossData (c.fnDie f) x.1 (c.jobHash f b) 0).isNone)

/-! ### Start (R373, R374, R377) -/

/-- A COMMIT_OPEN finds no free slot (R118), those of a commit being undone included; it completes at once where a commit
is open or it names a barrier that is not set. Log 67 (DEDUCED). -/
def Chip.openWaits (c : Chip) (b : Bytes) : Bool :=
  c.commit.phase == .undoing || (c.commit.phase == .closed && !(bitN (byteAt b 12) 0 && c.sp.barrier.group.isNone) &&
    !(c.rl.slots.any fun s => s.st == .free))

/-- An entry that waits at the head of its ring: a COMMIT_OPEN without a slot (R118), an RX_POST while the receive list
holds 4,096 buffers (R381), a STORAGE_CMD or a CIPHER_JOB without a context (R281, R44). Log 67 (DEDUCED). -/
def Chip.headWaits (c : Chip) (f : Nat) (b : Bytes) : Bool :=
  (entryRefused b f (c.chan f).ver).isNone &&
    ((byteAt b 1 == 0x40 && c.openWaits b) || c.storageWaits f b || c.cipherWaits f b ||
      (byteAt b 1 == 0x03 && decide (64 ≤ leAt b 12 4 ∧ leAt b 12 4 ≤ 65536) && decide (4096 ≤ c.rxCount f)))

/-- The order of the ring lets its head entry go (R377, R410): not in the full state, nothing in progress on the steward's ring,
a fenced entry only when every earlier one has completed, none past an RX_POST that waits. -/
def Chip.inOrder (c : Chip) (f : Nat) (b : Bytes) : Bool :=
  let h := c.chan f
  !h.full && (f != stewardFn || h.started.isEmpty) &&
    !(bitN (byteAt b 2) 0 && h.ver != 1 && f != stewardFn && !h.started.isEmpty) &&
    !(h.started.any fun e => byteAt e.bytes 1 == 0x03 && e.recs.isNone)

/-- The head entry may start (R376, R377): in order, fewer than 8 in progress, none that waits at the head. -/
def Chip.mayStart (c : Chip) (f : Nat) (b : Bytes) : Bool :=
  c.inOrder f b && decide (inProgress (c.chan f) < 8) && !c.headWaits f b

/-- The cookie of an entry that completes without effect (R373, R404): none of a reserved type; of a COMMIT_CLOSE,
COMMIT_ABORT or RULE_CHANGE the tag of the open commit. Log 69 (DESIGN CHOICE). -/
def Chip.refusedCookie (c : Chip) (b : Bytes) (st : Nat) : Nat :=
  if st = St.typeUnsupported then 0
  else if [0x41, 0x42, 0x43].contains (byteAt b 1) then (if c.commit.phase = .opened then c.commit.tag else 0)
  else entryCookie b

/-- Consumes the head of the cache: C moves past its slots (R376). -/
def Chip.consume (c : Chip) (f : Nat) (b : Bytes) (rest : List Bytes) : Chip :=
  let h := c.chan f
  c.setChan f { h with cache := rest, waits := none, dsC := wrapAdd 32 h.dsC (entrySlots b), shadowDirty := true }

/-- ENTRY_START (R373, R376, R377): the head entry is consumed and joins the entries in progress, or completes without
effect. PAD entries are left to PAD; a COMMIT_OPEN with no free slot and an RX_POST with a full list wait at the head, and so
does a STORAGE_CMD, from then on for the same engine. Log 67 (DEDUCED). -/
def entryStart (f : Nat) (c : Chip) : Chip :=
  let h := c.chan f
  match h.cache with
  | [] => c
  | b :: rest =>
    if !c.runsRing f || byteAt b 1 == 0 then c
    else if !c.mayStart f b then
      if c.storageWaits f b then c.setChan f { h with waits := some (c.waitsFor f b) } else c
    else
      let idx := h.dsC
      let eng := if byteAt b 1 = 0x09 then some (c.waitsFor f b) else none
      let c := c.consume f b rest
      let h := c.chan f
      match entryRefused b f h.ver with
      | none => c.setChan f { h with started := h.started ++ [⟨idx, h.serial, b, false, none, [], eng⟩], serial := h.serial + 1 }
      | some (st, e) =>
        let c := c.count (c.fnDie f) (R.chnEvtCnt e)
        let r := entryRec b idx st (cookie := c.refusedCookie b st)
        (c.setChan f { c.chan f with started := h.started ++ [⟨idx, h.serial, b, true, some [r], [], none⟩], serial := h.serial + 1 }).flushRing f

/-- PAD (R374, R377): consumed at the head of the ring, in its order; no record. -/
def padEntry (f : Nat) (c : Chip) : Chip :=
  match (c.chan f).cache with
  | [] => c
  | b :: rest => if c.runsRing f && byteAt b 1 == 0 && c.inOrder f b then c.consume f b rest else c

end Sys2Proof.Machine
end

