-- ==== Sys2Proof/Machine/Dma.lean ====
section
/-! DEFINITION. The shared DMA engines (R391–R403), completions of reads (R331), host sends (R240–R242, R401), DMA copies, the
transfers of cipher jobs and of engine posts. -/

namespace Sys2Proof.Machine

/-! ### Transfers -/

def Chip.xfer (c : Chip) (d n : Nat) : Option Xfer := ((c.dma d).xfers.find? fun e => e.1 == n).map Prod.snd

def Chip.setXfer (c : Chip) (d n : Nat) (x : Xfer) : Chip :=
  let m := c.dma d
  c.setDma d { m with xfers := m.xfers.map fun e => if e.1 = n then (n, x) else e }

def Chip.delXfer (c : Chip) (d n : Nat) : Chip :=
  let m := c.dma d
  c.setDma d { m with xfers := m.xfers.filter fun e => e.1 != n }

/-- Adds a transfer under the die's next number. -/
def Chip.addXfer (c : Chip) (d : Nat) (x : Xfer) : Chip :=
  let m := c.dma d
  c.setDma d { m with xfers := m.xfers ++ [(m.nextId, x)], nextId := m.nextId + 1 }

/-- A transfer before its first burst. -/
def Xfer.fresh (fn index : Nat) (ent : Bytes) (kind : XferKind) (segs : List (Nat × Nat)) : Xfer :=
  let segs := segs.filter fun s => decide (0 < s.2)
  ⟨fn, index, ent, kind, segs, (segs.map Prod.snd).sum, 0, [], [], 0, 0, false, none, false, none, 0, 0⟩

/-- The transfer serves an entry of a ring; the others are posts of engine contexts and received packets. -/
def Xfer.ofRing (x : Xfer) : Bool :=
  match x.kind with
  | .post .. => false
  | .rx _ => false
  | _ => true

/-- The transfer writes host memory. -/
def Xfer.writes (x : Xfer) : Bool :=
  match x.kind with
  | .copy => true
  | .job => true
  | .post _ _ _ w => w
  | .output _ _ => true
  | .rx _ => true
  | .send => false
  | .restore => false

/-- A bad cell of the transfer's output ends it with DATA_POISONED (R504). -/
def Xfer.poisons (x : Xfer) : Bool := x.bad.isSome && x.writes && (match x.kind with | .rx _ => false | _ => true)

/-- The transfer moves payload, whose requests may carry Relaxed Ordering (R326); a blob or a bitmap is a structure.
Log 69 (DESIGN CHOICE). -/
def Xfer.payload (x : Xfer) : Bool :=
  match x.kind with
  | .output _ _ => false
  | .restore => false
  | _ => true

/-- Two transfers belong to one ordered stream (R395): one ring, the received packets of one instance, or the posts of one
context. -/
def Xfer.sameStream (x y : Xfer) : Bool :=
  match x.kind, y.kind with
  | .post d e k _, .post d' e' k' _ => d == d' && e == e' && k == k'
  | .rx _, .rx _ => x.fn == y.fn
  | _, _ => x.ofRing && y.ofRing && x.fn == y.fn

/-- A burst received whole. -/
def Burst.whole (b : Burst) : Bool := b.open_ == 0 && !b.bad

/-- Bytes of a transfer that have been received in full from its start. -/
def Xfer.prefixLen (x : Xfer) : Nat := ((x.bursts.takeWhile Burst.whole).map Burst.len).sum

/-- Those bytes. -/
def Xfer.prefixData (x : Xfer) : Bytes := (x.bursts.takeWhile Burst.whole).flatMap Burst.data

/-- No read request of the transfer is outstanding. -/
def Xfer.quiet (x : Xfer) : Bool := x.bursts.all fun b => b.open_ == 0

/-- The address of byte `off` of a segment list, and the bytes left in its segment. -/
def segAt : List (Nat × Nat) → Nat → Option (Nat × Nat)
  | [], _ => none
  | (a, n) :: t, off => if off < n then some (a + off, n - off) else segAt t (off - n)

/-! ### Staging (R393) -/

/-- 4 KiB units of staging held on a die, by all functions or by one. -/
def Chip.staging (c : Chip) (d : Nat) (f : Option Nat) : Nat :=
  (((c.dma d).xfers.filter fun e => match f with | some f => e.2.fn == f | none => true).map fun e =>
    (e.2.bursts.filter fun b => !b.freed).length).sum

/-! ### Ending transfers -/

/-- A transfer starts to end; the first cause applied decides its status (R403), a bad cell met before among them (R504). Nothing
more is issued for it. -/
def Xfer.stop (x : Xfer) (status : Nat) : Xfer :=
  if x.status.isSome || x.closed && x.outs.isEmpty then x
  else { x with status := some (if x.poisons then St.dataPoisoned else status) }

/-- Bytes done of a transfer (R398): of a send those of the frames that entered a Headgate, of a write those up to its first bad
cell (R504). -/
def Xfer.bytesDone (x : Xfer) : Nat :=
  match x.kind with
  | .send => x.enteredBytes
  | .post _ _ _ false => x.prefixLen
  | .restore => 0
  | _ => min x.written (x.bad.getD x.written)

/-- Requested length of a transfer. -/
def Xfer.asked (x : Xfer) : Nat := if x.kind = .job then leAt x.ent 20 4 else x.total

/-- Status codes of a DMA post as its context sees them (R294). -/
def postStatus (s : Nat) : Nat :=
  if s = St.ok then 0x00 else if s = St.translationFault then 0x0D else if s = St.dataPoisoned then 0x06 else 0x0E

/-- Gives a post's result to its context: the data read crosses to the context's die and goes to the local side named by its
descriptor; over a failed port the post ends with DMA_ENDED (R27, R39). Log 65 (DESIGN CHOICE). -/
def Chip.endPost (c : Chip) (d e k : Nat) (x : Xfer) (write : Bool) (status : Nat) : Chip :=
  match c.ctx d e k with
  | none => c
  | some q =>
    match q.op .dma, c.crossData (x.fn / 512) d (c.ctxHash q) (if write then 0 else x.prefixLen) with
    | none, _ => c
    | some _, none => c.setCtx d e k (some (q.answer .dma 0x0E []))
    | some o, some c =>
      let c := c.setCtx d e k (some (q.answer .dma (postStatus status) []))
      if write then c
      else if bitN o.a 13 then c.stateWrite d o.c x.prefixData
      else
        match q.pkt.bind c.pkt with
        | some p => c.setPkt (p.write o.c x.prefixData)
        | none => c

/-- The TX_TIMESTAMP records of a send's frames once it has ended (R401): those of frames that were not made are written with
ABORTED where CHN_ABORT ended it, and with OK and no time otherwise. Log 48 (DESIGN CHOICE). -/
def Xfer.endStamps (x : Xfer) (signal : Bool) (e : Started) : Started :=
  if e.seq != x.index then e
  else
    { e with stamps := (e.stamps.zipIdx).map fun s =>
        if s.2 < x.frames then s.1
        else some (tsRecord (signal || x.aborted) (entryCookie e.bytes) e.index s.2 (if x.aborted then St.aborted else St.ok) 0) }

/-- Ends a transfer of a ring's entry (R396, R398, R401): its record becomes ready. -/
def Chip.finishEntry (c : Chip) (x : Xfer) (status : Nat) : Chip :=
  let done := x.bytesDone
  let residue := if status = St.ok then 0 else x.asked - min x.asked done
  let detail := match x.kind with
    | .send => toLE 4 x.entered
    | .output _ b => if status = St.ok then b else []
    | _ => []
  let h := c.chan x.fn
  let i := c.ringIndex x.fn x.index
  let c := if x.kind = .send then c.setChan x.fn { h with started := h.started.map (x.endStamps (bitN h.modCfg 27)) } else c
  c.endEntry x.fn x.index [entryRec x.ent i status done residue detail (signal := x.aborted)]

/-- The RX records of a packet of which `written` bytes were written (R400, R404, R405), and, where the transfer was cut, the buffers
it has not used, which head the list again. -/
def rxRecords (signal : Bool) (p : Pkt) (status written : Nat) (cut : Bool) : List Bytes × List RxBuf :=
  let starts := p.bufs.map fun b => ((p.bufs.takeWhile fun q => q != b).map RxBuf.len).sum
  let all := p.bufs.zip starts
  let used := if cut then all.filter fun u => decide (u.2 ≤ written) else all
  let n := p.bytes.length
  (used.zipIdx.map fun u =>
    let flags := b2n signal + 2 * b2n (u.2 == 0) + 4 * b2n (u.2 + 1 == used.length)
    let asked := min u.1.1.len (n - u.1.2)
    let took := min asked (written - u.1.2)
    mkRec 0x02 status flags 0 u.1.1.cookie p.hash took (if cut then asked - took else 0)
      (toLE 2 n ++ toLE 1 p.tc ++ toLE 1 (Md.err p.md) ++ toLE 8 (p.tIn / 65536)),
   (all.filter fun u => !used.contains u).map Prod.fst)

/-- A received packet's writes have ended (R400, R521): delivered; dropped on a translation fault or with its instance's reset; its
records follow. One that a loss of bus mastering cuts short (R332) leaves with no drop reason, which R218 has none for.
Log 69 (DESIGN CHOICE). -/
def Chip.finishRx (c : Chip) (x : Xfer) (p : Pkt) (status : Nat) : Chip :=
  let i := x.fn
  let ok := status == St.ok
  let (recs, left) := rxRecords (bitN (c.chan i).modCfg 27) p (if ok && p.authFail then St.authFail else status) x.written (!ok)
  let c := c.setChan i { c.chan i with rx := left ++ (c.chan i).rx }
  let c := if status = St.translationFault then c.dropPkt { p with bufs := [] } Dr.translationFault true
    else if status = St.instanceReset then c.dropPkt { p with bufs := [] } Dr.instanceReset true
    else (((c.delPkt p.id).verdict p.die p p.dispCode {}).sendStamp p 0).fcOf p
  recs.foldl (fun c r => c.placeRec i r) c

/-- Ends a transfer of die `d`. -/
def Chip.finishXfer (c : Chip) (d n : Nat) (x : Xfer) (status : Nat) : Chip :=
  let c := c.delXfer d n
  let c := if x.aborted then c.count d (R.dmaEvtCnt 2) else c
  match x.kind with
  | .post pd e k w => c.endPost pd e k x w status
  | .rx id => (match c.pkt id with | some p => c.finishRx x p status | none => c)
  | _ => c.finishEntry x status

/-! ### Host sends (R401) -/

/-- Frames of a send that are ready enter Headgates of the instance's die (R43, R242), by fuel. Log 59 (DESIGN CHOICE). -/
def Chip.sendFrames (d n : Nat) : Nat → Chip → Chip
  | 0, c => c
  | fuel + 1, c =>
    match c.xfer d n with
    | none => c
    | some x =>
      let s := sendFields (slice x.ent 16 16)
      let total := s.frames x.total
      if x.kind != .send || decide (total ≤ x.frames) || decide (x.prefixLen < s.needs x.total x.frames) then c
      else
        let k := x.frames
        let f := s.frame x.prefixData k total
        let used := s.needs x.total k
        let before := if k = 0 then 0 else s.needs x.total (k - 1)
        let x := { x with frames := k + 1, bursts := x.bursts.map fun b => if b.off + b.len ≤ used then { b with freed := true } else b }
        let c := c.setXfer d n x
        let p : Pkt := { Pkt.blank with
          die := d, bytes := f, tIn := c.now, inDie := d, srcInst := true, src := x.fn, start := c.fld d R.pgrStartHost 0 8
          send := some ⟨x.fn, x.index, k, s.tsReq, if s.oneStep && s.ptp != 0 then some s.ptp else none, s.ptpIp f⟩ }
        let lost := fun (reason : Nat) =>
          (c.countDrop d reason true x.fn none).sendStamp p 0
        let c := if !c.arrivalBlocks d then lost Dr.blockDisabled
          else if !c.fits d .ingress p.cells then lost Dr.ingressFull
          else
            let (g, c) := c.dispatch d
            (c.setXfer d n { x with entered := x.entered + 1, enteredBytes := x.enteredBytes + (used - before) }).addPkt
              ({ p with gate := g }.take d .ingress)
        Chip.sendFrames d n fuel c

/-- The segments of a TX_SEND entry, up to the first of length 0 (R380). -/
def sendSegs (b : Bytes) : List (Nat × Nat) :=
  ((List.range (2 * bitsN (byteAt b 0) 0 6 - 2)).map fun s => (leAt b (32 + 16 * s) 8, leAt b (40 + 16 * s) 4)).takeWhile fun s => s.2 != 0

/-- TX_SEND (R380, R241): the entry's checks; its reads then issue. Entry format 1 ignores ts_req and one_step (R440). -/
def txSend (f : Nat) (c : Chip) : Chip :=
  runEntry f 0x02 (fun e c =>
    let b := if (c.chan f).ver = 1 then splice e.bytes 16 (toLE 1 (byteAt e.bytes 16 &&& 0x9F)) else e.bytes
    let len := leAt b 12 4
    let s := sendFields (slice b 16 16)
    let segs := sendSegs b
    if len < 14 ∨ (if s.segEn then 262656 else 16380) < len ∨ (segs.map Prod.snd).sum ≠ len then c.endWith f e St.lengthInvalid 0 len
    else if s.refused len then c.endWith f e St.segInvalid 0 len
    else
      let h := c.chan f
      let n := s.frames len
      let stamp := fun (q : Started) =>
        if q.seq = e.seq then { q with stamps := if s.tsReq then List.replicate n none else [] } else q
      let c := c.setChan f { h with started := h.started.map stamp }
      c.addXfer (c.fnDie f) (Xfer.fresh f e.seq b .send segs)) c

/-- DMA_COPY (R382, R397): a length of 0 completes at once. -/
def dmaCopy (f : Nat) (c : Chip) : Chip :=
  runEntry f 0x04 (fun e c =>
    let len := leAt e.bytes 12 4
    if 16777216 < len then c.endWith f e St.lengthInvalid 0 len
    else if len = 0 then (c.count (c.fnDie f) (R.dmaEvtCnt 3)).endWith f e St.ok
    else c.addXfer (c.fnDie f) (Xfer.fresh f e.seq e.bytes .copy [(leAt e.bytes 16 8, len)])) c

/-! ### Burst issue (R392–R395) -/

/-- Next read burst of a transfer: its address and length. -/
def Xfer.nextRead (x : Xfer) : Option (Nat × Nat) := (segAt x.segs x.issued).map fun s => (s.1, min s.2 (4096 - s.1 % 4096))

/-- Units of a cipher job that a core runs. -/
def Chip.jobRuns (c : Chip) (d fn index : Nat) : Bool :=
  (tget [] c.cp.units d).any fun u => u.running && (match u.kind with | .job f i _ => f == fn && i == index | _ => false)

/-- The status a transfer ends with now; none while it goes on. A loss of bus mastering and an instance reset end it at
once; every other cause lets issued bursts finish and whole bursts of a copy be written (R402); an aborted job ends at its
next pool entry, whatever unit of it runs. Log 69 (DESIGN CHOICE). -/
def Chip.xferEnd (c : Chip) (d : Nat) (x : Xfer) : Option Nat :=
  match x.status with
  | some s =>
    if s = St.masterDisabled ∨ s = St.instanceReset then some s
    else if x.closed then (if x.outs.isEmpty then some s else none)
    else if x.quiet && (x.kind != .copy || x.outs.isEmpty) && (x.aborted || !c.jobRuns d x.fn x.index) then some s
    else none
  | none =>
    let done := match x.kind with
      | .send => decide ((sendFields (slice x.ent 16 16)).frames x.total ≤ x.frames)
      | .copy => decide (x.total ≤ x.written)
      | .job => x.closed && x.outs.isEmpty
      | .output _ _ => x.outs.isEmpty
      | .rx _ => x.outs.isEmpty
      | .restore => false
      | .post _ _ _ w => if w then x.outs.isEmpty else decide (x.total ≤ x.prefixLen)
    if done then some (if x.poisons then St.dataPoisoned else St.ok) else none

/-- The transfers of the same stream that started before one (R395). -/
def Chip.ahead (c : Chip) (d : Nat) (e : Nat × Xfer) : List Xfer :=
  if e.2.ofRing then ((c.dma d).xfers.map Prod.snd).filter fun o => o.sameStream e.2 && decide (o.index < e.2.index)
  else (((c.dma d).xfers.takeWhile fun o => o.1 != e.1).map Prod.snd).filter fun o => o.sameStream e.2

/-- An entry of the ring that started before a transfer's own and is still to become a transfer of the types given (R395). -/
def Chip.unrunAhead (c : Chip) (x : Xfer) (types : List Nat) : Bool :=
  x.ofRing && (c.chan x.fn).started.any fun e => decide (e.seq < x.index) && !e.run && e.recs.isNone && types.contains (byteAt e.bytes 1)

/-- A transfer may issue its next read burst: it runs, every earlier transfer of its stream has issued its own (R395), its
function masters the bus, staging and tags are free. -/
def Chip.readReady (c : Chip) (d : Nat) (e : Nat × Xfer) : Bool :=
  let x := e.2
  let pf := pfOfKey (c.fnPci x.fn)
  match x.nextRead with
  | none => false
  | some (a, n) =>
    let reqs := readRequests (c.fn pf).mrrs 4096 a n
    x.status.isNone && c.fnMasters x.fn && c.linkUp (pf / 2) (pf % 2) &&
      (c.ahead d e).all (fun o => o.status.isSome || decide (o.total ≤ o.issued)) && !c.unrunAhead x [0x02, 0x04, 0x05] &&
      decide (c.staging d none < 1024) && decide (c.staging d (some x.fn) < c.fld d R.dmaStageCap 0 11) &&
      decide ((c.freeTags pf reqs.length).length = reqs.length)

/-- A transfer has a write burst ready, and every earlier transfer of its stream has issued its own (R395). -/
def Chip.writeReady (c : Chip) (d : Nat) (e : Nat × Xfer) : Bool :=
  let x := e.2
  !x.outs.isEmpty && c.fnMasters x.fn && (c.ahead d e).all (fun o => !o.writes || (c.xferEnd d o).isSome) &&
    !c.unrunAhead x [0x04, 0x05, 0x08]

/-- The transfer served next in round robin over functions after the one served last (R394). -/
def nextServed (l : List (Nat × Xfer)) (last : Nat) : Option (Nat × Xfer) :=
  l.foldl (fun a e => match a with
    | none => some e
    | some b => if (e.2.fn + 4096 - last) % 4097 < (b.2.fn + 4096 - last) % 4097 then some e else some b) none

/-- Issues the next read burst of a transfer. -/
def Chip.issueRead (c : Chip) (d n : Nat) (x : Xfer) : Chip :=
  match x.nextRead with
  | none => c
  | some (a, len) =>
    match c.translate x.fn a false with
    | (none, c) => c.setXfer d n (x.stop St.translationFault)
    | (some bus, c) =>
      let pf := pfOfKey (c.fnPci x.fn)
      let reqs := readRequests (c.fn pf).mrrs 4096 0 len
      let tags := c.freeTags pf reqs.length
      let b : Burst := ⟨x.issued, len, List.replicate len 0, reqs.length, false, false⟩
      let c := c.setXfer d n { x with issued := x.issued + len, bursts := x.bursts ++ [b] }
      (tags.zip reqs).foldl (fun c r =>
        c.issueTag x.fn r.1 (.xfer d n x.bursts.length) r.2.1 (bus + r.2.1) r.2.2 (c.relaxedOf x.fn && x.payload)) c

/-- A bad cell met at byte `bad` of a transfer's output (R504); the packet it belongs to keeps the mark. -/
def Chip.markBad (c : Chip) (x : Xfer) (bad : Option Nat) : Xfer × Chip :=
  match x.bad, bad with
  | none, some b =>
    ({ x with bad := some b }, match x.kind with
      | .rx id => (match c.pkt id with | some p => c.setPkt (p.spoil b) | none => c)
      | _ => c)
  | _, _ => (x, c)

/-- Issues the next write burst of a transfer: from its first bad cell on the requests are poisoned (R504). The staging space of a
copy is released with it (R393). -/
def Chip.issueWrite (c : Chip) (d n : Nat) (x : Xfer) (cells : CellRead) : Chip :=
  match x.outs with
  | [] => c
  | (a, bs) :: rest =>
    let k := min bs.length (4096 - a % 4096)
    match c.translate x.fn a true with
    | (none, c) => c.setXfer d n { (x.stop St.translationFault) with outs := [] }
    | (some bus, c) =>
      let (found, c) := c.cellsCheck d false cells k { block := 15 }
      let (x, c) := c.markBad x (found.map fun b => x.written + b)
      let outs := if bs.length ≤ k then rest else (a + k, bs.drop k) :: rest
      let good := min k ((x.bad.getD (x.written + k)) - x.written)
      let done := x.written + k
      let bursts := if x.kind = .copy then x.bursts.map fun b => if b.off + b.len ≤ done then { b with freed := true } else b else x.bursts
      let ro := c.relaxedOf x.fn && x.payload
      let c := c.setXfer d n { x with outs := outs, written := done, bursts := bursts }
      (c.emitWrite x.fn bus (bs.take good) ro false).emitWrite x.fn (bus + good) ((bs.take k).drop good) ro true

/-- BURST_ISSUE (R392–R395): one engine of a die takes its next turn; a dirty bitmap goes before payload. `cells`: what the
bytes to be written read as (R504). -/
def burstIssue (die : Nat) (write : Bool) (cells : CellRead) (c : Chip) : Chip :=
  if !c.on die 15 then c
  else
    let m := c.dma die
    if write then
      let ready := m.xfers.filter (c.writeReady die)
      let maps := ready.filter fun e => byteAt e.2.ent 1 == 0x56
      match nextServed (if maps.isEmpty then ready else maps) m.lastWrite with
      | none => c
      | some (n, x) => (c.setDma die { m with lastWrite := x.fn }).issueWrite die n x cells
    else
      match nextServed (m.xfers.filter (c.readReady die)) m.lastRead with
      | none => c
      | some (n, x) => (c.setDma die { m with lastRead := x.fn }).issueRead die n x

/-! ### Completions of reads (R331) -/

/-- A read burst of a copy that is held whole, behind only such bursts, is made ready to be written (R393). -/
def Xfer.handOn (x : Xfer) : Xfer :=
  if x.kind != .copy then x
  else
    let ready := ((x.bursts.takeWhile Burst.whole).drop x.frames)
    { x with
      frames := x.frames + ready.length
      outs := x.outs ++ ready.map fun b => (leAt x.ent 24 8 + b.off, b.data) }

/-- Data units of a cipher job (R248): offset and length of each. -/
def jobParts (ent : Bytes) : List (Nat × Nat) :=
  let mode := bitsN (byteAt ent 8) 1 3
  let len := leAt ent 20 4
  let dec := bitN (byteAt ent 8) 0
  let size := if mode = 4 then leAt ent 52 4 else if mode = 2 ∨ (mode = 3 ∧ dec) then 16384 else 0
  if size = 0 ∨ len = 0 then [(0, len)]
  else (List.range (ceilDiv len size)).map fun k => (k * size, min size (len - k * size))

/-- Pool entries that a unit holds (R250). Log 14 (DESIGN CHOICE). -/
def poolEntries (n : Nat) : Nat := min 64 (max 1 (ceilDiv n 256))

/-- The larger of the input and the output of a unit of `n` data bytes of a job (R250): a tag counts with the data it comes
with, padding with what it pads. -/
def jobUnitBytes (mode : Nat) (dec : Bool) (n : Nat) : Nat :=
  if mode = 3 ∧ !dec then n + (16 - n % 16)
  else if mode = 0 ∨ mode = 5 ∨ (mode = 1 ∧ dec) then n + 16
  else n

/-- The input of a cipher job has been read: its units join the job queue. -/
def Chip.startJob (c : Chip) (d : Nat) (fn index : Nat) (ent data : Bytes) : Chip :=
  let len := leAt ent 20 4
  let aadLen := if [0, 5].contains (bitsN (byteAt ent 8) 1 3) then leAt ent 48 4 else 0
  let parts := jobParts ent
  let j : Job := ⟨fn, index, ent, slice data 0 len, slice data len aadLen, data.drop (len + aadLen), parts.map fun _ => none, 0, St.ok⟩
  c.setCp fun s => { s with
    jobs := s.jobs ++ [j]
    nextUnit := s.nextUnit + parts.length
    units := tmod [] s.units d fun l => l ++ (parts.zipIdx.map fun p =>
      (⟨s.nextUnit + p.2, .job fn index p.2, false, 0, leAt ent 16 4, none, 0, poolEntries (jobUnitBytes (bitsN (byteAt ent 8) 1 3) (bitN (byteAt ent 8) 0) p.1.2)⟩ : CUnit)) }

/-- What a newly received piece of a transfer makes ready. The bytes of a cipher job leave staging for its core as they come
(R393); those of a copy when they are written. Log 69 (DESIGN CHOICE). -/
def Chip.received (c : Chip) (d n : Nat) : Chip :=
  match c.xfer d n with
  | none => c
  | some x =>
    match x.kind with
    | .send => Chip.sendFrames d n (1 + ceilDiv x.total 1) c
    | .copy => c.setXfer d n x.handOn
    | .job =>
      let x := { x with bursts := x.bursts.map fun b => if b.whole then { b with freed := true } else b }
      let c := c.setXfer d n x
      if x.prefixLen = x.total ∧ x.issued = x.total ∧ x.status = none ∧ !(c.cp.jobs.any fun j => j.fn == x.fn && j.index == x.index) then
        c.startJob d x.fn x.index x.ent x.prefixData
      else c
    | .output _ _ => c
    | _ => c.setXfer d n { x with bursts := x.bursts.map fun b => if b.whole then { b with freed := true } else b }

/-- One request of a burst of a transfer has ended: with its data, or failed. -/
def Xfer.closeReq (x : Xfer) (burst : Nat) (bad : Bool) : Xfer :=
  { x with bursts := x.bursts.modify burst fun b => { b with open_ := b.open_ - 1, bad := b.bad || bad } }

/-- Puts received bytes into a burst. -/
def Xfer.fill (x : Xfer) (burst off : Nat) (data : Bytes) : Xfer :=
  { x with bursts := x.bursts.modify burst fun b => { b with data := slice (splice b.data off data) 0 b.len } }

/-- A request has failed: its transfer ends with a status; a fetch halts its ring (R386). -/
def Chip.failReq (c : Chip) (t : Tag) (status : Nat) : Chip :=
  match t.use with
  | .xfer d n burst =>
    match c.xfer d n with
    | none => c
    | some x => c.setXfer d n ((x.closeReq burst true).stop status)
  | .fetch gen => c.fetchFailed t.fn gen

/-- Data of a request has arrived; `ending`: all of it. -/
def Chip.takeData (c : Chip) (t : Tag) (data : Bytes) (ending : Bool) : Chip :=
  match t.use with
  | .xfer d n burst =>
    match c.xfer d n with
    | none => c
    | some x =>
      let x := x.fill burst (t.off + t.got) data
      let c := c.setXfer d n (if ending then x.closeReq burst false else x)
      if ending then c.received d n else c
  | .fetch gen => c.fetchData t.fn gen (t.off + t.got) data ending

/-- READ_COMPLETION (R331): by the state of its tag. `byteCount` is the Byte Count field; the ending completion is the one
whose Byte Count equals its length. -/
def readCompletion (port link tag : Nat) (status : CplStatus) (byteCount : Nat) (data : Bytes) (c : Chip) : Chip :=
  let k := tagKey port link tag
  let t := c.tag k
  let pf := port * 2 + link
  let ending := byteCount == data.length
  let free := fun (c : Chip) => if ending then c.setTag k Tag.none else c.setTag k { t with got := t.got + data.length }
  let unexpected := fun (c : Chip) => c.aerLog pf 16 "Unexpected Completion" (cplHeader (c.fnPci t.fn) tag) true
  if !c.linkUp port link then c
  else
    match t.st with
    | .free => (c.hepEvt port 1).aerLog pf 16 "Unexpected Completion" (cplHeader pf tag) true
    | .held =>
      let c := unexpected (c.hepEvt port 0)
      if ending then c.setTag k Tag.none else c
    | .quarantined => if ending then c.setTag k Tag.none else c
    | .outstanding =>
      match status with
      | .success => if t.poisoned then free c else (free c).takeData t data ending
      | .poisoned =>
        let c := if ending then c.setTag k Tag.none else c.setTag k { t with poisoned := true, got := t.got + data.length }
        if t.poisoned then c else (c.readFailed (c.fnPci t.fn) tag St.hostPoison).failReq t St.hostPoison
      | _ =>
        let c := c.setFn (c.fnPci t.fn) ((c.fn (c.fnPci t.fn)).note 0x04 (if status = .unsupported then 2 ^ 29 else if status = .abort then 2 ^ 28 else 0))
        ((c.setTag k Tag.none).readFailed (c.fnPci t.fn) tag St.readRejected).failReq t St.readRejected

/-- READ_TIMEOUT (R330, R331): no earlier than 90 % of the value in force when the request was issued. The tag is held, or
free with a hold of 0. Log 12 (DEDUCED). -/
def readTimeout (port link tag : Nat) (c : Chip) : Chip :=
  let k := tagKey port link tag
  let t := c.tag k
  let hold := c.setTag k (if c.fld (port / 4) R.hepQuarHold 0 16 = 0 then Tag.none else { t with st := .held, since := c.steady })
  if !c.alive || decide (10 * (c.steady - t.since) < 9 * t.limit) then c
  else
    match t.st with
    | .outstanding =>
      let c := hold.readFailed (c.fnPci t.fn) tag St.readTimeout
      if t.poisoned then c else c.failReq t St.readTimeout
    | .quarantined => hold.hepEvt port 2
    | _ => c

/-- TAG_HOLD_EXPIRY (R331): HEP_QUAR_HOLD has passed since the timeout. Log 12 (DEDUCED). -/
def tagHoldExpiry (port link tag : Nat) (c : Chip) : Chip :=
  let k := tagKey port link tag
  if c.alive && (c.tag k).st == .held && decide (c.fld (port / 4) R.hepQuarHold 0 16 * 1000000 ≤ c.steady - (c.tag k).since) then
    c.setTag k Tag.none
  else c

/-! ### The end of a transfer (R396) -/

/-- Removes a cipher job and its units. -/
def Chip.dropJob (c : Chip) (d fn index : Nat) : Chip :=
  c.setCp fun s => { s with
    jobs := s.jobs.filter fun j => !(j.fn == fn && j.index == index)
    units := tmod [] s.units d fun l => l.filter fun u => match u.kind with | .job f i _ => !(f == fn && i == index) | _ => true }

/-- The end of a transfer waits. -/
def Chip.endWaits (c : Chip) (d : Nat) (x : Xfer) : Bool :=
  match x.kind with
  | .post pd e k w => !w && (match c.ctx pd e k with | some q => c.dataWaits d pd (c.ctxHash q) | none => false)
  | _ => (c.chan x.fn).full

/-- TRANSFER_END (R396): a transfer that has ended gives its record; while its function is in the full state it waits with what it
holds (R410), and the data of a post waits for its turn on the Culvert (R39). -/
def transferEnd (die n : Nat) (c : Chip) : Chip :=
  if !c.alive then c
  else
    match c.xfer die n with
    | none => c
    | some x =>
      match (if c.endWaits die x then none else c.xferEnd die x) with
      | none => c
      | some s => (if x.kind = .job then c.dropJob die x.fn x.index else c).finishXfer die n x s

/-- Requested length of an entry whose row has not been performed: of a dirty bitmap by the tracking of its instance.
Log 69 (DESIGN CHOICE). -/
def Chip.unrunLen (c : Chip) (b : Bytes) : Nat :=
  match byteAt b 1 with
  | 0x05 => leAt b 20 4
  | 0x08 => 136
  | 0x56 => (match (c.inst (leAt b 8 2)).tracking with | some t => t.gib * 32768 | none => 0)
  | _ => leAt b 12 4

/-- An entry whose own row has not been performed counts as a transfer in progress (R391): sends, copies, cipher jobs, and,
where `all`, KEK_QUERY, DIRTY_SYNC, SAVE, RESTORE and SPAN_NEIGHBOURS. Log 69 (DESIGN CHOICE). -/
def Started.moves (e : Started) (all : Bool) : Bool :=
  !e.run && e.recs.isNone &&
    ([0x02, 0x04, 0x05].contains (byteAt e.bytes 1) || (all && [0x08, 0x56, 0x5A, 0x5B, 0x61].contains (byteAt e.bytes 1)))

/-- Such entries end with a status. Log 69 (DESIGN CHOICE). -/
def Chip.stopUnrun (c : Chip) (f status : Nat) (all signal : Bool) : Chip :=
  ((c.chan f).started.filter fun e => e.moves all).foldl (fun c e =>
    (c.markRun f e.seq).endEntry f e.seq [entryRec e.bytes e.index status 0 (c.unrunLen e.bytes) (signal := signal)]) c

/-- What CHN_ABORT does to a transfer of a ring (R402): a send, a copy or a cipher job ends, unless its last burst has issued; a
job issues none of its output that has not. -/
def Xfer.abort (x : Xfer) : Xfer :=
  match x.kind with
  | .send => if x.status.isSome || decide (x.total ≤ x.issued) then x else { (x.stop St.aborted) with aborted := true }
  | .copy => if x.status.isSome || decide (x.total ≤ x.issued) then x else { (x.stop St.aborted) with aborted := true }
  | .job => if x.status.isSome || x.closed && x.outs.isEmpty then x else { (x.stop St.aborted) with aborted := true, outs := [] }
  | _ => x

/-- CHN_ABORT (R402): every transfer of the ring ends. -/
def chnAbort (f : Nat) (value : Reg32) (c : Chip) : Chip :=
  if !c.bellOk f || !value.getLsbD 0 then c
  else
    let d := c.fnDie f
    let m := c.dma d
    (c.setDma d { m with xfers := m.xfers.map fun e => (e.1, if e.2.fn == f then e.2.abort else e.2) }).stopUnrun f St.aborted false true

/-- Ends every transfer of a function at once with a status, in start order (R332, R360), and quarantines its outstanding
reads (R331). Answers how many ended. Log 69 (DESIGN CHOICE). -/
def Chip.endTransfers (c : Chip) (f status : Nat) : Nat × Chip :=
  let d := c.fnDie f
  let mine := (c.dma d).xfers.filter fun e => e.2.fn == f
  let tags := c.tags.map (fun (e : Nat × Tag) => if e.2.fn = f ∧ e.2.st = TagSt.outstanding then (e.1, { e.2 with st := TagSt.quarantined }) else e)
  let c := { c with tags := tags }
  let c := mine.foldl (fun c e =>
    let x := { e.2 with outs := [] }
    let s := match e.2.status with | some s => if status = St.instanceReset then status else s | none => status
    (if x.kind = .job then c.dropJob d f x.index else c).finishXfer d e.1 x s) c
  let n := ((c.chan f).started.filter fun e => e.moves true).length
  ((mine.filter fun e => e.2.status.isNone).length + n, c.stopUnrun f status true false)

end Sys2Proof.Machine
end

