-- ==== Sys2Proof/Machine/Ports.lean ====
section
/-! DEFINITION. Ethernet ports (spec/08) and the egress side of the Flume (R54–R61). -/

namespace Sys2Proof.Machine

/-! ### PTP fields of a frame -/

/-- Adds a time in 2⁻¹⁶ ns to the correctionField of the PTP header at `o` (R245). Log 48 (DESIGN CHOICE). -/
def addCorrection (b : Bytes) (o : Nat) (t : Int) : Bytes :=
  splice b (o + 8) (toBE 8 (((beAt b (o + 8) 8 : Int) + t) % 2 ^ 64).toNat)

/-- The UDP checksum before the PTP header at `o`, under the IP header `ip`, after an update: 0 over IPv4, recomputed over IPv6
(R245). Log 48 (DESIGN CHOICE). -/
def fixPtpSum (b : Bytes) (o : Nat) (ip : Option (Nat × Bool)) : Bytes :=
  match ip with
  | some (_, false) => splice b (o - 2) [0, 0]
  | some (l3, true) => fixL4 b l3 (o - 8) true true
  | none => b

/-- A signed timestamp adjustment in 2⁻¹⁶ ns (R243): receive (0) or transmit (12). Log 48 (DESIGN CHOICE). -/
def Chip.tsAdj (c : Chip) (lane lo : Nat) : Int := toSigned 12 (c.fld (lane / 64) (R.macPortPtp (lane % 64)) lo 12) * 4096

/-- A time moved by an adjustment, not below 0. Log 48 (DESIGN CHOICE). -/
def adjust (t : Nat) (a : Int) : Nat := ((t : Int) + a).toNat

/-! ### Stomping (R229, R230) -/

/-- The transmission of packet `id` ends, cut after `n` bytes if given: the line keeps it until its gap is over (R228), and
forgets ended ones whose gap is. -/
def Chip.endTx (c : Chip) (lane id : Nat) (cut : Option Nat) : Chip :=
  c.setTx lane ((c.txOf lane).filterMap fun x =>
    if x.pkt = id then some { x with stop := match cut with | some n => x.stop - c.byteTime lane (x.len - n) | none => x.stop }
    else if (c.pkt x.pkt).isNone && decide (x.stop + c.gap lane ≤ c.now) then none else some x)

/-- The transmission of a packet, if its line is committed to it. -/
def Chip.txFor (c : Chip) (p : Pkt) : Option Tx := (c.txOf p.dst).find? fun x => x.pkt == p.id

/-- Stomps a frame in transmission: its line ends, TX_STOMPED, its verdict record; the send it came from learns when it was begun
(R401). Log 43 (DESIGN CHOICE). -/
def Chip.stomp (c : Chip) (p : Pkt) (bytes : Bytes) : Chip :=
  let lane := p.dst
  let t := match c.txFor p with | some x => adjust x.start (c.tsAdj lane 12) | none => 0
  let c := (c.endTx lane p.id (some bytes.length)).delPkt p.id
  let c := ((c.emit (.frame lane bytes true)).macCount lane 14).verdict p.die p p.dispCode { stomped := true }
  (c.sendStamp p t).fcOf p

/-- Bytes of a frame that its line has carried by now. Log 43 (DESIGN CHOICE). -/
def Chip.sentSoFar (c : Chip) (p : Pkt) : Nat :=
  match c.txFor p with
  | some x => min p.bytes.length ((c.now - x.start) * 25 * c.portWidth p.dst / 65536)
  | none => 0

/-- Stomps a frame of which `known` bytes have left when the fault becomes known: it ends within the 48 ns of R229 after
that (how far is a free value), and no further than byte `limit` or where its line was to end. Log 43 (DESIGN CHOICE). -/
def Chip.stompFrom (c : Chip) (p : Pkt) (known limit : Nat) : Chip :=
  let limit := match c.txFor p with | some x => min limit x.len | none => limit
  c.draw.stomp p (p.bytes.take (min limit (known + c.drawn (1200 * c.portWidth p.dst + 1))))

/-- The first bit of a frame has left: its line is committed to it and its start has come. -/
def Chip.begun (c : Chip) (p : Pkt) : Bool := p.stage == .sending && (match c.txFor p with | some x => decide (x.start ≤ c.now) | none => true)

/-- A received frame has proved faulty, of which `limit` bytes came in: stomped if its first bit has left, else dropped with its
reason, and its line freed (R230). -/
def Chip.faulty (c : Chip) (p : Pkt) (reason limit : Nat) : Chip :=
  if c.begun p then c.stompFrom p (c.sentSoFar p) limit
  else (c.setTx p.dst ((c.txOf p.dst).filter fun x => x.pkt != p.id)).dropPkt p reason

/-! ### Reception -/

/-- A frame that a span-enabled port consumes as HSP (R416), as it stands once MACsec has opened it; one whose tag has failed
among them. Log 42 (DESIGN CHOICE). -/
def Chip.consumed (c : Chip) (lane : Nat) (b : Bytes) : Bool := c.spanPort lane && etherType b == 0x88B5 && byteAt b 14 == 0x48

/-- The port may open one more frame: none is open, or one is between its fragments on a port with active preemption, and
this one is express (R239). -/
def Chip.rxRoom (c : Chip) (lane : Nat) : Bool := (c.rxOf lane).isEmpty || ((c.rxOf lane).length == 1 && c.preempting lane)

/-- Opens a frame under reception. -/
def Chip.openRx (c : Chip) (lane : Nat) (r : Rx) : Chip := c.setRx lane (r :: c.rxOf lane)

/-- FRAME_ARRIVAL (R54): the frame is timestamped; MAC Control frames are the port's (R233); secured frames are opened (R256),
and HSP frames taken (R416); the cells of any other are taken from the ingress reserve (R189) and the rotation gives it a Headgate
(R43). `slotErr`: the read of its key slot fails (R266). Log 42 (DESIGN CHOICE). -/
def frameArrival (lane phase : Nat) (bytes : Bytes) (slotErr : ScrubOutcome) (c : Chip) : Chip :=
  if !c.portUp lane || !c.rxRoom lane then c
  else if etherType bytes = 0x8808 then c.openRx lane ⟨none, bytes, true, false, []⟩
  else
    let d := lane / 64
    let lost := fun (reason : Nat) (c : Chip) => (c.openRx lane ⟨none, bytes, false, false, []⟩).countDrop d reason false lane none
    let (r, c) := c.macsecRx lane bytes slotErr
    match r with
    | .error e => lost e c
    | .ok (b, bad) =>
      let p : Pkt := { Pkt.blank with
        die := d, bytes := b, tIn := adjust (c.now + phase) (c.tsAdj lane 0), inDie := d, src := lane
        start := c.fld d (R.pgrStartNet (lane % 64)) 0 8, whole := false, authFail := bad }
      if c.consumed lane b then c.openRx lane ⟨none, bytes, true, false, []⟩
      else if !c.arrivalBlocks d then lost Dr.blockDisabled c
      else if !c.fits d .ingress p.cells then lost Dr.ingressFull c
      else
        let (g, c) := c.dispatch d
        let id := c.dp.nextPkt
        ((c.addPkt ({ p with gate := g }.take d .ingress)).openRx lane ⟨some id, bytes, false, false, []⟩).fcPort lane

/-- A frame under reception proves faulty: the MAC counter, then its packet stomped or dropped; one that the port keeps for itself
is dropped at the port (R230). Its mirror copies go with it (R229). -/
def Chip.closeRx (c : Chip) (r : Rx) (lane counter reason limit : Nat) : Chip :=
  let c := c.macCount lane counter
  match r.pkt.bind c.pkt with
  | some p => c.faulty p reason limit
  | none => if r.ctl then c.countDrop (lane / 64) reason false lane none else c

/-- OVERSIZE_DETECTED (R226): byte M + 1 has arrived. Log 42 (DESIGN CHOICE). -/
def oversizeDetected (lane : Nat) (c : Chip) : Chip :=
  match c.rxOf lane with
  | [] => c
  | r :: rest =>
    if !c.alive || r.ended || r.bytes.length + 4 ≤ c.maxFrame lane then c
    else (c.setRx lane ({ r with ended := true } :: rest)).closeRx r lane 3 Dr.oversize r.bytes.length

/-- A good frame has been received whole (R229): its mirror copies leave, its packet goes on, and one whose tag has failed
(R271) while it is being sent is ended. -/
def Chip.goodEnd (c : Chip) (r : Rx) : Chip :=
  let c := r.copies.foldl (fun (c : Chip) e => c.emit (.mirror e.1 e.2)) c
  match r.pkt.bind c.pkt with
  | none => c
  | some p =>
    let p := { p with whole := true }
    let c := c.setPkt p
    if p.stage == .waitFcs then (c.toOwner p).fcOf p
    else if p.stage == .sending && p.authFail then c.stompFrom p (c.sentSoFar p) p.bytes.length
    else c

/-- FRAME_END (R226, R230, R239): the checks of the innermost frame, a reassembly error those of the outermost; a good tenant
frame that waited goes on. Log 42 (DESIGN CHOICE). -/
def frameEnd (lane : Nat) (fcsOk reasmErr : Bool) (fecCorrected fecUncorrected : Nat) (c : Chip) : Chip :=
  match (if reasmErr then (c.rxOf lane).getLast? else (c.rxOf lane).head?) with
  | none => c
  | some r =>
    if !c.alive then c
    else
      let c := ((c.macCount lane 7 fecCorrected).macCount lane 8 fecUncorrected).setRx lane
        (if reasmErr then (c.rxOf lane).dropLast else (c.rxOf lane).tail)
      let n := r.bytes.length + 4
      let close := fun (counter reason : Nat) => c.closeRx r lane counter reason r.bytes.length
      if r.ended then c
      else if reasmErr then close 6 Dr.rxAborted
      else if n < 64 then close 2 Dr.runt
      else if c.maxFrame lane < n then close 3 Dr.oversize
      else if !fcsOk || fecUncorrected != 0 then close 4 Dr.fcsError
      else ((c.macCount lane 0).macCount lane 1 n).goodEnd r

/-- Closes every frame under reception on a lane as faulty at once (R231): of the innermost `inner` bytes have come in, of
one between its fragments `outer`. -/
def Chip.abortRx (c : Chip) (lane inner outer : Nat) : Chip :=
  let close := fun (c : Chip) (e : Rx × Nat) => if e.1.ended then c else c.closeRx e.1 lane 5 Dr.rxAborted e.2
  ((c.rxOf lane).zip [inner, outer]).foldl close (c.setRx lane [])

/-! ### PAUSE and PFC (R233–R236) -/

/-- Honours a pause of `quanta` for a priority from 400 ns on: a pause that is in force, or will be by then, runs at least to
that instant (R234). -/
def Chip.honour (c : Chip) (lane q quanta : Nat) : Chip :=
  let t := c.now
  let at_ := t + 400 * 65536
  let l := (c.pausesOf lane q).map fun i => if i.from_ < i.until_ ∧ t < i.until_ then { i with until_ := max i.until_ at_ } else i
  let l := l ++ [⟨at_, at_ + quanta * c.byteTime lane 64⟩]
  c.setDp fun d => { d with pauses := tput [] d.pauses (lane * 16 + q) l }

/-- PAUSE_RECEIVED (R233, R234). -/
def pauseReceived (lane : Nat) (frame : Bytes) (c : Chip) : Chip :=
  if !c.portUp lane || etherType frame != 0x8808 then c
  else
    let fc := c.rd (lane / 64) (R.macPortFc (lane % 64))
    let op := beAt frame 14 2
    if op = 0x0001 then
      let c := c.macCount lane 9
      if bitN fc 0 then c.honour lane 8 (beAt frame 16 2) else c.macCount lane 10
    else if op = 0x0101 then
      let c := c.macCount lane 9
      let go := (bitList (byteAt frame 17) 8).filter fun q => bitN fc (8 + q)
      if go.isEmpty then c.macCount lane 10
      else go.foldl (fun c q => c.honour lane q (beAt frame (18 + 2 * q) 2)) c
    else c.macCount lane 11

/-- PAUSE_EXPIRY (R234): an honoured pause has run out; those that newer ones have replaced go with it. Log 12 (DEDUCED). -/
def pauseExpiry (lane : Nat) (prio : Option Nat) (c : Chip) : Chip :=
  let q := prio.getD 8
  let l := c.pausesOf lane q
  let past := match (l.filter fun i => decide (i.from_ ≤ c.now)).getLast? with
    | some i => if c.due i.until_ then [] else [i]
    | none => []
  if !c.alive then c
  else c.setDp fun d => { d with pauses := tput [] d.pauses (lane * 16 + q) (past ++ l.filter fun i => decide (c.now < i.from_)) }

/-- PAUSE_RESEND (R236): 32,768 quanta after the last one, while the count stays above xon. -/
def pauseResend (lane : Nat) (prio : Option Nat) (c : Chip) : Chip :=
  let q := prio.getD 8
  if !c.portUp lane || !c.dp.xoff.contains (lane * 16 + q) then c
  else if c.fld (lane / 64) (R.macPortFcthr (lane % 64)) 16 16 < c.fcCells lane prio then
    c.sendOwn lane (.fc q 0xFFFF)
  else c.fcPort lane

/-! ### Preemption verification, link state -/

/-- PREEMPT_VERIFY (R237): the exchange succeeds; a port that is not verifying answers the partner. Log 47 (DESIGN CHOICE). -/
def preemptVerify (lane : Nat) (c : Chip) : Chip :=
  let d := lane / 64
  let r := R.macPortPmp (lane % 64)
  if !c.portUp lane || !c.bit d r 0 then c
  else if c.fld d r 10 2 = 1 then c.wfld d r 10 2 2
  else c.emit (.verify lane true)

/-- VERIFY_TIMEOUT (R237). Log 47 (DESIGN CHOICE). -/
def verifyTimeout (lane : Nat) (c : Chip) : Chip :=
  let d := lane / 64
  let r := R.macPortPmp (lane % 64)
  if c.alive && c.fld d r 10 2 == 1 then c.wfld d r 10 2 3 else c

/-- Ends every frame in transmission on a port, with a reason (R225, R232). Log 45 (DEDUCED). -/
def Chip.cutLine (c : Chip) (lane reason : Nat) : Chip :=
  (c.txOf lane).foldl (fun c x =>
    match c.pkt x.pkt with
    | some p => (if reason = Dr.linkDown then c.macCount lane 15 else c).dropPkt p reason true
    | none => c) ((c.setTx lane []).setDp fun d => { d with own := tput [] d.own lane [] })

/-- Auto-negotiation is enabled on a port: an_en on a backplane or copper port (R222). -/
def Chip.negotiates (c : Chip) (lane : Nat) : Bool :=
  c.bit (lane / 64) (R.macPortCfg (lane % 64)) 5 && c.fld (lane / 64) (R.macPortCfg (lane % 64)) 3 2 != 2

/-- Sets a port's link state and what follows a change: link_changed, LINK_EVENT, verification, frames under reception and in
transmission. -/
def Chip.setLink (c : Chip) (lane : Nat) (up localFault remoteFault anDone : Bool) (reason : Nat) : Chip :=
  let d := lane / 64
  let r := R.macPortStatus (lane % 64)
  let was := c.bit d r 0
  let c := c.wr d r ((c.rd d r &&& 2) ||| (b2n up + 4 * b2n localFault + 8 * b2n remoteFault + 16 * b2n anDone))
  if was == up then c
  else
    let c := (c.wfld d r 1 1 1).raise Cls.linkEvent d { block := 8, unit := lane }
    let pm := R.macPortPmp (lane % 64)
    if up then
      if !c.bit d pm 0 then c
      else if c.bit d pm 1 then (c.wfld d pm 10 2 1).emit (.verify lane false)
      else c.wfld d pm 10 2 2
    else ((c.wfld d pm 10 2 0).abortRx lane 16380 16380).cutLine lane reason

/-- LINK_STATE_CHANGE (R223, R231, R232, R237). `up`: the PCS has alignment lock and the FEC codeword lock. A link is up only
without faults and, where it negotiates (R222), once that is done; until boot has completed the lanes stay idle (R457, R496). -/
def linkStateChange (lane : Nat) (up localFault remoteFault anDone : Bool) (c : Chip) : Chip :=
  if !c.booted || !c.isPort lane || !c.on (lane / 64) 8 then c
  else
    let done := c.negotiates lane && anDone
    c.setLink lane (up && !localFault && !remoteFault && (done || !c.negotiates lane)) localFault remoteFault done Dr.linkDown

/-- RX_STOP (R231): receive data stops within a frame, of which `received` bytes have come in, and `suspended` of one between
its fragments: closed as faulty at once. The link is down with it (R223). Log 42 (DESIGN CHOICE). -/
def rxStop (lane received suspended : Nat) (c : Chip) : Chip :=
  if !c.alive || (c.rxOf lane).isEmpty then c
  else
    let s := c.rd (lane / 64) (R.macPortStatus (lane % 64))
    (c.abortRx lane received suspended).setLink lane false (bitN s 2) (bitN s 3) (bitN s 4) Dr.linkDown

/-! ### Transmission -/

/-- Discards a frame at a port that cannot send: MAC block disabled, link down (R225, R232); none if it can. -/
def Chip.cannotSend (c : Chip) (lane : Nat) : Option Nat :=
  if !c.on (lane / 64) 8 then some Dr.blockDisabled else if !c.portUp lane then some Dr.linkDown else none

/-- A frame's bytes as the port starts it at `start`: PTP updates, each under the message's own IP header (R245).
Log 48 (DESIGN CHOICE). -/
def Chip.stampFrame (c : Chip) (p : Pkt) (lane start : Nat) : Pkt × Chip :=
  let tx := adjust start (c.tsAdj lane 12)
  let p := { p with txTime := tx / 65536 }
  let one := match p.send.bind SendRef.ptp with
    | some o => { p with bytes := fixPtpSum (addCorrection p.bytes o tx) o (p.send.bind SendRef.ip) }
    | none => p
  let m := Md.mark p.md 7
  let ip := ipBefore p.bytes (m - 8)
  if !p.through || m = 0x3FF || !c.bit (lane / 64) (R.macPortPtp (lane % 64)) 24 then (one, c)
  else if ip.any Prod.snd then (one, c.macCount lane 18)
  else ({ one with bytes := fixPtpSum (addCorrection one.bytes m ((tx : Int) - p.tIn)) m ip }, c)

/-- Secures a frame for a port (R256). `slotErr`: the read of its key slot fails (R266). -/
def Chip.secure (c : Chip) (p : Pkt) (lane : Nat) (slotErr : ScrubOutcome) : Except Nat Bytes × Chip :=
  let a := actOf p.merged.cipher
  c.macsecTx lane (if Act.cipherSet a && c.isMacsec a then some (Act.cipher a) else none) p.bytes slotErr

/-- The frame as it leaves a port at `start`: stamped (R245), then secured (R256). -/
def Chip.finishFrame (c : Chip) (p : Pkt) (lane start : Nat) (slotErr : ScrubOutcome) : Except Nat Pkt × Chip :=
  let (p, c) := c.stampFrame p lane start
  let (r, c) := c.secure p lane slotErr
  (r.map fun b => { p with bytes := b }, c)

/-- Bytes that the line of a port will carry of a frame: up to a bad cell (R504); of one that is not wholly received and longer
than M, up to the 48 ns of R229 past M (how far is a free value). Log 43 (DESIGN CHOICE). -/
def Chip.carried (c : Chip) (p : Pkt) (lane : Nat) : Nat × Chip :=
  let m := c.maxFrame lane
  if !p.whole && decide (m < p.lineLen) then (min p.lineLen (m + c.drawn (1200 * c.portWidth lane + 1)), c.draw) else (p.lineLen, c)

/-- Begins the transmission of a packet on a lane at `start` with the bytes to be sent; the line's commitments become
`line` with its own. -/
def Chip.beginTx (c : Chip) (p : Pkt) (lane start : Nat) (line : List Tx) : Chip :=
  let (n, c) := c.carried p lane
  let x : Tx := ⟨p.id, start, start + c.byteTime lane n, n, p.through, 0, 0⟩
  let p := { p with holdsEpoch := p.holdsEpoch && !p.through }
  ((c.move p .sending).setTx lane (line ++ [x])).emit (.frameStart lane start)

/-- The failure of a frame's authentication is known: at its end, or, of an untagged frame (R255), from its first bytes. -/
def Chip.failKnown (c : Chip) (p : Pkt) : Bool :=
  p.authFail && (p.whole || (c.rxOf p.src).any fun r => r.pkt == some p.id && etherType r.bytes != 0x88E5)

/-- A packet whose failure is known at its start is ended within 48 ns of it (R271). -/
def Chip.endFailed (c : Chip) (p : Pkt) : Chip := if c.failKnown p then c.stompFrom p 0 p.bytes.length else c

/-- THROUGH_DEPARTURE (R54, R57–R60, R232, R235): the departure time of a held packet has come, and no earlier departure
of the port is left. It starts once the port allows it, or at once if it cuts a tenant frame; it is dropped as soon as
that start lies beyond the maximum added wait. Its cells are read as `cells` says (R504). The added wait is kept in whole ns, what
is over left out, as the field of R523 counts. Logs 11 (DESIGN CHOICE), 12 (DEDUCED), 44 (DESIGN CHOICE). -/
def throughDeparture (id : Nat) (cells : CellRead) (slotErr : ScrubOutcome) (c : Chip) : Chip :=
  match c.pkt id with
  | none => c
  | some p =>
    match p.stage with
    | .held d =>
      let lane := p.dst
      let before := (c.heldFor lane).any fun q => decide (q.1 < d) || (q.1 == d && decide (q.2.src < p.src))
      if !c.alive || !c.due d || before then c
      else
        match c.cannotSend lane with
        | some r => c.dropPkt p r
        | none =>
          match c.secure p lane slotErr with
          | (.error e, c') => c'.dropPkt p e
          | (.ok b, _) =>
            let q := { p with bytes := b }
            let (start, line, cut) := c.throughStart q lane (max d c.now)
            let wait := c.fld (lane / 64) (R.schFlumeMaxwait (lane % 64)) 0 16
            if wait ≠ 0 ∧ wait * 65536 < start - d then c.dropPkt p Dr.throughLate
            else if !c.due start && line == c.txOf lane then c
            else if c.maxFrame lane < q.len ∧ (q.whole ∨ q.len < 516) then c.dropPkt q Dr.egressOversize
            else
              let (p, c) := c.readPkt p false cells
              match c.finishFrame { p with added := (start - d) / 65536 } lane start slotErr with
              | (.error e, c') => c'.dropPkt p e
              | (.ok q, c') =>
                ((if cut then c'.macCount lane 17 else c').beginTx q lane start line).endFailed { q with stage := .sending }
    | _ => c

/-- TENANT_FRAME_START (R58, R200, R228, R232): the head granted frame of a port starts when the line is free, no pause
holds it, the port's own frames have gone, and it ends with its gap and the next preamble before every held departure. Its cells are
read as `cells` says (R504). Log 12 (DEDUCED). -/
def tenantFrameStart (lane : Nat) (cells : CellRead) (slotErr : ScrubOutcome) (c : Chip) : Chip :=
  match c.oldest fun p => p.stage == .window && !p.dstInst && p.dst == lane with
  | none => c
  | some p =>
    if !c.alive then c
    else
      match c.cannotSend lane with
      | some r => c.dropPkt p r true
      | none =>
        let c := c.ownFlush lane
        let start := c.unpaused lane p.tc (c.lineFree lane c.now)
        if !c.due start then c
        else
          match c.secure p lane slotErr with
          | (.error e, c') => c'.dropPkt p e true
          | (.ok b, _) =>
            let q := { p with bytes := b }
            if c.maxFrame lane < q.len then c.dropPkt q Dr.egressOversize true
            else if !c.fitsLine lane start q.len then c
            else
              let (p, c) := c.readPkt p false cells
              match c.finishFrame p lane start slotErr with
              | (.error e, c') => c'.dropPkt p e true
              | (.ok q, c') => (c'.beginTx q lane start (c'.txOf lane)).endFailed { q with stage := .sending }

/-- The cause of a stomp for length is counted on the ingress port (R228, R229). -/
def Chip.oversized (c : Chip) (p : Pkt) : Chip := if p.srcInst then c else c.macCount p.src 3

/-- TRANSMIT_COMPLETE (R229, R504, R521): the last byte that its line carries of a frame has left the port. A frame with a bad
cell, longer than M or with a failed tag is stomped; any other is complete once its end has been checked.
Logs 12 (DEDUCED), 44 (DESIGN CHOICE). -/
def transmitComplete (lane : Nat) (c : Chip) : Chip :=
  match (c.txOf lane).find? fun x => c.due x.stop && (c.pkt x.pkt).isSome with
  | none => c
  | some x =>
    match c.pkt x.pkt with
    | none => c
    | some p =>
      if !c.alive then c
      else if p.badAt.isSome || decide (c.maxFrame lane < p.len) then
        (if c.maxFrame lane < p.lineLen then c.oversized p else c).stomp p (p.bytes.take x.len)
      else if !p.whole then c
      else if p.authFail then c.stomp p p.bytes
      else
        let c := (c.endTx lane p.id none).delPkt p.id
        let c := ((c.emit (.frame lane p.bytes false)).macCount lane 12).macCount lane 13 p.len
        let c := (c.verdict p.die p p.dispCode {}).sendStamp p (adjust x.start (c.tsAdj lane 12))
        (c.fcOf p).ownFlush lane

end Sys2Proof.Machine
end

