-- ==== Sys2Proof/Machine/Cipher.lean ====
section
/-! DEFINITION. The cipher engine (spec/09): keys and their slots, associations, cipher jobs, the work units of the pool. -/

namespace Sys2Proof.Machine

/-! ### Keys (R259–R262) -/

/-- The ASCII bytes of the derivation labels. Log 63 (PRESUMED). -/
def labelKek : Bytes := [0x4C, 0x52, 0x58, 0x20, 0x4B, 0x45, 0x4B]
def labelId : Bytes := [0x4C, 0x52, 0x58, 0x20, 0x49, 0x44]

/-- A private scalar derived from a seed and its input (R259). Log 63 (PRESUMED). -/
def scalarOf (seed : Nat) (input : Bytes) : Nat := kdf seed input % 2 ^ 256 % (sm2Order - 1) + 1

/-- Current key generation of an owner; 0 for the steward. Log 63 (PRESUMED). -/
def Chip.keygen (c : Chip) (f : Nat) : Nat := tget 0 c.keygens f

/-- The key-encryption scalar of an owner (R259). -/
def Chip.kekScalar (c : Chip) (kekSeed f : Nat) : Nat := scalarOf kekSeed (labelKek ++ toBE 2 f ++ toBE 4 (c.keygen f))

/-- What a key blob gives. -/
inductive Unwrapped where
  | failed
  | invalid
  | key (k : KeySlot)
deriving DecidableEq, Repr

/-- A key's kind and material are legal (R262). -/
def keyLegal (kind : Nat) (m : Bytes) : Bool :=
  let n := kindBytes kind
  n != 0 && (m.drop n).all (· == 0#8) && !(decide (5 ≤ kind) && m.take (n / 2) == (m.take n).drop (n / 2))

/-- Opens the sealed part of a blob under wrapping key `w`. Log 63 (PRESUMED). -/
def openBlob (w blob : Bytes) : Unwrapped :=
  let r := opened 3 w (slice blob 76 12) (slice blob 0 76) (slice blob 88 80) (slice blob 168 16)
  let m := slice r.1 0 64
  if !r.2 then .failed
  else if keyLegal (byteAt blob 3) m then .key ⟨byteAt blob 3, m, slice r.1 64 12⟩
  else .invalid

/-- Unwraps a key blob for submitter `f` (R261, R262). Log 63 (PRESUMED). -/
def Chip.unwrap (c : Chip) (kekSeed f : Nat) (blob : Bytes) : Unwrapped :=
  let point := slice blob 12 64
  if beAt blob 0 2 ≠ 0x4C4B ∨ byteAt blob 2 ≠ 1 ∨ beAt blob 4 2 ≠ f ∨ beAt blob 8 4 ≠ c.keygen f ∨ sm2OnCurve point = false then .failed
  else
    let x := beNat (slice (sm2Shared (c.kekScalar kekSeed f) point) 0 32)
    openBlob (toBE 16 (kdf x (slice blob 0 12) % 2 ^ 256 / 2 ^ 128)) blob

/-! ### Key slots (R263–R266) -/

/-- Key slot `n`, package numbering, lies in the range given to an instance. -/
def Chip.slotOf (c : Chip) (i n : Nat) : Bool :=
  let x := c.inst i
  x.st != .free && i / 512 == n / 65536 && decide (x.keyBase ≤ n % 65536) && decide (n % 65536 < x.keyBase + x.keyCount)

/-- The submitter may load key slot `n` (R263). Log 61 (DESIGN CHOICE). -/
def Chip.slotAllowed (c : Chip) (f n : Nat) : Bool :=
  if f = stewardFn then decide (n < 65536 * c.dies) && c.insts.all fun e => !c.slotOf e.1 n else c.slotOf f n

def Chip.setKeySlot (c : Chip) (n : Nat) (k : Option KeySlot) : Chip := c.setCp fun s => { s with keySlots := tput none s.keySlots n k }

/-- No unit that uses other contents of slot `n` than the present ones remains in flight (R265). -/
def Chip.slotSettled (c : Chip) (n : Nat) : Bool :=
  (tget [] c.cp.units (n / 65536)).all fun u => !(u.running && u.slot == n && u.key != tget none c.cp.keySlots n)

/-- KEY_LOAD (R262, R263, R265): the blob is unwrapped and fills the slot; the entry ends by KEY_SLOT_SETTLED. -/
def keyLoad (f kekSeed : Nat) (c : Chip) : Chip :=
  runEntry f 0x06 (fun e c =>
    let n := leAt e.bytes 8 4
    let d := c.fnDie f
    if !c.slotAllowed f n then c.endWith f e St.keySlotDenied
    else
      match c.unwrap kekSeed f (slice e.bytes 16 184) with
      | .failed => ((c.count d (R.cipEvtCnt 0)).raise Cls.cipUnwrapFail d { block := 9, unit := fnUnit f }).endWith f e St.unwrapFail
      | .invalid => (c.count d (R.cipEvtCnt 1)).endWith f e St.keyInvalid
      | .key k => c.setKeySlot n (some k)) c

/-- KEY_CLEAR (R263, R265). -/
def keyClear (f : Nat) (c : Chip) : Chip :=
  runEntry f 0x07 (fun e c =>
    let n := leAt e.bytes 8 4
    if !c.slotAllowed f n then c.endWith f e St.keySlotDenied else c.setKeySlot n none) c

/-- KEY_SLOT_SETTLED (R265): the oldest performed KEY_LOAD or KEY_CLEAR of a ring whose slot has settled completes. -/
def keySlotSettled (f : Nat) (c : Chip) : Chip :=
  match (c.chan f).started.find? fun e =>
      e.run && e.recs.isNone && [0x06, 0x07].contains (byteAt e.bytes 1) && c.slotSettled (leAt e.bytes 8 4) with
  | none => c
  | some e => if c.alive then c.endWith f e St.ok else c

/-- KEK_QUERY (R260): 136 bytes for the submitter, signed by the device identity key (R462); the write engine of its die carries
them (R391). -/
def kekQuery (f kekSeed identitySeed : Nat) (c : Chip) : Chip :=
  runEntry f 0x08 (fun e c =>
    let head := toBE 2 f ++ toBE 2 0 ++ toBE 4 (c.keygen f) ++ slice (sm2Public (c.kekScalar kekSeed f)) 0 64
    let out := head ++ slice (sm2Sign (scalarOf identitySeed labelId) head) 0 64
    c.addXfer (c.fnDie f) { Xfer.fresh f e.seq e.bytes (.output 0 []) [] with
      total := 136, issued := 136, outs := [(leAt e.bytes 8 8, out)], closed := true }) c

/-! ### Associations (R267) -/

/-- The association that an ASSOC_WRITE record describes. Log 62 (DESIGN CHOICE). -/
def Assoc.ofBytes (b : Bytes) : Assoc :=
  ⟨byteAt b 0, byteAt b 1, byteAt b 2, byteAt b 3, leAt b 4 2, byteAt b 6, leAt b 8 4, leAt b 12 8, leAt b 20 8, leAt b 28 8, leAt b 36 2,
   [], [], false, false⟩

/-- Suites that a framing takes (R253–R255). Log 62 (DESIGN CHOICE). -/
def framingSuites (framing : Nat) : List Nat := if framing = 3 then [1, 2] else if framing = 4 then [1, 2, 3, 4] else [1, 2, 3, 4, 5, 6, 7]

/-- A write of association `a` displaces association `b` at the same port: the former current transmit association loses
its flag, the former receive association of the same AN is no longer valid. Log 62 (DESIGN CHOICE). -/
def Assoc.displaced (y x : Assoc) : Assoc :=
  if y.framing ≠ 3 ∨ x.framing ≠ 3 ∨ y.port ≠ x.port ∨ !bitN x.flags 0 then y
  else if bitN x.flags 1 then (if bitN y.flags 1 ∧ bitN x.flags 4 then { y with flags := setBitN y.flags 4 false } else y)
  else if !bitN y.flags 1 ∧ y.an = x.an then { y with flags := setBitN y.flags 0 false }
  else y

/-- ASSOC_WRITE (R267). Log 62 (DESIGN CHOICE). -/
def assocWrite (c : Chip) : Chip :=
  runEntry stewardFn 0x48 (fun e c =>
    let a := leAt e.bytes 8 4
    let x := Assoc.ofBytes (slice e.bytes 16 128)
    if 65536 * c.dies ≤ a ∨ (x.framing = 3 ∧ 64 * c.dies ≤ x.port) then c.endWith stewardFn e St.indexRange
    else if x.framing = 0 ∨ 4 < x.framing ∨ 32 ≤ x.flags ∨ 3 < x.an ∨ !(x.windowLog2 == 0 || (decide (5 ≤ x.windowLog2) && decide (x.windowLog2 ≤ 9))) then
      c.endWith stewardFn e St.badAction
    else if !(framingSuites x.framing).contains x.suite then c.endWith stewardFn e St.modeInvalid
    else
      let old := c.cp.assocs.map (fun (y : Nat × Option Assoc) => if y.1 / 65536 = a / 65536 then (y.1, y.2.map fun z => z.displaced x) else y)
      let c := c.setCp fun s => { s with assocs := tput none old a (some x) }
      (c.softCheck a x).endWith stewardFn e St.ok) c

/-! ### Cipher jobs (R275, R276) -/

/-- Fields of a CIPHER_JOB entry. Log 61 (DESIGN CHOICE). -/
def jobMode (b : Bytes) : Nat := bitsN (byteAt b 8) 1 3
def jobDec (b : Bytes) : Bool := bitN (byteAt b 8) 0
def jobLen (b : Bytes) : Nat := leAt b 20 4
def jobIv (b : Bytes) : Bytes := slice b 56 16

/-- Address of a job's tag: tag_addr, or behind the data at `base`. -/
def jobTagAt (b : Bytes) (base : Nat) : Nat := if bitN (byteAt b 8) 4 then leAt b 72 8 else base + jobLen b

/-- A mode that authenticates. -/
def jobAead (mode : Nat) : Bool := [0, 1, 5].contains mode

/-- A job's lengths are against R258 or R275. Log 61 (DESIGN CHOICE). -/
def jobLengthBad (b : Bytes) : Bool :=
  let mode := jobMode b
  let len := jobLen b
  let unit := leAt b 52 4
  decide (16777216 < len) || ((mode == 0 || mode == 5) && decide (65535 < leAt b 48 4)) ||
    (mode == 4 && (decide (unit < 16) || decide (65536 < unit) || len == 0 || (len % unit != 0 && decide (len % unit < 16)))) ||
    (mode == 3 && jobDec b && (len == 0 || len % 16 != 0))

/-- What a job reads: data, AAD, the tag of a decryption. -/
def jobSegs (b : Bytes) : List (Nat × Nat) :=
  let mode := jobMode b
  [(leAt b 24 8, jobLen b)] ++ (if mode = 0 ∨ mode = 5 then [(leAt b 40 8, leAt b 48 4)] else []) ++
    (if jobAead mode ∧ jobDec b then [(jobTagAt b (leAt b 24 8), 16)] else [])

/-- CIPHER_JOB (R275, R276): its checks; its input is then read. Log 61 (DESIGN CHOICE). -/
def cipherJob (f : Nat) (c : Chip) : Chip :=
  if !c.en (c.fnDie f) 9 then c
  else
    runEntry f 0x05 (fun e c =>
      let b := e.bytes
      let d := c.fnDie f
      let len := jobLen b
      if 6 ≤ jobMode b then c.endWith f e St.modeInvalid 0 len
      else if jobLengthBad b then c.endWith f e St.lengthInvalid 0 len
      else if jobMode b = 2 ∧ len = 0 then (c.count d (R.dmaEvtCnt 3)).endWith f e St.ok
      else
        let x := Xfer.fresh f e.seq b .job (jobSegs b)
        let c := c.addXfer d x
        if x.total = 0 then c.startJob d f e.seq b [] else c) c

/-- The key of a job (R264): of a slot of its die, not of another instance's range, and of a kind its mode takes. -/
def Chip.jobKey (c : Chip) (f : Nat) (b : Bytes) : Option KeySlot :=
  let n := leAt b 16 4
  let mode := jobMode b
  let kinds := if mode = 4 then [5, 6, 7] else if mode = 5 then [4] else [1, 2, 3]
  if n / 65536 = c.fnDie f ∧ (f = stewardFn ∨ c.slotOf f n) then
    match tget none c.cp.keySlots n with
    | some k => if kinds.contains k.kind then some k else none
    | none => none
  else none

/-- The AEAD suite of a job's mode and key kind. -/
def jobSuite (mode kind : Nat) : Nat := if mode = 1 then kind + 4 else if mode = 5 then 4 else kind

/-- PKCS#7 padding of a length. -/
def padBytes (n : Nat) : Bytes := List.replicate (16 - n % 16) (BitVec.ofNat 8 (16 - n % 16))

/-- The plaintext under PKCS#7 padding; none where the pad is bad. -/
def unpad (b : Bytes) : Option Bytes :=
  let n := byteAt b (b.length - 1)
  if 1 ≤ n ∧ n ≤ 16 ∧ n ≤ b.length ∧ (b.drop (b.length - n)).all (fun x => x.toNat == n) then some (b.take (b.length - n)) else none

/-- The initial counter block of the segment at byte `off` (R252): its low 32 bits have counted. -/
def ctrAt (iv : Bytes) (off : Nat) : Bytes := slice iv 0 12 ++ toBE 4 (beAt iv 12 4 + off / 16)

/-- The tweak of XTS data unit `k` (R275). -/
def tweakAt (iv : Bytes) (k : Nat) : Bytes := toLE 16 (leNat iv + k)

/-- What a unit of a job gives: its output bytes, its tag, its status. Log 61 (DESIGN CHOICE). -/
def jobUnit (j : Job) (part : Nat) (k : KeySlot) : Bytes × Bytes × Nat :=
  let b := j.ent
  let mode := jobMode b
  let dec := jobDec b
  let iv := jobIv b
  let (off, n) := (jobParts b).getD part (0, 0)
  let data := slice j.data off n
  let raw := fun (iv data : Bytes) => bare mode k.kind dec k.key iv data
  if jobAead mode then
    let suite := jobSuite mode k.kind
    let nonce := slice iv 0 12
    let aad := if mode = 1 then j.data else j.aad
    let body := if mode = 1 then [] else data
    if dec then
      let r := opened suite k.key nonce aad body j.tagIn
      (r.1, [], if r.2 then St.ok else St.authFail)
    else
      let r := sealed suite k.key nonce aad body
      (r.1, r.2, St.ok)
  else if mode = 2 then (raw (ctrAt iv off) data, [], St.ok)
  else if mode = 4 then (raw (tweakAt iv part) data, [], St.ok)
  else if !dec then (raw iv (data ++ padBytes n), [], St.ok)
  else
    let out := raw (if off = 0 then iv else slice j.data (off - 16) 16) data
    if off + n < jobLen b then (out, [], St.ok)
    else
      match unpad out with
      | some o => (o, [], St.ok)
      | none => (out, [], St.padInvalid)

/-! ### Units (R248–R251, R274) -/

def Chip.setUnit (c : Chip) (d : Nat) (u : CUnit) : Chip :=
  c.setCp fun s => { s with units := tmod [] s.units d fun l => l.map fun v => if v.id = u.id then u else v }
def Chip.delUnit (c : Chip) (d id : Nat) : Chip := c.setCp fun s => { s with units := tmod [] s.units d fun l => l.filter fun v => v.id != id }

/-- The unit is inline work. -/
def CUnit.inline (u : CUnit) : Bool := match u.kind with | .esp _ => true | _ => false

/-- The transfer of a cipher job. -/
def Chip.jobXfer (c : Chip) (d f i : Nat) : Option (Nat × Xfer) := (c.dma d).xfers.find? fun e => e.2.kind == .job && e.2.fn == f && e.2.index == i

/-- The unit belongs to a job that is ending. -/
def Chip.unitStopped (c : Chip) (d : Nat) (u : CUnit) : Bool :=
  match u.kind with
  | .job f i _ => match c.jobXfer d f i with | some e => e.2.status.isSome | none => true
  | _ => false

/-- The unit that the pool dispatches next (R274), and the turns then left: weighted round robin over the inline and the
job queue; an empty queue lends its turns. -/
def Chip.nextUnit (c : Chip) (d : Nat) : Option (CUnit × (Nat × Nat)) :=
  let wait := (tget [] c.cp.units d).filter fun u => !u.running && !c.unitStopped d u
  let share := c.rd d R.cipShare
  let t := tget (0, 0) c.cp.turns d
  match wait.find? CUnit.inline, wait.find? fun u => !u.inline with
  | none, none => none
  | some u, none => some (u, t)
  | none, some u => some (u, t)
  | some u, some v =>
    let t := if t.1 + t.2 = 0 then (bitsN share 0 4, bitsN share 4 4) else t
    if 0 < t.1 then some (u, (t.1 - 1, t.2)) else some (v, (t.1, t.2 - 1))

/-! ### ESP (R253, R258) -/

/-- Offset of the IP header of a frame, whether it is IPv6, the offset of what follows the header, the end of the packet
by its length field. -/
structure IpView where
  l3 : Nat
  v6 : Bool
  l4 : Nat
  stop : Nat
deriving DecidableEq, Repr

def ipView (b : Bytes) : IpView :=
  let l3 := (l3Of b).1
  let v6 := byteAt b l3 / 16 == 6
  let n := if v6 then 40 + beAt b (l3 + 4) 2 else beAt b (l3 + 2) 2
  ⟨l3, v6, l3 + (if v6 then 40 else ihl b l3), min b.length (l3 + n)⟩

/-- Sets the protocol or next-header field of an IP header. -/
def setProto (b : Bytes) (v : IpView) (n : Nat) : Bytes := splice b (v.l3 + if v.v6 then 6 else 9) (toBE 1 n)

def protoOf (b : Bytes) (v : IpView) : Nat := byteAt b (v.l3 + if v.v6 then 6 else 9)

/-- The AAD of an ESP packet: SPI and sequence number, 64 bits of it with ESN. Log 60 (PRESUMED). -/
def espAad (x : Assoc) (n : Nat) : Bytes := toBE 4 x.spi ++ (if bitN x.flags 2 then toBE 8 n else toBE 4 n)

/-- Whether a suite authenticates only. -/
def isGmac (suite : Nat) : Bool := decide (5 ≤ suite)

/-- ESP over a payload: header, IV, payload with trailer, ICV. Log 60 (PRESUMED). -/
def espSeal (x : Assoc) (k : KeySlot) (n next : Nat) (payload : Bytes) : Bytes :=
  let pad := (4 - (payload.length + 2) % 4) % 4
  let pt := payload ++ (List.range pad).map (fun i => BitVec.ofNat 8 (i + 1)) ++ toBE 1 pad ++ toBE 1 next
  let iv := toBE 8 n
  let nonce := slice k.iv 0 4 ++ iv
  let aad := espAad x n
  let body := if isGmac x.suite then (pt, (sealed x.suite k.key nonce (aad ++ iv ++ pt) []).2) else sealed x.suite k.key nonce aad pt
  toBE 4 x.spi ++ toBE 4 n ++ iv ++ body.1 ++ body.2

/-- The frame that outbound ESP makes of a frame; in tunnel mode without the outer header, which the encapsulation
template brings (R103). -/
def espOut (x : Assoc) (k : KeySlot) (n : Nat) (b : Bytes) : Bytes :=
  let v := ipView b
  if x.framing = 2 then espSeal x k n (if v.v6 then 41 else 4) ((b.take v.stop).drop v.l3)
  else
    let e := espSeal x k n (protoOf b v) ((b.take v.stop).drop v.l4)
    setIpLen (setProto (b.take v.l4 ++ e) v 50) v.l3 v.v6

/-- The ESP part of an inbound frame: where it starts, past a UDP header, and its bytes. Log 60 (PRESUMED). -/
def espPart (b : Bytes) : Nat × Bytes :=
  let v := ipView b
  let o := if protoOf b v = 17 then v.l4 + 8 else v.l4
  (o, (b.take v.stop).drop o)

/-- Inbound ESP with number `n` (R253): the frame without it, and whether the tag verified. Log 60 (PRESUMED). -/
def espIn (x : Assoc) (k : KeySlot) (n : Nat) (b : Bytes) : Bytes × Bool :=
  let v := ipView b
  let e := (espPart b).2
  let iv := slice e 8 8
  let body := (e.drop 16).take (e.length - 32)
  let tag := slice e (e.length - 16) 16
  let nonce := slice k.iv 0 4 ++ iv
  let (pt, ok) := if isGmac x.suite then (body, (opened x.suite k.key nonce (espAad x n ++ iv ++ body) [] tag).2)
    else opened x.suite k.key nonce (espAad x n) body tag
  let next := byteAt pt (pt.length - 1)
  let payload := pt.take (pt.length - 2 - byteAt pt (pt.length - 2))
  let out := if x.framing = 2 then b.take (v.l3 - 2) ++ toBE 2 (if next = 41 then 0x86DD else 0x0800) ++ payload
    else setIpLen (setProto (b.take v.l4 ++ payload) v next) v.l3 v.v6
  (out, ok && decide (32 ≤ e.length))

/-! ### Dispatch -/

/-- The bytes that the encapsulation of a packet will add. Log 60 (PRESUMED). -/
def Chip.encapLen (c : Chip) (p : Pkt) : Nat :=
  let a := actOf p.merged.tunnel
  if Act.tunnelSet a && Act.tunnelOp a == 1 then ((c.template p.die (Act.tunnelIndex a) p.slot).map fun t => byteAt t 1).getD 0 else 0

/-- Frame length of what outbound ESP makes of a frame, its encapsulation not counted. -/
def espOutLen (x : Assoc) (b : Bytes) : Nat :=
  let v := ipView b
  let from_ := if x.framing = 2 then v.l3 else v.l4
  let n := v.stop - from_ + 2
  (if x.framing = 2 then 0 else v.l4) + 32 + n + (4 - n % 4) % 4 + 4

/-- Pool entries that a waiting unit will hold (R250): on the larger of its input and output. -/
def Chip.unitEntries (c : Chip) (u : CUnit) : Nat :=
  match u.kind with
  | .esp id =>
    match c.pkt id with
    | some p =>
      match c.assoc (Act.cipher (actOf p.merged.cipher)) with
      | some x => poolEntries (if bitN x.flags 1 then max p.len (espOutLen x p.bytes + c.encapLen p) else p.len)
      | none => 1
    | none => 1
  | _ => u.entries

/-- A packet whose association or slot counts as empty, or that is a replay, is dropped; its unit goes. -/
def Chip.dropUnit (c : Chip) (d : Nat) (u : CUnit) (p : Pkt) (reason : Nat) : Chip := (c.delUnit d u.id).dropPkt p reason

/-- Starts an ESP unit: the slot, then the sequence number outbound or the replay check inbound. -/
def Chip.startEsp (c : Chip) (d : Nat) (u : CUnit) (p : Pkt) (a : Nat) (x : Assoc) (n : Nat) : Chip :=
  match c.slotKey d x.slot (suiteKind x.suite) with
  | none => c.dropUnit d u p Dr.keySlotEmpty
  | some k =>
    let run := fun (c : Chip) (seq : Nat) => c.setUnit d { u with running := true, assoc := a, slot := d * 65536 + x.slot, key := some k, seq := seq, entries := n }
    if bitN x.flags 1 then
      match c.takeSeq a x with
      | (none, c) => c.dropUnit d u p Dr.keySlotEmpty
      | (some seq, c) => run c seq
    else
      let seq := x.recover (beAt (espPart p.bytes).2 4 4)
      if x.replayed seq then (c.slotCount d x.slot true).dropUnit d u p Dr.replay
      else run (c.setAssoc a (some (x.pend seq))) seq

/-- Gives an engine's cipher operation its result and removes its unit. -/
def Chip.answerUnit (c : Chip) (d : Nat) (u : CUnit) (e x status : Nat) : Chip :=
  let c := c.delUnit d u.id
  match c.ctx d e x with
  | some k => c.setCtx d e x (some (k.answer .ci status []))
  | none => c

/-- Cipher port codes (R294). -/
def Ci.ok := 0x00
def Ci.authFail := 0x08
def Ci.badRecord := 0x09
def Ci.lengthInvalid := 0x0A
def Ci.keySlotEmpty := 0x0B
def Ci.modeInvalid := 0x0C

/-- Ends a bare job with a failure: its transfer ends, its waiting units never start. Log 61 (DESIGN CHOICE). -/
def Chip.stopJob (c : Chip) (d f i status : Nat) : Chip :=
  match c.jobXfer d f i with
  | some (n, x) => c.setXfer d n (x.stop status)
  | none => c

/-- The packet that a unit takes its input from. -/
def Chip.unitPkt (c : Chip) (d : Nat) (u : CUnit) : Option Pkt :=
  match u.kind with
  | .esp id => c.pkt id
  | .tls e x => (c.ctx d e x).bind fun k => k.pkt.bind c.pkt
  | .xts e x => (c.ctx d e x).bind fun k => k.pkt.bind c.pkt
  | .job .. => none

/-- The cells of a unit's input are read; a bad one marks its packet, which carries the mark on (R504). -/
def Chip.unitRead (c : Chip) (d : Nat) (u : CUnit) (cells : CellRead) : Chip :=
  match c.unitPkt d u with
  | some p => let (p, c) := c.readPkt p false cells; c.setPkt p
  | none => c

/-- CIPHER_UNIT_DISPATCH (R248, R264–R269, R274, R504): the pool's next unit takes a core and its pool entries. -/
def cipherUnitDispatch (die unit : Nat) (slotErr : ScrubOutcome) (cells : CellRead) (c : Chip) : Chip :=
  match c.nextUnit die with
  | none => c
  | some (u, t) =>
    let running := (tget [] c.cp.units die).filter CUnit.running
    let n := c.unitEntries u
    if u.id != unit || !c.on die 9 || decide (c.fld die R.cipCores 20 10 ≤ running.length) || decide (8192 < (running.map CUnit.entries).sum + n) then c
    else
      let c := (c.setCp fun s => { s with turns := tput (0, 0) s.turns die t }).unitRead die u cells
      let readSlot := fun (local_ : Nat) (c : Chip) => c.slotRead (die * 65536 + local_) slotErr
      let run := fun (c : Chip) (a s : Nat) (k : KeySlot) (seq : Nat) => c.setUnit die { u with running := true, assoc := a, slot := s, key := some k, seq := seq }
      match u.kind with
      | .esp id =>
        match c.pkt id with
        | none => c.delUnit die u.id
        | some p =>
          let a := Act.cipher (actOf p.merged.cipher)
          match c.assoc a with
          | none => c.dropUnit die u p Dr.keySlotEmpty
          | some x => (readSlot x.slot c).startEsp die u p a x n
      | .tls e k =>
        match c.assoc u.assoc with
        | none => c.answerUnit die u e k Ci.keySlotEmpty
        | some x =>
          if x.framing ≠ 4 then c.answerUnit die u e k Ci.modeInvalid
          else
            let c := readSlot x.slot c
            match c.slotKey die x.slot (suiteKind x.suite) with
            | none => c.answerUnit die u e k Ci.keySlotEmpty
            | some key =>
              match c.takeSeq u.assoc x with
              | (none, c) => c.answerUnit die u e k Ci.keySlotEmpty
              | (some seq, c) => run c u.assoc (die * 65536 + x.slot) key seq
      | .xts e k =>
        let c := readSlot (u.slot % 65536) c
        match tget none c.cp.keySlots u.slot with
        | some key => if 5 ≤ key.kind then run c 0 u.slot key 0 else c.answerUnit die u e k Ci.keySlotEmpty
        | none => c.answerUnit die u e k Ci.keySlotEmpty
      | .job f i _ =>
        let c := if u.slot / 65536 = die then c.slotRead u.slot slotErr else c
        match c.cp.jobs.find? fun j => j.fn == f && j.index == i with
        | none => c.delUnit die u.id
        | some j =>
          match c.jobKey f j.ent with
          | none => c.stopJob die f i St.keySlotEmpty
          | some key => run c 0 u.slot key 0

/-! ### Completion (R249, R251, R270–R272) -/

/-- Two units leave the engine in dispatch order: of one association, or of one function's jobs. -/
def sameOrder (u v : CUnit) : Bool :=
  match u.kind, v.kind with
  | .job f _ _, .job g _ _ => f == g
  | .esp _, .esp _ => u.assoc == v.assoc
  | .tls .., .tls .. => u.assoc == v.assoc
  | _, _ => false

/-- Settles an inbound number of association `a`, and counts a failed tag. -/
def Chip.settleSeq (c : Chip) (d a slot seq : Nat) (ok : Bool) : Chip :=
  let c := match tget none c.cp.assocs a with
    | some x => c.settled a (x.settle seq ok)
    | none => c
  if ok then c else c.slotCount d (slot % 65536) false

/-- An ESP packet leaves the engine: on to its queue, or, with the FCS of what it has become, re-injected (R270, R75). -/
def Chip.espDone (c : Chip) (d : Nat) (u : CUnit) (p : Pkt) (x : Assoc) (k : KeySlot) : Chip :=
  if bitN x.flags 1 then
    let p := { p with bytes := espOut x k u.seq p.bytes }
    ((c.setPkt p).finishOwner p).fcOf p
  else
    let (b, ok) := espIn x k u.seq p.bytes
    let c := c.settleSeq d u.assoc u.slot u.seq ok
    let p := { p with bytes := b, authFail := p.authFail || !ok }
    if bitN x.flags 3 && ok then
      c.move { p with start := c.fld d R.cipShare 16 8, tail := toLE 4 (crc32 b).toNat } .reinject
    else ((c.setPkt p).finishOwner p).fcOf p

/-- The TLS record at `off` of `n` bytes in a packet under sequence number `seq` (R254): the record that replaces it and
the status. Log 60 (PRESUMED). -/
def tlsRecord (x : Assoc) (k : KeySlot) (seq : Nat) (dec : Bool) (rec_ : Bytes) : Bytes × Nat :=
  let nonce := toBE 12 (beNat k.iv ^^^ seq)
  if dec then
    let r := opened x.suite k.key nonce (slice rec_ 0 5) ((rec_.drop 5).take (rec_.length - 21)) (slice rec_ (rec_.length - 16) 16)
    let inner := (r.1.reverse.dropWhile (· == 0#8)).reverse
    let plain := inner.take (inner.length - 1)
    let out := toBE 1 (byteAt inner (inner.length - 1)) ++ slice rec_ 1 2 ++ toBE 2 plain.length ++ plain
    if !r.2 then (out, Ci.authFail) else if inner.isEmpty then (rec_, Ci.badRecord) else (out, Ci.ok)
  else
    let inner := rec_.drop 5 ++ slice rec_ 0 1
    let head := toBE 1 0x17 ++ toBE 2 0x0303 ++ toBE 2 (inner.length + 16)
    let r := sealed x.suite k.key nonce head inner
    (head ++ r.1 ++ r.2, Ci.ok)

/-- A unit of an engine context leaves: its bytes replace those of the packet, its status goes to the context; a failed tag
shows in the packet's verdict record (R272). A packet that would pass the 16,384 bytes a context holds (R311) stays as it is,
and the status is LENGTH_INVALID. Log 65 (DESIGN CHOICE). -/
def Chip.ctxUnitDone (c : Chip) (d : Nat) (u : CUnit) (e x off n : Nat) (out : Bytes) (status : Nat) : Chip :=
  let c := if status = Ci.authFail then c.slotCount d (u.slot % 65536) false else c
  match c.unitPkt d u with
  | none => c.answerUnit d u e x status
  | some p =>
    let buf := p.buf.take off ++ out ++ p.buf.drop (off + n)
    if 16384 < buf.length then c.answerUnit d u e x Ci.lengthInvalid
    else (c.setPkt { p.setBuf buf with tlsFail := p.tlsFail || status == Ci.authFail }).answerUnit d u e x status

/-- A unit of a bare job leaves (R271, R275): its output becomes writes, the last unit closes the transfer. Log 61 (DESIGN CHOICE). -/
def Chip.jobUnitDone (c : Chip) (d : Nat) (u : CUnit) (f i part : Nat) (k : KeySlot) : Chip :=
  let c := c.delUnit d u.id
  match c.cp.jobs.find? fun j => j.fn == f && j.index == i, c.jobXfer d f i with
  | some j, some (n, x) =>
    let (out, tag, status) := jobUnit j part k
    let outs := j.outs.set part (some out)
    let last := outs.all Option.isSome
    let j' := { j with outs := outs, sent := j.sent + 1, status := if j.status = St.ok then status else j.status }
    let c := c.setCp fun s => { s with jobs := s.jobs.map fun q => if q.fn = f ∧ q.index = i then j' else q }
    let c := if status = St.authFail then c.slotCount d (u.slot % 65536) false else c
    let dst := leAt j.ent 32 8
    let off := ((jobParts j.ent).getD part (0, 0)).1
    let w := (if out.isEmpty then [] else [(dst + off, out)]) ++ (if tag.isEmpty then [] else [(jobTagAt j.ent dst, tag)])
    if x.status.isSome then c
    else c.setXfer d n { x with outs := x.outs ++ w, closed := last, status := if last && j'.status != St.ok then some j'.status else none }
  | _, _ => c

/-- CIPHER_UNIT_COMPLETE (R249, R251): a running unit that no earlier one of its order precedes leaves the engine.
Log 13 (DESIGN CHOICE). -/
def cipherUnitComplete (die unit : Nat) (c : Chip) : Chip :=
  let l := tget [] c.cp.units die
  match l.find? fun u => u.id == unit with
  | none => c
  | some u =>
    if !c.alive || !u.running || (l.takeWhile fun v => v.id != unit).any (fun v => v.running && sameOrder u v) then c
    else
      match u.key with
      | none => c
      | some k =>
        match u.kind with
        | .esp id =>
          match c.pkt id, tget none c.cp.assocs u.assoc with
          | some p, some x => (c.delUnit die u.id).espDone die u p x k
          | _, _ => c.delUnit die u.id
        | .tls e x =>
          match (c.ctx die e x).bind (fun q => q.op .ci), (c.ctx die e x).bind (fun q => q.pkt.bind c.pkt), tget none c.cp.assocs u.assoc with
          | some o, some p, some a =>
            let off := o.b % 2 ^ 14
            let n := bitsN o.b 16 15
            let (out, st) := tlsRecord a k u.seq (bitN o.a 16) (slice p.buf off n)
            c.ctxUnitDone die u e x off n out st
          | _, _, _ => c.answerUnit die u e x Ci.lengthInvalid
        | .xts e x =>
          match (c.ctx die e x).bind (fun q => q.op .ci), (c.ctx die e x).bind (fun q => q.pkt.bind c.pkt) with
          | some o, some p =>
            let off := o.b % 2 ^ 14
            let n := bitsN o.b 16 15
            let tweak := toLE 8 o.c ++ toLE 8 o.d
            c.ctxUnitDone die u e x off n (bare 4 k.kind (bitN o.a 16) k.key tweak (slice p.buf off n)) Ci.ok
          | _, _ => c.answerUnit die u e x Ci.lengthInvalid
        | .job f i part => c.jobUnitDone die u f i part k

end Sys2Proof.Machine
end

