-- ==== Sys2Proof/Machine/Microword.lean ====
section
/-! DEFINITION. The microword (R286–R292): its fields, what it reads and writes, the units it drives, its faults. -/

namespace Sys2Proof.Machine

/-! ### Fields (R286) -/

def Mw.aluAOp (w : Nat) : Nat := bitsN w 0 6
def Mw.aluADst (w : Nat) : Nat := bitsN w 6 5
def Mw.aluASrcA (w : Nat) : Nat := bitsN w 11 6
def Mw.aluASrcB (w : Nat) : Nat := bitsN w 17 6
def Mw.aluBOp (w : Nat) : Nat := bitsN w 23 6
def Mw.aluBDst (w : Nat) : Nat := bitsN w 29 5
def Mw.aluBSrcA (w : Nat) : Nat := bitsN w 34 6
def Mw.aluBSrcB (w : Nat) : Nat := bitsN w 40 6
def Mw.shmOp (w : Nat) : Nat := bitsN w 46 3
def Mw.shmDst (w : Nat) : Nat := bitsN w 49 5
def Mw.shmSrc (w : Nat) : Nat := bitsN w 54 6
def Mw.shmPos (w : Nat) : Nat := bitsN w 60 6
def Mw.shmWidth (w : Nat) : Nat := bitsN w 66 6 + 1
def Mw.imm (w : Nat) : Nat := bitsN w 72 16
def Mw.tsOp (w : Nat) : Nat := bitsN w 88 3
def Mw.tsAddr (w : Nat) : Nat := bitsN w 91 5
def Mw.tsData (w : Nat) : Nat := bitsN w 96 5
def Mw.hbOp (w : Nat) : Nat := bitsN w 101 3
def Mw.hbAddr (w : Nat) : Nat := bitsN w 104 5
def Mw.hbGrp (w : Nat) : Nat := bitsN w 109 2
def Mw.pbOp (w : Nat) : Nat := bitsN w 111 3
def Mw.pbOff (w : Nat) : Nat := bitsN w 114 5
def Mw.pbGrp (w : Nat) : Nat := bitsN w 119 2
def Mw.ciOp (w : Nat) : Nat := bitsN w 121 2
def Mw.ciReg (w : Nat) : Nat := bitsN w 123 5
def Mw.dmaOp (w : Nat) : Nat := bitsN w 128 2
def Mw.dmaReg (w : Nat) : Nat := bitsN w 130 5
def Mw.hashOp (w : Nat) : Nat := bitsN w 135 2
def Mw.hashGrp (w : Nat) : Nat := bitsN w 137 2
def Mw.hashDst (w : Nat) : Nat := bitsN w 139 5
def Mw.seqOp (w : Nat) : Nat := bitsN w 144 3
def Mw.cond (w : Nat) : Nat := bitsN w 147 5
def Mw.target (w : Nat) : Nat := bitsN w 152 15
def Mw.yield (w : Nat) : Nat := bitsN w 167 2
def Mw.endOp (w : Nat) : Nat := bitsN w 169 3

/-! ### Operands (R287) -/

/-- Value of a 6-bit source for context `x` of engine `e` on die `d`. -/
def Chip.srcVal (c : Chip) (d e x : Nat) (k : Ctx) (w s : Nat) : Nat :=
  if s < 32 then k.g s
  else if s = 32 then Mw.imm w
  else if s = 33 then (if Mw.imm w < 2 ^ 15 then Mw.imm w else Mw.imm w + 2 ^ 64 - 2 ^ 16)
  else if s < 39 then k.status.getD (s - 34) 0
  else if s = 39 then x
  else if s = 40 then e + d * 256
  else c.ns

/-- The ALU operation takes a B operand (R288). -/
def aluBinary (op : Nat) : Bool := !([0x00, 0x01, 0x08, 0x0E, 0x0F, 0x10, 0x11].contains op)

/-- The ALU operation writes a register: not none, cmp or test (R288). -/
def aluWrites (op : Nat) : Bool := !([0x00, 0x09, 0x0A].contains op)

/-- Sources that a word reads. -/
def Mw.sources (w : Nat) : List Nat :=
  (if Mw.aluAOp w = 0 then [] else [Mw.aluASrcA w] ++ if aluBinary (Mw.aluAOp w) then [Mw.aluASrcB w] else []) ++
  (if Mw.aluBOp w = 0 then [] else [Mw.aluBSrcA w] ++ if aluBinary (Mw.aluBOp w) then [Mw.aluBSrcB w] else []) ++
  (if Mw.shmOp w = 0 then [] else [Mw.shmSrc w])

/-- Registers of a group, and four from a register. -/
def groupRegs (g : Nat) : List Nat := (List.range 8).map (8 * g + ·)
def fourRegs (r : Nat) : List Nat := (List.range 4).map (r + ·)

/-- Registers that an end action reads (R299). -/
def Mw.endRegs (w : Nat) : List Nat := if Mw.endOp w = 2 then [3] else if Mw.endOp w = 4 then [24, 25, 26, 27] else []

/-- Registers that a word reads or writes. -/
def Mw.registers (w : Nat) : List Nat :=
  (Mw.sources w).filter (decide <| · < 32) ++ (if aluWrites (Mw.aluAOp w) then [Mw.aluADst w] else []) ++
  (if aluWrites (Mw.aluBOp w) then [Mw.aluBDst w] else []) ++ (if Mw.shmOp w = 0 then [] else [Mw.shmDst w]) ++
  (match Mw.tsOp w with
   | 1 => Mw.tsAddr w :: fourRegs (Mw.tsData w)
   | 2 => [Mw.tsAddr w, Mw.tsData w]
   | 3 => [Mw.tsAddr w, Mw.tsData w]
   | _ => []) ++
  (if Mw.hbOp w = 0 then [] else (if Mw.hbOp w ≤ 3 then [Mw.hbAddr w] else []) ++ groupRegs (Mw.hbGrp w)) ++
  (match Mw.pbOp w with
   | 1 => Mw.pbOff w :: groupRegs (Mw.pbGrp w)
   | 2 => Mw.pbOff w :: groupRegs (Mw.pbGrp w)
   | 3 => [Mw.pbOff w]
   | _ => []) ++
  (if Mw.ciOp w = 0 then [] else fourRegs (Mw.ciReg w)) ++ (if Mw.dmaOp w = 0 then [] else fourRegs (Mw.dmaReg w)) ++
  (if Mw.hashOp w = 0 then [] else Mw.hashDst w :: groupRegs (Mw.hashGrp w)) ++ (if Mw.seqOp w = 6 then [Mw.cond w] else []) ++
  Mw.endRegs w

/-- Ports that a word gives an operation. -/
def Mw.ports (w : Nat) : List EnginePort :=
  (if Mw.tsOp w = 0 then [] else [.ts]) ++ (if Mw.hbOp w = 0 then [] else [.hb]) ++ (if Mw.pbOp w = 0 then [] else [.pb]) ++
  (if Mw.ciOp w = 0 then [] else [.ci]) ++ (if Mw.dmaOp w = 0 then [] else [.dma]) ++ (if Mw.hashOp w = 0 then [] else [.hash])

/-- The port whose status a source names (R287). -/
def sourcePort (s : Nat) : List EnginePort :=
  match s with
  | 34 => [.ts]
  | 35 => [.hb]
  | 36 => [.pb]
  | 37 => [.ci]
  | 38 => [.dma]
  | _ => []

/-- The port whose status a condition names (R291). -/
def condPort (cond : Nat) : List EnginePort :=
  if cond = 0x08 ∨ cond = 0x09 then [.ts]
  else if 0x0A ≤ cond ∧ cond ≤ 0x0D then [.hb]
  else if cond = 0x0E then [.pb]
  else if cond = 0x0F ∨ cond = 0x10 then [.ci]
  else if cond = 0x11 then [.dma]
  else []

/-- The sequencer operation tests the condition. -/
def Mw.tests (w : Nat) : Bool := Mw.seqOp w == 2 || Mw.seqOp w == 3

/-- Ports whose last status a word reads. -/
def Mw.statusPorts (w : Nat) : List EnginePort :=
  (Mw.sources w).flatMap sourcePort ++ (if Mw.tests w then condPort (Mw.cond w) else [])

/-- Registers that await the result of an operation (R293): the whole group, which a MEM_ERROR fills with zeros (R294). -/
def PortOp.awaits (o : PortOp) : List Nat :=
  match o.port with
  | .ts => if o.op = 1 then fourRegs o.dst else if o.op = 3 then [o.dst] else []
  | .hb => if o.op = 1 ∨ (3 ≤ o.op ∧ o.op ≤ 5) then groupRegs o.dst else []
  | .pb => if o.op = 1 then groupRegs o.dst else []
  | .hash => [o.dst]
  | .ci => []
  | .dma => []

/-- An interlock of R298 holds a word. -/
def Ctx.interlocked (k : Ctx) (w : Nat) : Bool :=
  k.ops.any fun o => o.awaits.any (Mw.registers w).contains || (Mw.statusPorts w).contains o.port || (Mw.ports w).contains o.port

/-! ### The units (R288–R291) -/

/-- Number of leading zeros of 64 bits. -/
def clz64 (a : Nat) : Nat := ((List.range 64).find? fun i => bitN a (63 - i)).getD 64

/-- The result of an ALU operation, before it is held to 64 bits. Log 64 (DESIGN CHOICE). -/
def aluResult (op a b carry : Nat) : Nat :=
  match op with
  | 0x01 => a
  | 0x02 => a + b
  | 0x03 => a + 2 ^ 64 - b
  | 0x04 => a &&& b
  | 0x05 => a ||| b
  | 0x06 => a ^^^ b
  | 0x07 => a &&& (b ^^^ (2 ^ 64 - 1))
  | 0x08 => a ^^^ (2 ^ 64 - 1)
  | 0x09 => a + 2 ^ 64 - b
  | 0x0A => a &&& b
  | 0x0B => min a b
  | 0x0C => max a b
  | 0x0D => a + b + carry
  | 0x0E => a + 1
  | 0x0F => a + 2 ^ 64 - 1
  | 0x10 => popN a 64
  | 0x11 => clz64 a
  | 0x12 => b2n (a == b)
  | 0x13 => b2n (decide (a < b))
  | _ => 0

/-- An ALU operation (R288): the value to write, if it writes, and the flags after it. The carry of an addition is that
out of bit 63; the spec states none for the other operations, and theirs is a free value. Log 64 (DESIGN CHOICE). -/
def alu (op a b : Nat) (f : Flags3) : Option Nat × Flags3 :=
  if op = 0 then (none, f)
  else
    let full := aluResult op a b (b2n f.c)
    let r := full % 2 ^ 64
    let c := if op = 0x02 ∨ op = 0x0D ∨ op = 0x0E then decide (2 ^ 64 ≤ full) else Config.aluCarry op a b
    (if op = 0x09 ∨ op = 0x0A then none else some r, ⟨r == 0, bitN r 63, c⟩)

/-- A shifter operation (R289) on a source, with the destination's old value. Log 64 (DESIGN CHOICE). -/
def shifter (op p w s old : Nat) : Nat :=
  match op with
  | 1 => s * 2 ^ p % 2 ^ 64
  | 2 => s / 2 ^ p
  | 3 => if bitN s 63 then (s / 2 ^ p + (2 ^ 64 - 2 ^ (64 - p))) % 2 ^ 64 else s / 2 ^ p
  | 4 => s * 2 ^ p % 2 ^ 64 + s / 2 ^ (64 - p)
  | 5 => s / 2 ^ p % 2 ^ w
  | 6 => setBitsN old p (min w (64 - p)) s
  | 7 => beNat (toLE 8 s)
  | _ => 0

/-- A condition (R291, R292). -/
def Ctx.condition (k : Ctx) (paired : Bool) (cond : Nat) : Bool :=
  let st := fun (i v : Nat) => k.status.getD i 0 == v
  match cond with
  | 0x00 => true
  | 0x01 => k.fa.z
  | 0x02 => k.fa.n
  | 0x03 => k.fa.c
  | 0x04 => k.fb.z
  | 0x05 => k.fb.n
  | 0x06 => k.fb.c
  | 0x07 => k.sz
  | 0x08 => st 0 0
  | 0x09 => st 0 1
  | 0x0A => st 1 0
  | 0x0B => st 1 1
  | 0x0C => st 1 2
  | 0x0D => st 1 3
  | 0x0E => st 2 0
  | 0x0F => st 3 0
  | 0x10 => st 3 8
  | 0x11 => st 4 0
  | 0x12 => k.job
  | 0x13 => paired
  | _ => false

/-- The next address and return stack (R290); none for a STACK fault. -/
def Ctx.next (k : Ctx) (paired : Bool) (w : Nat) : Option (Nat × List Nat) :=
  let t := Mw.target w
  let n := k.pc + 1
  match Mw.seqOp w with
  | 1 => some (t, k.stack)
  | 2 => some (if k.condition paired (Mw.cond w) then t else n, k.stack)
  | 3 => some (if k.condition paired (Mw.cond w) then n else t, k.stack)
  | 4 => if 4 ≤ k.stack.length then none else some (t, n :: k.stack)
  | 5 =>
    match k.stack with
    | [] => none
    | r :: s => some (r, s)
  | 6 => some (t + k.g (Mw.cond w) % 16, k.stack)
  | _ => some (n, k.stack)

/-! ### Faults of a word (R300) -/

/-- Words loaded into the control store. -/
def Chip.loadedWords (c : Chip) (d : Nat) : Nat :=
  let n := c.fld d R.dreCsInfo 0 16
  if n = 0 ∧ c.fld d R.dreCsInfo 16 8 ≠ 0 then 32768 else n

/-- A word holds a reserved code, a reserved source or a misaligned register, or ends a packet context with COMPLETE (R300). Codes in
fields that the word does not use are not looked at; ts_data of a record read counts as a descriptor register.
Log 65 (DESIGN CHOICE). -/
def Mw.illegal (w : Nat) (job : Bool) : Bool :=
  decide (0x14 ≤ Mw.aluAOp w) || decide (0x14 ≤ Mw.aluBOp w) || (Mw.sources w).any (decide <| 42 ≤ ·) ||
  decide (4 ≤ Mw.tsOp w) || (Mw.tsOp w == 1 && Mw.tsData w % 4 != 0) || Mw.pbOp w == 7 ||
  Mw.ciOp w == 3 || (Mw.ciOp w != 0 && Mw.ciReg w % 4 != 0) || decide (2 ≤ Mw.dmaOp w) || (Mw.dmaOp w != 0 && Mw.dmaReg w % 4 != 0) ||
  Mw.seqOp w == 7 || (Mw.tests w && decide (0x14 ≤ Mw.cond w)) || Mw.yield w == 3 || decide (5 ≤ Mw.endOp w) || (Mw.endOp w == 4 && !job)

/-- A port operation of a word is out of range (R293): an engine-state offset, a packet-buffer offset or length, a
packet-buffer operation without a packet, the local side of a DMA post. Log 65 (DESIGN CHOICE). -/
def Chip.outOfRange (c : Chip) (k : Ctx) (w : Nat) : Bool :=
  let p := k.pkt.bind c.pkt
  let hb := k.g (Mw.hbAddr w)
  let off := k.g (Mw.pbOff w)
  let imm := Mw.imm w
  let len := (p.map Pkt.len).getD 0
  let da := k.g (Mw.dmaReg w)
  let dl := bitsN da 32 25
  let dof := k.g (Mw.dmaReg w + 2)
  (decide (1 ≤ Mw.hbOp w) && decide (Mw.hbOp w ≤ 2) && (hb % 64 != 0 || decide (stateBytes < hb + 64))) ||
  (Mw.hbOp w == 3 && (hb % 8 != 0 || decide (stateBytes < hb + 8))) ||
  (decide (1 ≤ Mw.pbOp w) && decide (Mw.pbOp w ≤ 5) && p.isNone) ||
  ((Mw.pbOp w == 1 || Mw.pbOp w == 2) && decide (16384 < off)) ||
  (Mw.pbOp w == 3 && (off == 0 || decide (16384 < off))) ||
  (Mw.pbOp w == 4 && decide (16384 < len + imm)) ||
  (Mw.pbOp w == 5 && decide (len < imm)) ||
  (Mw.dmaOp w == 1 && dl != 0 && (if bitN da 13 then decide (stateBytes < dof + dl) else p.isNone || decide (16384 < dof + dl)))

/-! ### Port operations of a word -/

/-- The operations that a word issues, with the operands they capture (R293, R295). -/
def Ctx.portOps (k : Ctx) (w : Nat) : List PortOp :=
  let four := fun (r i : Nat) => k.g (r + i)
  (if Mw.tsOp w = 0 then [] else [⟨.ts, Mw.tsOp w, k.g (Mw.tsAddr w), k.g (Mw.tsData w), 0, 0, Mw.tsData w, [], false, none⟩]) ++
  (if Mw.hbOp w = 0 then [] else [⟨.hb, Mw.hbOp w, k.g (Mw.hbAddr w), 0, 0, 0, Mw.hbGrp w, k.group (Mw.hbGrp w), false, none⟩]) ++
  (if Mw.pbOp w = 0 then [] else [⟨.pb, Mw.pbOp w, k.g (Mw.pbOff w), Mw.imm w, 0, 0, Mw.pbGrp w, k.group (Mw.pbGrp w), false, none⟩]) ++
  (if Mw.ciOp w = 0 then [] else
    [⟨.ci, Mw.ciOp w, four (Mw.ciReg w) 0, four (Mw.ciReg w) 1, four (Mw.ciReg w) 2, four (Mw.ciReg w) 3, 0, [], false, none⟩]) ++
  (if Mw.dmaOp w = 0 then [] else
    [⟨.dma, Mw.dmaOp w, four (Mw.dmaReg w) 0, four (Mw.dmaReg w) 1, four (Mw.dmaReg w) 2, four (Mw.dmaReg w) 3, 0, [], false, none⟩]) ++
  (if Mw.hashOp w = 0 then [] else [⟨.hash, Mw.hashOp w, 0, 0, 0, 0, Mw.hashDst w, k.group (Mw.hashGrp w), false, none⟩])

/-- The register writes of a word's units, in the order in which later ones prevail (R287), and the flags after it. -/
def Chip.runUnits (c : Chip) (d e x : Nat) (k : Ctx) (w : Nat) : Ctx :=
  let v := c.srcVal d e x k w
  let (ra, fa) := alu (Mw.aluAOp w) (v (Mw.aluASrcA w)) (v (Mw.aluASrcB w)) k.fa
  let (rb, fb) := alu (Mw.aluBOp w) (v (Mw.aluBSrcA w)) (v (Mw.aluBSrcB w)) k.fb
  let s := shifter (Mw.shmOp w) (Mw.shmPos w) (Mw.shmWidth w) (v (Mw.shmSrc w)) (k.g (Mw.shmDst w))
  let k' := match ra with | some r => k.setG (Mw.aluADst w) r | none => k
  let k' := match rb with | some r => k'.setG (Mw.aluBDst w) r | none => k'
  let k' := if Mw.shmOp w = 0 then k' else { k'.setG (Mw.shmDst w) s with sz := s == 0 }
  { k' with fa := fa, fb := fb }

/-- A word that issues (R286–R299): its units, its port operations, its next address, a wait, a pause, an end action. -/
def Chip.issueWord (c : Chip) (d e x : Nat) (k : Ctx) (w pc : Nat) (stack : List Nat) : Chip :=
  let k' := c.runUnits d e x k w
  let ops := k.ops ++ k.portOps w
  let words := satAdd 32 k.words 1
  let limit := c.fld d R.dreWatchdog 0 16 * 1024
  let long := limit != 0 && decide (limit < words) && !k.longDone
  let st := if Mw.endOp w ≠ 0 then .ending (Mw.endOp w) (Mw.imm w) ((Mw.endRegs w).map k.g)
    else if Mw.yield w = 2 then .paused (c.now + Mw.imm w * 65536) else .ready
  let k' := { k' with pc := pc, stack := stack, ops := ops, words := words, longDone := k.longDone || long, st := st
                      yielding := Mw.yield w == 1 && !ops.isEmpty }
  let c := (c.setCtx d e x (some k')).setDre fun s => { s with dreWords := tmod 0 s.dreWords d fun n => wrapAdd 64 n 1 }
  if long then c.raise Cls.dreContextLong d { block := 11, unit := e * 128 + x, value := k.pc } else c

/-- A context is ready (R279): it holds work, does not wait, and no interlock holds its next word. -/
def Chip.ctxReady (c : Chip) (k : Ctx) : Bool := k.st == .ready && !k.yielding && !k.interlocked (tget 0 c.dre.cstore k.pc)

/-- The ready context of an engine whose turn it is in round-robin order (R279). -/
def Chip.turnOf (c : Chip) (d e : Nat) : Option Nat :=
  ((List.range 128).map fun i => (tget 0 c.dre.turns (d * 64 + e) + i) % 128).find? fun x =>
    match c.ctx d e x with | some k => c.ctxReady k | none => false

/-- An engine's turn passes to the context after `x`. -/
def Chip.passTurn (c : Chip) (d e x : Nat) : Chip :=
  c.setDre fun s => { s with turns := tput 0 s.turns (d * 64 + e) ((x + 1) % 128) }

/-- MICROWORD_ISSUE (R279, R298, R300, R309): the ready context whose turn it is issues its next word, or faults. A corrected
read of the control store is reported and the word issues. A word that ends the context has no next address to be checked (R290).
Log 65 (DESIGN CHOICE). -/
def microwordIssue (die engine ctx : Nat) (csErr : ScrubOutcome) (mismatch : Bool) (c : Chip) : Chip :=
  match c.ctx die engine ctx with
  | none => c
  | some k =>
    let w := tget 0 c.dre.cstore k.pc
    let paired := c.bit die R.dreCtrl 2
    let bad := fun (cause : Nat) (c : Chip) => c.ctxFault die engine ctx cause
    if !c.on die 11 || c.turnOf die engine != some ctx then c
    else
      let c := (c.passTurn die engine ctx).readCheck die false csErr { block := 11, addr := k.pc }
      if csErr == .uncorrectable then bad Cause.csError c
      else if mismatch && paired then
        bad Cause.lockstep (c.raise Cls.dreLockstepMismatch die { block := 11, unit := engine * 128 + ctx, value := k.pc })
      else if Mw.illegal w k.job then bad Cause.illegal c
      else
        match k.next paired w with
        | none => bad Cause.stack c
        | some (pc, stack) =>
          if Mw.endOp w = 0 ∧ c.loadedWords die ≤ pc then bad Cause.illegal c
          else if c.outOfRange k w then bad Cause.range c
          else c.issueWord die engine ctx k w pc stack

end Sys2Proof.Machine
end

