-- ==== Sys2Proof/Machine/Engine.lean ====
section
/-! DEFINITION. The Ditchrider engines (spec/10): the start of contexts, their port operations, the end of contexts. -/

namespace Sys2Proof.Machine

/-! ### Starting a context (R280–R285) -/

/-- STORAGE_CMD (R383): a key_kind without addresses completes with BAD_ACTION; any other command waits for a context. -/
def storageCmd (f : Nat) (c : Chip) : Chip :=
  runEntry f 0x09 (fun e c => if [0, 6, 7].contains (byteAt e.bytes 9 % 8) then c.endWith f e St.badAction else c) c

/-- A context before its first word, with registers set. -/
def Ctx.fresh (job : Bool) (pkt : Option Nat) (fn index epoch slot pc : Nat) (regs : List (Nat × Nat)) : Ctx :=
  let k : Ctx := ⟨job, pkt, fn, index, epoch, slot, List.replicate 32 0, pc, [], ⟨false, false, false⟩, ⟨false, false, false⟩, false,
    List.replicate 5 0, false, .ready, [], 0, false⟩
  regs.foldl (fun k r => k.setG r.1 r.2) k

/-- Begins a context at the entry of its program (R283): an entry beyond the loaded words ends it at once. -/
def Chip.beginCtx (c : Chip) (d e x program : Nat) (k : Ctx) : Chip :=
  let pc := c.fld d (R.dreEntry program) 0 15
  let c := (c.setCtx d e x (some { k with pc := pc })).setDre fun s => { s with dreStarts := tmod 0 s.dreStarts d fun n => wrapAdd 64 n 1 }
  if c.loadedWords d ≤ pc then c.ctxFault d e x Cause.illegal else c

/-- Entry program of a packet (R98, R282): that of its miss action where the lookup missed and it is 0b01, else that of its
disposition. -/
def Pkt.program (p : Pkt) : Nat :=
  Act.program (actOf (if p.missed && Act.miss (actOf p.merged.miss) == 1 then p.merged.miss else p.merged.disp))

/-- Registers that a packet context starts with (R284). -/
def Chip.packetRegs (c : Chip) (p : Pkt) : List (Nat × Nat) :=
  let h := c.packetHash p
  let g0 := p.len + (if p.srcInst then 0xFFFF else p.src) * 2 ^ 16 + (if p.srcInst then p.src else 0xFFFF) * 2 ^ 32 + p.inDie * 2 ^ 48
  let g1 := p.hash + p.epoch * 2 ^ 32 + h.dir * 2 ^ 48 + b2n p.reinjected * 2 ^ 49
  let g2 := p.program + b2n p.missed * 2 ^ 8 + b2n p.flow.isSome * 2 ^ 9
  let entry := match p.flow with
    | some b => b
    | none => h.key ++ toLE 1 h.kind ++ List.replicate 23 0
  [(0, g0), (1, g1), (2, g2), (4, p.md % 2 ^ 64), (5, p.md / 2 ^ 64)] ++ groupWrites 1 entry

/-- Registers that a job context starts with. -/
def jobRegs (f epoch : Nat) (b : Bytes) : List (Nat × Nat) :=
  [(0, f + f / 512 * 2 ^ 16), (1, epoch * 2 ^ 32), (2, byteAt b 8)] ++ groupWrites 1 (slice b 0 64) ++ groupWrites 2 (slice b 64 64)

/-- The oldest started storage command of a ring that waits for a context of an engine. -/
def Chip.waitingJob (c : Chip) (d e f : Nat) : Option Started :=
  (c.chan f).started.find? fun s =>
    s.run && s.recs.isNone && (s.engine.map fun g => (g.1, c.enginePair g.1 g.2)) == some (d, e) && byteAt s.bytes 1 == 0x09 && !c.hasCtx f s.seq

/-- ENGINE_CONTEXT_START (R280–R284): the oldest packet of the engine's queue, or a waiting storage command, takes a
context; a command from another die while the Culvert carries it (R39). Log 65 (DESIGN CHOICE). -/
def engineContextStart (die engine : Nat) (job : Option Nat) (c : Chip) : Chip :=
  if !c.on die 11 || decide (64 ≤ engine) || (c.bit die R.dreCtrl 2 && engine % 2 == 1) then c
  else
    match c.freeCtx die engine job.isSome with
    | none => c
    | some x =>
      match job with
      | none =>
        match c.oldest fun p => p.die == die && (match p.stage with | .engineQ q => c.enginePair die q == engine | _ => false) with
        | none => c
        | some p =>
          let c' := c.setPkt { (p.release fun _ => true).sealed with stage := .context, holdsEpoch := false }
          c'.beginCtx die engine x p.program (Ctx.fresh false (some p.id) 0 0 p.epoch p.slot 0 (c.packetRegs p))
      | some f =>
        match c.waitingJob die engine f with
        | none => c
        | some s =>
         match (if c.dataWaits (c.fnDie f) die (c.jobHash f s.bytes) then none else c.crossData (c.fnDie f) die (c.jobHash f s.bytes) s.bytes.length) with
         | none => c
         | some c =>
          let slot := c.curSlot
          let epoch := (c.rl.slots.getD slot ⟨0, .current, false⟩).epoch
          c.beginCtx die engine x (byteAt s.bytes 8) (Ctx.fresh true none f s.seq epoch slot 0 (jobRegs f epoch s.bytes))

/-! ### Port operations (R293–R296) -/

/-- The shared form of a port's row: runs `g` on the context's operation of this code, if it waits to be carried out. -/
def withOp (port : EnginePort) (code d e x : Nat) (g : Ctx → PortOp → Chip → Chip) (c : Chip) : Chip :=
  match c.ctx d e x with
  | none => c
  | some k =>
    match k.op port with
    | none => c
    | some o => if c.alive && o.op == code && o.result.isNone && !o.started then g k o c else c

/-- Gives a context's operation its status and register writes. -/
def Chip.opDone (c : Chip) (d e x : Nat) (port : EnginePort) (status : Nat) (writes : List (Nat × Nat)) : Chip :=
  match c.ctx d e x with
  | none => c
  | some k => c.setCtx d e x (some (k.answer port status writes))

/-- Registers of a TS_READ_ACTION's destination. -/
def fourWrites (dst v : Nat) : List (Nat × Nat) := (List.range 4).map fun i => (dst + i, bitsN v (64 * i) 64)

/-- TS_READ_ACTION; an uncorrectable read gives zeros and MEM_ERROR (R294), and the record matches no lookup of the die from then on
(R505). -/
def tsReadAction (d e x : Nat) (memErr : ScrubOutcome) (c : Chip) : Chip :=
  withOp .ts 1 d e x (fun k o c =>
    let c := c.readCheck d false memErr { block := 11, addr := o.a }
    if memErr == .uncorrectable then
      (if (tget none c.rl.acts o.a).isSome then c.spoilObj (.action d o.a) else c).opDone d e x .ts 0x06 (fourWrites o.dst 0)
    else match c.action d o.a k.slot with
    | some a => c.opDone d e x .ts 0x00 (fourWrites o.dst a)
    | none => c.opDone d e x .ts 0x05 []) c

/-- TS_COUNTER_ADD (R123). Log 65 (DESIGN CHOICE). -/
def tsCounterAdd (d e x : Nat) (c : Chip) : Chip :=
  withOp .ts 2 d e x (fun _ o c =>
    let c := if o.a < 2 ^ 20 then c.ctrAdd (d * 2 ^ 20 + o.a) o.b else c
    c.opDone d e x .ts 0x00 []) c

/-- TS_MAC_LOOKUP: a visible static entry, else the learned one, whose hit is recorded (R177). An uncorrectable read answers MEM_ERROR
and loses the bucket (R294, R505); a failed check (`bad`) no match (R508). -/
def tsMacLookup (d e x : Nat) (memErr : ScrubOutcome) (bad : Bool) (c : Chip) : Chip :=
  withOp .ts 3 d e x (fun k o c =>
    let key := o.a % 2 ^ 60
    let c := c.macRead d key memErr
    if memErr == .uncorrectable then c.opDone d e x .ts 0x06 [(o.dst, 0)]
    else if bad then (c.lookupBad d .mac).opDone d e x .ts 0x01 []
    else match c.staticMac d key k.slot with
    | some (_, m) => c.opDone d e x .ts 0x00 [(o.dst, m.rec_ + 2 ^ 63)]
    | none =>
      match c.learned d key with
      | some (_, m) => (c.macHit d key).opDone d e x .ts 0x00 [(o.dst, m.loc + b2n m.locInst * 2 ^ 12)]
      | none => c.opDone d e x .ts 0x01 []) c

/-- The shared form of an engine-state row: the read it makes is checked (R502), an uncorrectable one answers MEM_ERROR with
a zeroed destination (R294); else `g` acts on the operation. Operations to one line keep their order (R296). -/
def stateOp (code d e x : Nat) (memErr : ScrubOutcome) (zeros : PortOp → List (Nat × Nat)) (g : PortOp → Chip → Chip) (c : Chip) : Chip :=
  withOp .hb code d e x (fun k o c =>
    if !k.linesDone .hb then c
    else
      let c := c.readCheck d true memErr { block := 11, addr := o.a }
      if memErr == .uncorrectable then c.opDone d e x .hb 0x06 (zeros o) else g o c) c

/-- HB_STATE_READ. -/
def hbStateRead (d e x : Nat) (memErr : ScrubOutcome) (c : Chip) : Chip :=
  stateOp 1 d e x memErr (fun o => groupWrites o.dst (List.replicate 64 0))
    (fun o c => c.opDone d e x .hb 0x00 (groupWrites o.dst (c.stateRead d o.a 64))) c

/-- HB_STATE_WRITE. -/
def hbStateWrite (d e x : Nat) (c : Chip) : Chip :=
  stateOp 2 d e x .clean (fun _ => []) (fun o c => (c.stateWrite d o.a o.data).opDone d e x .hb 0x00 []) c

/-- HB_ATOMIC_ADD; nothing is added where the word cannot be read. -/
def hbAtomicAdd (d e x : Nat) (memErr : ScrubOutcome) (c : Chip) : Chip :=
  stateOp 3 d e x memErr (fun o => groupWrites o.dst (List.replicate 64 0)) (fun o c =>
    let old := leNat (c.stateRead d o.a 8)
    (c.stateWrite d o.a (toLE 8 (old + leAt o.data 0 8))).opDone d e x .hb 0x00 [(8 * o.dst, old)]) c

/-- The owner die of the flow key in a group (R158). -/
def Chip.flowOwner (c : Chip) (d : Nat) (img : Bytes) : Nat := c.ownerDie d (c.keyHash d (Flow.kind img) img)

/-- The shared form of a flow operation: WRONG_DIE for a key owned elsewhere. While the table block of the die is disabled no
lookup or insert is made (R173): `off` answers. Log 65 (DESIGN CHOICE). -/
def flowOp (code d e x : Nat) (off : Option Nat) (g : PortOp → Chip → Chip) (c : Chip) : Chip :=
  withOp .hb code d e x (fun _ o c =>
    if c.flowOwner d o.data ≠ d then c.opDone d e x .hb 0x04 []
    else match (if c.en d 4 then none else off) with
      | some st => c.opDone d e x .hb st []
      | none => g o c) c

/-- HB_FLOW_LOOKUP (R161). An uncorrectable read answers MEM_ERROR and loses the codeword (R294, R505); a failed check (`bad`) no
match (R508). -/
def hbFlowLookup (d e x : Nat) (memErr : ScrubOutcome) (bad : Bool) (c : Chip) : Chip :=
  flowOp 4 d e x (some 0x01) (fun o c =>
    let kb := Flow.keyBytes o.data
    let meets := c.flowMeets d kb memErr
    let (found, c) := c.flowLookup d kb memErr
    if meets then c.opDone d e x .hb 0x06 (groupWrites o.dst (List.replicate 64 0))
    else if bad then (c.lookupBad d .flow).opDone d e x .hb 0x01 []
    else match found with
    | some b => c.opDone d e x .hb 0x00 (groupWrites o.dst b)
    | none => c.opDone d e x .hb 0x01 []) c

/-- HB_FLOW_INSERT (R162, R155): valid and hit set, by_steward clear. `memErr`: what the key's codeword reads as; the slots of an
uncorrectable one count as free (R505). -/
def hbFlowInsert (d e x : Nat) (memErr : ScrubOutcome) (c : Chip) : Chip :=
  flowOp 5 d e x (some 0x03) (fun o c =>
    match (c.flowRead d (Flow.keyBytes o.data) memErr).flowInsert d (Flow.store o.data false) with
    | .inl b => (c.flowRead d (Flow.keyBytes o.data) memErr).opDone d e x .hb 0x02 (groupWrites o.dst b)
    | .inr none => ((c.flowRead d (Flow.keyBytes o.data) memErr).count d (R.tblEvtCnt 3)).opDone d e x .hb 0x03 []
    | .inr (some c) => c.opDone d e x .hb 0x00 []) c

/-- The answer of a flow delete or rewrite: done, or MISS. -/
def Chip.flowDone (c : Chip) (d e x : Nat) (r : Option Chip) : Chip :=
  match r with
  | some c => c.opDone d e x .hb 0x00 []
  | none => c.opDone d e x .hb 0x01 []

/-- HB_FLOW_DELETE (R157), with `memErr` as for HB_FLOW_INSERT. -/
def hbFlowDelete (d e x : Nat) (memErr : ScrubOutcome) (c : Chip) : Chip :=
  flowOp 6 d e x none (fun o c =>
    let c := c.flowRead d (Flow.keyBytes o.data) memErr
    c.flowDone d e x (c.flowDelete d (Flow.keyBytes o.data))) c

/-- HB_FLOW_REWRITE (R157): the image in place, valid and hit set as an insert sets them; `memErr` as for HB_FLOW_INSERT.
Log 76 (DESIGN CHOICE). -/
def hbFlowRewrite (d e x : Nat) (memErr : ScrubOutcome) (c : Chip) : Chip :=
  flowOp 7 d e x none (fun o c =>
    let c := c.flowRead d (Flow.keyBytes o.data) memErr
    c.flowDone d e x (c.flowRewrite d (Flow.store o.data false))) c

/-- The shared form of a packet-buffer row: runs `g` on the packet that the context holds. -/
def packetOp (code d e x : Nat) (g : PortOp → Pkt → Chip → Chip) (c : Chip) : Chip :=
  withOp .pb code d e x (fun k o c => match k.pkt.bind c.pkt with | some p => g o p c | none => c.opDone d e x .pb 0x00 []) c

/-- PB_READ; a bad cell gives zeros and MEM_ERROR, and the packet keeps the mark (R294, R504). `cells`: what the cells from that of the
offset on read as. Log 65 (DESIGN CHOICE). -/
def pbRead (d e x : Nat) (cells : CellRead) (c : Chip) : Chip :=
  packetOp 1 d e x (fun o p c =>
    let base := o.a / 256 * 256
    let (bad, c) := c.cellsCheck d false cells (min (o.a % 256 + 64) (p.len - base)) { block := 11, addr := o.a }
    match bad with
    | some b => (c.setPkt (p.spoil (base + b))).opDone d e x .pb 0x06 (groupWrites o.dst (List.replicate 64 0))
    | none => c.opDone d e x .pb 0x00 (groupWrites o.dst (p.read o.a 64))) c

/-- PB_WRITE. -/
def pbWrite (d e x : Nat) (c : Chip) : Chip := packetOp 2 d e x (fun o p c => (c.setPkt (p.write o.a o.data)).opDone d e x .pb 0x00 []) c

/-- PB_SET_LENGTH: growth is zero-filled. -/
def pbSetLength (d e x : Nat) (c : Chip) : Chip := packetOp 3 d e x (fun o p c => (c.setPkt (p.setLen o.a)).opDone d e x .pb 0x00 []) c

/-- Free bytes. Log 49 (DESIGN CHOICE). -/
def Chip.freeBytes (c : Chip) (n : Nat) : Bytes := (List.range n).map fun i => BitVec.ofNat 8 (Config.free (c.free + i))

/-- PB_PREPEND; the spec names no content for the new bytes: they are free values. Log 49 (DESIGN CHOICE). -/
def pbPrepend (d e x : Nat) (c : Chip) : Chip :=
  packetOp 4 d e x (fun o p c =>
    let c := c.setPkt (p.setBuf (c.freeBytes o.b ++ p.buf))
    ({ c with free := c.free + o.b }).opDone d e x .pb 0x00 []) c

/-- PB_REMOVE. Log 65 (DESIGN CHOICE). -/
def pbRemove (d e x : Nat) (c : Chip) : Chip :=
  packetOp 5 d e x (fun o p c => (c.setPkt (p.setBuf (p.buf.drop o.b))).opDone d e x .pb 0x00 []) c

/-- PB_ALLOCATE: an empty packet for a job context that holds none, unless the engine share is full. Log 65 (DESIGN CHOICE). -/
def pbAllocate (d e x : Nat) (c : Chip) : Chip :=
  withOp .pb 6 d e x (fun k _ c =>
    if !k.job || k.pkt.isSome || !c.fits d .engine 1 then c.opDone d e x .pb 0x07 []
    else
      let p : Pkt := { Pkt.blank with
        die := d, inDie := d, stage := .context, srcInst := true, src := k.fn, tIn := c.now, epoch := k.epoch, slot := k.slot, owner := d
        tail := [] }
      let id := c.dp.nextPkt
      ((c.addPkt p).setCtx d e x (some { k with pkt := some id })).opDone d e x .pb 0x00 []) c

/-- HASH_H1_H2 (R148). -/
def hashH1H2 (d e x : Nat) (c : Chip) : Chip :=
  withOp .hash 1 d e x (fun _ o c =>
    let kb := Flow.keyBytes o.data
    c.opDone d e x .hash 0x00 [(o.dst, (crc32c kb).toNat + (crc32 kb).toNat * 2 ^ 32)]) c

/-- HASH_SYMMETRIC (R140, R33). -/
def hashSymmetric (d e x : Nat) (c : Chip) : Chip :=
  withOp .hash 2 d e x (fun _ o c =>
    let h := c.keyHash d (Flow.kind o.data) o.data
    c.opDone d e x .hash 0x00 [(o.dst, h + c.ownerDie d h * 2 ^ 32)]) c

/-- HASH_CRC. -/
def hashCrc (d e x : Nat) (c : Chip) : Chip := withOp .hash 3 d e x (fun _ o c => c.opDone d e x .hash 0x00 [(o.dst, (crc32c o.data).toNat)]) c

/-- Marks a context's operation as handed on. -/
def Chip.opStarted (c : Chip) (d e x : Nat) (port : EnginePort) : Chip :=
  match c.ctx d e x with
  | none => c
  | some k => c.setCtx d e x (some { k with ops := k.ops.map fun o => if o.port = port then { o with started := true } else o })

/-- Hands a unit of a context to the pool's job queue (R295, R296): the record or data unit lies in the packet and its
length is legal, and the packet keeps within the 16,384 bytes of a context (R311); else LENGTH_INVALID. `grows`: by how much the
output exceeds it (R250). Log 65 (DESIGN CHOICE). -/
def handUnit (code d e x least most assoc slot grows : Nat) (kind : UKind) (c : Chip) : Chip :=
  withOp .ci code d e x (fun k o c =>
    let off := o.b % 2 ^ 14
    let n := bitsN o.b 16 15
    let len := ((k.pkt.bind c.pkt).map Pkt.len).getD 0
    if !k.pbDone .ci then c
    else if n < least ∨ most < n ∨ len < off + n ∨ 16384 < len + grows then c.opDone d e x .ci 0x0A []
    else
      let u : CUnit := ⟨c.cp.nextUnit, kind, false, assoc, slot, none, 0, poolEntries (n + grows)⟩
      (c.opStarted d e x .ci).setCp fun s => { s with nextUnit := s.nextUnit + 1, units := tmod [] s.units d fun l => l ++ [u] }) c

/-- First descriptor of a context's cipher operation. -/
def Chip.ciDesc (c : Chip) (d e x : Nat) : Nat := (((c.ctx d e x).bind fun k => k.op .ci).map PortOp.a).getD 0

/-- CIPHER_TLS_RECORD (R254, R295): a record of up to 2¹⁴ bytes of plaintext, header included in its length. -/
def cipherTlsRecord (d e x : Nat) (c : Chip) : Chip :=
  let a := c.ciDesc d e x
  let dec := bitN a 16
  handUnit 1 d e x (if dec then 21 else 5) (if dec then 16406 else 16389) (d * 65536 + a % 65536) 0 (if dec then 0 else 17) (.tls e x) c

/-- CIPHER_XTS_UNIT (R252, R295): a data unit of 16 to 16,384 bytes. -/
def cipherXtsUnit (d e x : Nat) (c : Chip) : Chip := handUnit 2 d e x 16 16384 0 (d * 65536 + c.ciDesc d e x % 65536) 0 (.xts e x) c

/-- DMA_POST (R295, R36, R39): a transfer on the DMA engines of the instance's die; data of another die crosses the Culvert to
it first, behind what R25 puts before it, and a post over a failed port ends with DMA_ENDED (R27). Log 65 (DESIGN CHOICE). -/
def dmaPost (d e x : Nat) (c : Chip) : Chip :=
  withOp .dma 1 d e x (fun k o c =>
    let i := o.a % 2 ^ 12
    let write := !bitN o.a 12
    let n := bitsN o.a 32 25
    let iova := o.b % 2 ^ 48
    let st := (c.inst i).st
    if !k.pbDone .dma || !k.linesDone .dma then c
    else if n = 0 then (c.count (i / 512) (R.dmaEvtCnt 3)).opDone d e x .dma 0x00 []
    else if 16777216 < n then c.opDone d e x .dma 0x0A []
    else if st == .free || st == .resetting || !c.fnMasters i then c.opDone d e x .dma 0x0E []
    else
      if write && c.dataWaits d (i / 512) (c.ctxHash k) then c else
      let data := if bitN o.a 13 then c.stateRead d o.c n else ((k.pkt.bind c.pkt).map fun p => p.read o.c n).getD []
      let t := Xfer.fresh i 0 [] (.post d e x write) (if write then [] else [(iova, n)])
      match c.crossData d (i / 512) (c.ctxHash k) (if write then n else 0) with
      | none => c.opDone d e x .dma 0x0E []
      | some c => (c.opStarted d e x .dma).addXfer (i / 512) { t with outs := if write then [(iova, data)] else [] }) c

/-- PORT_OP_COMPLETE (R297–R299): the result reaches the context; after an end action or a fault it is discarded, and the
context is freed with its last operation. -/
def portOpComplete (d e x : Nat) (port : EnginePort) (c : Chip) : Chip :=
  match c.ctx d e x with
  | none => c
  | some k =>
    match k.op port with
    | none => c
    | some o =>
      match o.result with
      | none => c
      | some (status, writes) =>
        let live := match k.st with | .ready => true | .paused _ => true | _ => false
        let k := { k with ops := k.ops.filter fun q => q.port != port }
        let k := if live then
            let k := writes.foldl (fun k w => k.setG w.1 w.2) k
            match statusSlot port with
            | some i => { k with status := k.status.set i status }
            | none => k
          else k
        let k := if k.ops.isEmpty then { k with yielding := false } else k
        if !c.alive then c else c.setCtx d e x (if k.ops.isEmpty && k.st == .draining then none else some k)

/-- ENGINE_PAUSE_END (R286). Log 12 (DEDUCED). -/
def enginePauseEnd (d e x : Nat) (c : Chip) : Chip :=
  match c.ctx d e x with
  | none => c
  | some k =>
    match k.st with
    | .paused t => if c.alive && c.due t then c.setCtx d e x (some { k with st := .ready }) else c
    | _ => c

/-! ### End actions (R299) -/

/-- A context's action has taken effect: a job that ends without COMPLETE ends its entry; the context is freed.
Log 66 (DESIGN CHOICE). -/
def Chip.finishCtx (c : Chip) (d e x : Nat) (k : Ctx) : Chip := (if k.job then c.endJob d k [] else c).endCtx d e x k

/-- The shared form of an end action's row: the context has issued it and its packet-buffer operations are done. `g` gets
the immediate and the registers captured at issue. -/
def endAction (code d e x : Nat) (g : Ctx → Nat → List Nat → Chip → Chip) (c : Chip) : Chip :=
  match c.ctx d e x with
  | none => c
  | some k =>
    match k.st with
    | .ending a imm args => if c.alive && a == code && k.ops.all (fun o => o.port != .pb || o.result.isSome) then g k imm args c else c
    | _ => c

/-- REINJECT (R40, R299): the packet waits for a Headgate slot under the context's epoch; the context stays held.
Log 66 (DESIGN CHOICE). -/
def reinject (d e x : Nat) (c : Chip) : Chip :=
  endAction 1 d e x (fun k imm _ c =>
    match k.pkt.bind c.pkt with
    | none => c.finishCtx d e x k
    | some p => (c.move { p with start := imm % 256, epoch := k.epoch, slot := k.slot } .reinject).setCtx d e x (some { k with st := .waitSlot })) c

/-- The context that waits for a re-injected packet's slot. -/
def Chip.ctxOfPkt (c : Chip) (d id : Nat) : Option (Nat × Ctx) := (c.ctxsOf d).find? fun k => k.2.pkt == some id && k.2.st == .waitSlot

/-- REINJECT_SLOT (R40, R41): the oldest packet that waits takes a Headgate slot of its die, as a new arrival in the
ingress reserve under its carried epoch, once a slot is its own; it waits while the die's blocks take no arrival, and is not
dropped. `memErr`: a word of its walk that is bad. Logs 66 (DESIGN CHOICE), 74 (DESIGN CHOICE). -/
def reinjectSlot (die : Nat) (memErr : Option (Nat × ScrubOutcome)) (c : Chip) : Chip :=
  match c.oldest fun p => p.die == die && p.stage == .reinject, c.reinjectGate die with
  | some p, some g =>
    let p' := { (p.release fun _ => true) with inDie := die, reinjected := true, whole := true, merged := Merged.none, through := false,
                                               flow := none, missed := false, added := 0, colour := 0, gate := some g }
    let c' := c.setPkt p'
    if !c.alive || !c.arrivalBlocks die || !c'.fits die .ingress p.cells then c
    else
      let c := (c'.takeGate die g true).headgate (p'.take die .ingress) memErr
      match c.ctxOfPkt die p.id with
      | some (k, x) => c.finishCtx die (k / 128) (k % 128) x
      | none => c
  | _, _ => c

/-- ENQUEUE (R299): admission on this die to the destination in g3. Log 66 (DESIGN CHOICE). -/
def enqueue (d e x : Nat) (c : Chip) : Chip :=
  endAction 2 d e x (fun k _ args c =>
    let c := match k.pkt.bind c.pkt with
      | none => c
      | some p =>
        let g := args.getD 0 0
        let inst := bitN g 12
        let dest := g % 2 ^ 12
        let m := { p.merged with rewrite := none, tunnel := none, cipher := none }
        let p := { p with merged := m, tc := bitsN g 13 3, dstInst := inst, dst := dest, owner := d, die := d, through := false }
        if !inst && !c.isPort dest then c.dropPkt { p with dst := 0xFFFF } Dr.linkDown else (c.setPkt p).admitPkt p d
    c.finishCtx d e x k) c

/-- DROP (R299). Log 66 (DESIGN CHOICE). -/
def drop (d e x : Nat) (c : Chip) : Chip :=
  endAction 3 d e x (fun k imm _ c =>
    let r := imm % 256
    let c := match k.pkt.bind c.pkt with
      | none => c
      | some p => c.dropPkt p (if r = 0x58 ∨ 0xC0 ≤ r then r else Dr.engineDrop)
    c.finishCtx d e x k) c

/-- The record that a program supplies in g24–g27, with the fields the part replaces (R407): of the entry `ent` at ring index `index`. -/
def programRec (index : Nat) (args : List Nat) (ent : Bytes) : Bytes :=
  let b := (List.range 4).flatMap fun i => toLE 8 (args.getD i 0)
  toLE 1 0x04 ++ slice b 1 1 ++ toLE 1 (setBitN (byteAt b 2) 0 (bitN (byteAt ent 2) 1)) ++ toLE 1 0x09 ++ toLE 4 (leAt ent 12 4)
    ++ toLE 4 index ++ slice b 12 20

/-- COMPLETE (R299, R407): the context waits with its record while its function is in the full state (R410), and while the record's way
to the function's die is cut off (R27). Log 65 (DESIGN CHOICE). -/
def complete (d e x : Nat) (c : Chip) : Chip :=
  endAction 4 d e x (fun k _ args c =>
    if (c.chan k.fn).full || !c.reach d (c.fnDie k.fn) then c
    else
      let c := match k.pkt.bind c.pkt with
        | none => c
        | some p => c.dropPkt p Dr.engineDrop
      let c := match c.jobEntry k with
        | some s => c.endEntry k.fn k.index [programRec s.index args s.bytes]
        | none => c
      c.endCtx d e x k) c

/-! ### The block (R301, R302) -/

/-- DRE_CTX_KILL (R301). -/
def dreCtxKill (die : Nat) (value : Reg32) (c : Chip) : Chip :=
  let e := bitsN value.toNat 0 6
  let x := bitsN value.toNat 6 7
  match c.ctx die e x with
  | none => c
  | some k => if value.getLsbD 31 && k.st != .draining then c.ctxFault die e x Cause.killed else c

/-- ENGINE_BLOCK_IDLE (R302): no context is left of a disabled engine block. -/
def engineBlockIdle (die : Nat) (c : Chip) : Chip :=
  if c.alive && c.hasDie die && !c.en die 11 && (c.ctxsOf die).isEmpty then c.wfld die R.dreStatus 0 1 1 else c

end Sys2Proof.Machine
end

