-- ==== Sys2Proof/Machine/Scheduler.lean ====
section
/-! DEFINITION. Egress scheduling, shapers and the timing wheel, the Spillway (R194–R209). -/

namespace Sys2Proof.Machine

/-! ### Shapers (R202–R209) -/

/-- Units of a shaper's credit in a byte: fine enough that credit accrues exactly between refills (R205), finer than the
1/256 byte in which R204 holds it. Log 54 (DEDUCED). -/
def creditByte : Nat := 524288000

/-- The slot at which a shaper of credit `-neg` becomes eligible from `now` (R204): its time and its level. -/
def wheelSlot (rate neg now : Nat) : Nat × Nat :=
  let level := if neg < rate * 2 ^ 32 then 2 ^ 20 else if neg < rate * 2 ^ 44 then 2 ^ 32 else 2 ^ 44
  (((now * rate + neg) / (rate * level) + 1) * level, level)

/-- Enters a shaper without credit on the wheel; one of rate 0 leaves it (R207). -/
def Shaper.enter (s : Shaper) (now : Nat) : Shaper :=
  if s.rate = 0 then { s with slot := .none }
  else
    let (t, l) := wheelSlot s.rate (-s.credit).toNat now
    { s with slot := some t, level := l }

/-- A shaper lets its nodes receive grants (R204, R207). -/
def Shaper.open_ (s : Shaper) : Bool := decide (0 < s.rate) && decide (0 < s.credit)

/-- Charges a packet of `len` bytes to a shaper (R203, R204). -/
def Chip.chargeShaper (c : Chip) (len : Nat) (k : Nat) : Chip :=
  let s := c.shaper k
  let s := { s with credit := s.credit - ((len + s.overhead) * creditByte : Nat) }
  c.setShaper k (if s.credit ≤ 0 then s.enter c.now else s)

/-- SHAPER_REFILL (R205, R206, R208, R209): the shaper's slot has come, whether or not the scheduling block is enabled, which R205 leaves
open. Logs 12 (DEDUCED), 58 (DESIGN CHOICE). -/
def shaperRefill (die idx : Nat) (late : Bool) (c : Chip) : Chip :=
  let k := die * 131072 + idx
  let s := c.shaper k
  match s.slot with
  | none => c
  | some t =>
    let t := if late then t + s.level else t
    if !c.alive || !c.due t then c
    else
      let c := if late then c.count die R.schRefillLate else c
      let cr := min (s.credit + (s.rate * (t - s.last) : Nat)) (s.burst * creditByte : Nat)
      let s := { s with credit := cr, last := t, slot := none }
      let s := match s.change with
        | some (r, b, o) => { s with rate := r, burst := b, overhead := o, change := none }
        | none => s
      if 0 ≤ s.credit ∧ !c.shaperBusy k then c.setShaper k { s with credit := 0 }
      else if s.credit ≤ 0 then c.setShaper k (s.enter t)
      else c.setShaper k s

/-- Runs `f`, which may name other shapers above the queues that die `d` schedules: those above waiting packets before are settled and
those after are started (R206). -/
def Chip.reshape (c : Chip) (d : Nat) (f : Chip → Chip) : Chip :=
  let ps := c.dp.pkts.filter fun p => p.stage == .queued && destDie p.dstInst p.dst == d
  let old := ps.flatMap fun p => c.nodeShapers p.dstInst p.dst p.tc
  let c := old.foldl (fun c k => c.settleShaper k) (f c)
  ps.foldl (fun c p => c.wakeShapers p.dstInst p.dst p.tc) c

/-! ### QoS changes at T_sw (R196, R208, R214, R215) -/

/-- Applies a change of the QoS objects on a die at its slot boundary `t`. Log 54 (DEDUCED). -/
def Chip.applyQos (c : Chip) (d t : Nat) (q : QosChange) : Chip :=
  match q with
  | .inst i x =>
    let old := (List.range 8).flatMap fun tc => c.nodeShapers true i tc
    let c := c.setQs fun s => { s with qos := tput Qos.none s.qos (d * 4096 + i) x }
    let c := old.foldl (fun (c : Chip) k => c.settleShaper k) c
    (c.dp.pkts.filter fun p => p.stage == .queued && p.dstInst && p.dst == i).foldl
      (fun c p => if d = i / 512 then c.wakeShapers true i p.tc else c) c
  | .shaper n r b o =>
    let s := c.shaper n
    let was := s.rate
    let s := { s with rate := r, burst := b, overhead := o, change := none }
    if r = 0 then c.setShaper n { s with slot := none }
    else if was = 0 then
      let s := { s with last := t, slot := none }
      if !c.shaperBusy n then c.setShaper n { s with credit := min s.credit 0 }
      else c.setShaper n (if 0 < s.credit then s else s.enter t)
    else c.setShaper n s
  | .policer .. => c

/-- Takes a staged change into force at T_sw: a policer at once, full at its first change (R212), later its tokens kept and
capped; a shaper at its next refill,
or with the die's next slot boundary if it is idle or of rate 0; instance settings with every die's boundary. -/
def Chip.switchQos (c : Chip) (q : QosChange) : Chip :=
  match q with
  | .policer n cir pir cbs pbs acts tcs =>
    let p := tget Policer.none c.qs.policers n
    let tc := bucket p.tc p.cir p.cbs p.last c.commit.tsw
    let tp := bucket p.tp p.pir p.pbs p.last c.commit.tsw
    let fresh := p.cir = 0 ∧ p.pir = 0 ∧ p.cbs = 0 ∧ p.pbs = 0
    let p := { p with
      cir := cir, pir := pir, cbs := cbs, pbs := pbs, yAct := acts % 4, rAct := acts / 4 % 4, yTc := tcs % 8, rTc := tcs / 16 % 8
      tc := if fresh then cbs * creditByte else min tc (cbs * creditByte)
      tp := if fresh then pbs * creditByte else min tp (pbs * creditByte)
      last := c.commit.tsw }
    c.setQs fun s => { s with policers := tput Policer.none s.policers n p }
  | .shaper n r b o =>
    let s := c.shaper n
    if s.rate = 0 || (s.slot.isNone && !c.shaperBusy n) then c.setQs fun s => { s with qosPend := s.qosPend ++ [(n / 131072, q)] }
    else c.setShaper n { s with change := some (r, b, o) }
  | .inst .. => c.setQs fun s => { s with qosPend := s.qosPend ++ c.allDies.map fun d => (d, q) }

/-- QOS_APPLY (R196, R208): the first fine slot boundary of a die after T_sw. Log 12 (DEDUCED). -/
def qosApply (die : Nat) (c : Chip) : Chip :=
  let t := nextSlot fineSlot c.commit.tsw
  if !c.alive || !c.due t then c
  else
    let go := c.qs.qosPend.filter fun e => e.1 == die
    let c := c.setQs fun s => { s with qosPend := s.qosPend.filter fun e => e.1 != die }
    go.foldl (fun c e => c.applyQos die t e.2) c

/-! ### The Spillway (R194, R195) -/

/-- SPILLWAY_READBACK (R195): the oldest spilled packet of its queue comes back on-die, up to 64 cells per queue, while the
tenant pool has room. Its cells are read as `cells` says; a bad one is marked and comes back with it (R502, R504).
Log 58 (DESIGN CHOICE). -/
def spillwayReadback (id : Nat) (cells : CellRead) (c : Chip) : Chip :=
  match c.pkt id with
  | none => c
  | some p =>
    let d := p.die
    let spilled := fun (q : Pkt) => q.holds.any fun h => isSpill h.pool
    let same := fun (q : Pkt) => q.stage == .queued && q.die == d && q.dstInst == p.dstInst && q.dst == p.dst && q.tc == p.tc
    let back := ((c.dp.pkts.filter fun q => same q && q.readBack).map Pkt.cells).sum
    if p.stage != .queued || !spilled p || !c.alive || !c.en d 5 || !c.bit d R.bufCtrl 2 || !c.first p (fun q => same q && spilled q) ||
        decide (64 < back + p.cells) || decide (c.poolFree d < p.cells) then c
    else
      let (p, c) := c.readPkt p true cells
      c.setPkt ({ (p.release isSpill) with readBack := true }.take d (.tenant p.dstInst p.dst p.tc))

/-! ### Deficit round robin (R198, R199) -/

/-- A member of a round robin: its number, its quantum, the length of its head packet. -/
structure Member where
  k : Nat
  quantum : Nat
  len : Nat
deriving DecidableEq, Repr

/-- The member after number `k` in cyclic order. -/
def nextMember (ms : List Member) (k : Nat) : Option Member :=
  match ms.find? fun m => decide (k < m.k) with
  | some m => some m
  | none => ms.head?

/-- One pick of a deficit round robin among its eligible members, by fuel: the member served and the state after it. A
member gains its quantum each time the round reaches it. Log 58 (DESIGN CHOICE). -/
def drrPick (ms : List Member) : Nat → Drr → Option (Nat × Drr)
  | 0, _ => none
  | n + 1, s =>
    let step := match nextMember ms s.cur with
      | none => none
      | some m => drrPick ms n { cur := m.k, deficits := tmod 0 s.deficits m.k fun v => v + m.quantum }
    match ms.find? fun m => m.k == s.cur with
    | some m =>
      let v := tget 0 s.deficits m.k
      if m.len ≤ v then some (m.k, { s with deficits := tput 0 s.deficits m.k (v - m.len) }) else step
    | none => step

/-! ### Grants (R197–R199) -/

/-- The head packet of a destination's class on an owner die. -/
def Chip.queueHead (c : Chip) (o : Nat) (inst : Bool) (dest tc : Nat) : Option Pkt :=
  c.oldest fun p => p.stage == .queued && p.die == o && p.dstInst == inst && p.dst == dest && p.tc == tc

def schedKey (inst : Bool) (dest : Nat) : Nat := if inst then 512 + dest else dest

def Chip.sched (c : Chip) (inst : Bool) (dest : Nat) : DestSched := tget DestSched.none c.qs.scheds (schedKey inst dest)

/-- The die that a class is granted next: in round robin after the last one, among those whose head is on-die (R195, R197).
A die that a failed Culvert cuts off is granted too: its packets are dropped as they cross (R27). -/
def Chip.nextDie (c : Chip) (inst : Bool) (dest tc : Nat) : Option (Nat × Pkt) :=
  let last := tget 0 (c.sched inst dest).lastDie tc
  ((List.range c.dies).map fun i => (last + 1 + i) % c.dies).findSome? fun o =>
    match c.queueHead o inst dest tc with
    | some p => if p.holds.any fun h => isSpill h.pool then none else some (o, p)
    | none => none

/-- Strictness and weight of a class of a destination. -/
def Chip.classSet (c : Chip) (inst : Bool) (dest tc : Nat) : Bool × Nat :=
  let d := destDie inst dest
  if inst then
    let q := c.qosOf d dest
    (bitN q.strict tc, q.weights.getD tc 0)
  else
    (bitN (c.rd d (R.schPortCtrl (dest % 64))) tc, c.fld d (if tc < 4 then R.schPortWtLo (dest % 64) else R.schPortWtHi (dest % 64)) (8 * (tc % 4)) 8)

/-- Shaper of a class node of a destination. -/
def Chip.classShaper (c : Chip) (inst : Bool) (dest tc : Nat) : List Nat :=
  let d := destDie inst dest
  shaperKey d (if inst then (c.qosOf d dest).classShapers.getD tc 0xFFFFFF else c.fld d (R.schPortCshp (dest % 64) tc) 0 24)

/-- The first receive buffers of a list that together hold `n` bytes, and the rest (R399). -/
def takeBufs : List RxBuf → Nat → Option (List RxBuf × List RxBuf)
  | l, 0 => some ([], l)
  | [], _ + 1 => none
  | b :: bs, n + 1 => (takeBufs bs (n + 1 - b.len)).map fun r => (b :: r.1, r.2)

/-- An instance can take a packet: Active, mastering the bus (R332), not in the full state (R410), its receive list holds
it. -/
def Chip.instTakes (c : Chip) (i : Nat) (p : Pkt) : Bool :=
  (c.inst i).st == .active && !(c.inst i).freezing && c.fnMasters i && !(c.chan i).full && (takeBufs (c.chan i).rx p.bytes.length).isSome

/-- What a destination's classes would be granted: class, die, packet, and the class round robin after it (R198).
Log 58 (DESIGN CHOICE). -/
def Chip.pickClass (c : Chip) (inst : Bool) (dest : Nat) : Option (Nat × Nat × Pkt × Drr) :=
  let s := c.sched inst dest
  let ready := (List.range 8).filterMap fun tc =>
    match c.nextDie inst dest tc with
    | some (o, p) =>
      if (c.classShaper inst dest tc).all (fun k => (c.shaper k).open_) && (!inst || c.instTakes dest p) then some (tc, o, p) else none
    | none => none
  let strict := ready.filter fun r => (c.classSet inst dest r.1).1
  let rest := ready.filter fun r => !(c.classSet inst dest r.1).1
  let wt := fun (tc : Nat) => (c.classSet inst dest tc).2
  let weighted := rest.filter fun r => wt r.1 != 0
  match strict.getLast? with
  | some r => some (r.1, r.2.1, r.2.2, s.drr)
  | none =>
    if weighted.isEmpty then (rest.getLast?).map fun r => (r.1, r.2.1, r.2.2, s.drr)
    else
      let drr := { s.drr with deficits := tdrop (fun tc => (c.nextDie inst dest tc).isNone) s.drr.deficits }
      match drrPick (weighted.map fun r => ⟨r.1, wt r.1 * 256, r.2.2.len⟩) 1024 drr with
      | some (k, drr) => (weighted.find? fun r => r.1 == k).map fun r => (r.1, r.2.1, r.2.2, drr)
      | none => none

/-- The shaper of a destination node and, for an instance, of its endpoint, let it be granted. -/
def Chip.nodeOpen (c : Chip) (inst : Bool) (dest : Nat) : Bool :=
  let d := destDie inst dest
  let keys := if inst then shaperKey d (c.qosOf d dest).shaper ++ shaperKey d (c.fld d (R.schHostShp ((c.inst dest).port % 4)) 0 24)
    else shaperKey d (c.fld d (R.schPortCtrl (dest % 64)) 8 24)
  keys.all fun k => (c.shaper k).open_

/-- The instances of a host port with a packet to be granted. -/
def Chip.readyInsts (c : Chip) (port : Nat) : List (Nat × Nat) :=
  let l := (c.dp.pkts.filter fun p => p.stage == .queued && p.dstInst && (c.inst p.dst).port == port && p.dst / 512 == port / 4).map Pkt.dst
  ((List.range 512).map fun j => port / 4 * 512 + j).filterMap fun i =>
    if l.contains i && c.nodeOpen true i then (c.pickClass true i).map fun r => (i, r.2.2.1.len) else none

/-- The endpoint's choice among its instances (R199) agrees with a grant to instance `i`: the round robin after it. -/
def Chip.endpointPick (c : Chip) (i : Nat) : Option Drr :=
  let port := (c.inst i).port
  let s := tget ⟨0, []⟩ c.qs.epDrr port
  let ready := c.readyInsts port
  let wt := fun (j : Nat) => (c.qosOf (j / 512) j).weight
  let weighted := ready.filter fun r => wt r.1 != 0
  if weighted.isEmpty then (if (ready.map Prod.fst).contains i then some s else none)
  else
    let s := { s with deficits := tdrop (fun j => !(ready.any fun r => r.1 == j)) s.deficits }
    match drrPick (weighted.map fun r => ⟨r.1, wt r.1 * 256, r.2⟩) (66 * (weighted.length + 1)) s with
    | some (k, s) => if k = i then some s else none
    | none => none

/-- Carries out a grant (R197): the egress window is taken, buffers reserved, shapers charged, once for each node that names one (R204);
the packet enters its window or crosses to its destination die. Log 58 (DESIGN CHOICE). -/
def Chip.doGrant (c : Chip) (inst : Bool) (dest tc o : Nat) (p : Pkt) (drr : Drr) : Chip :=
  let d := destDie inst dest
  let win : Pool := .window inst (if inst then (c.inst dest).port else dest)
  if !c.fits d win p.cells then c
  else
    let s := c.sched inst dest
    let c := c.setQs fun q => { q with scheds := tput DestSched.none q.scheds (schedKey inst dest) { drr := drr, lastDie := tput 0 s.lastDie tc o } }
    let (bufs, c) := if inst then
        match takeBufs (c.chan dest).rx p.bytes.length with
        | some (b, r) => (b, c.setChan dest { c.chan dest with rx := r })
        | none => ([], c)
      else ([], c)
    let keys := c.nodeShapers inst dest tc
    let p := { (p.release fun q => isTenant q || isSpill q) with bufs := bufs, granted := c.dp.stamp, readBack := false }
    let p := p.take d win
    let c := keys.foldl (fun c k => c.chargeShaper p.len k) (c.setPkt p)
    let c := if o = d then c.move p .window else c.sendCulvert p o d (.crossDest d) true
    keys.foldl (fun c k => c.settleShaper k) c

/-- GRANT (R197): a destination's scheduler grants one head packet. Log 58 (DESIGN CHOICE). -/
def grant (inst : Bool) (dest : Nat) (c : Chip) : Chip :=
  let d := destDie inst dest
  if !c.on d 6 || (!inst && !c.isPort dest) || !c.nodeOpen inst dest then c
  else
    match c.pickClass inst dest with
    | none => c
    | some (tc, o, p, drr) =>
      if inst then
        match c.endpointPick dest with
        | none => c
        | some s =>
          let c' := c.doGrant inst dest tc o p drr
          if (c'.pkt p.id).any fun q => q.stage == .queued then c
          else c'.setQs fun q => { q with epDrr := tput ⟨0, []⟩ q.epDrr (c.inst dest).port s }
      else c.doGrant inst dest tc o p drr

end Sys2Proof.Machine
end

