-- ==== Sys2Proof/Machine/Epochs.lean ====
section
/-! DEFINITION. Rule epochs and the commit (R104–R121), change entries (R108–R110, R215, R216), group updates
(R144, R145). -/

namespace Sys2Proof.Machine

/-! ### Slots and holders -/

def Chip.slot (c : Chip) (s : Nat) : Slot := c.rl.slots.getD s ⟨0, .free, false⟩
def Chip.setSlot (c : Chip) (s : Nat) (x : Slot) : Chip := c.setRl fun r => { r with slots := r.slots.set s x }

/-- The current epoch number. -/
def Chip.curEpoch (c : Chip) : Nat := (c.slot c.curSlot).epoch

/-- Packets and contexts on a die that hold a slot's epoch (R115). A context holds it until it is freed, also while it has
ended or faulted and waits for outstanding port operations. Log 75 (DESIGN CHOICE). -/
def Chip.inflight (c : Chip) (d s : Nat) : Nat :=
  (c.dp.pkts.filter fun p => p.die == d && p.slot == s && p.holdsEpoch).length
    + (c.dre.ctxs.filter fun e => e.1 / 8192 == d && (match e.2 with | some x => x.slot == s | none => false)).length

/-- Slots in a state, oldest epoch first. -/
def Chip.slotsIn (c : Chip) (st : SlotSt) : List Nat :=
  let l := (List.range 4).filter fun s => (c.slot s).st == st
  let ord := epochOrd c.rl.slots
  (List.range 8).filterMap fun o => l.find? fun s => ord s == o

/-! ### Completions of the steward's commit entries -/

/-- Ends the started entry of a type on the steward's ring; a COMMIT_CLOSE's record is discarded while the queue is halted
(R121). -/
def Chip.endStw (c : Chip) (typ status cookie : Nat) (detail : Bytes) : Chip :=
  match (c.chan stewardFn).started.find? fun e => e.recs.isNone && byteAt e.bytes 1 == typ with
  | none => c
  | some e =>
    let recs := if (c.chan stewardFn).cqHalt = 0 ∨ typ ≠ 0x41 then [entryRec e.bytes e.index status 0 0 detail (cookie := cookie)] else []
    c.endEntry stewardFn e.seq recs

def Chip.setCommit (c : Chip) (f : Commit → Commit) : Chip := { c with commit := f c.commit }
def Chip.setBarrier (c : Chip) (f : Barrier → Barrier) : Chip := c.setSp fun s => { s with barrier := f s.barrier }

/-- The started entry of a type on the steward's ring that is not run. Log 5 (DESIGN CHOICE). -/
def Chip.stwEntry (c : Chip) (typ : Nat) : Option Started := if c.alive then c.nextRun stewardFn typ else none

/-- COMMIT_OPEN (R104, R107, R118, R125, R427): takes the lowest free slot, or waits. Log 67 (DEDUCED). -/
def commitOpen (c : Chip) : Chip :=
  match c.stwEntry 0x40 with
  | none => c
  | some e =>
    let barrier := bitN (byteAt e.bytes 12) 0
    if c.commit.phase == .undoing then c
    else if c.commit.phase != .closed then (c.markRun stewardFn e.seq).endWith stewardFn e St.commitAlreadyOpen
    else if barrier && c.sp.barrier.group.isNone then (c.markRun stewardFn e.seq).endWith stewardFn e St.barrierNotSet
    else
      match (List.range 4).find? fun s => (c.slot s).st == .free with
      | none => c
      | some s =>
        let ep := (c.curEpoch + 1) % 65536
        let c := c.setSlot s ⟨ep, .open_, false⟩
        let c := c.setRl fun r => { r with epcPkts := tdrop (fun k => k % 4 == s) r.epcPkts }
        let c := c.setCommit fun m => { Commit.none with phase := .opened, slot := s, tag := leAt e.bytes 8 4, barrier := barrier, tsw := m.tsw }
        let c := if barrier then c.setBarrier fun b => { b with using_ := b.group, group := none, ready := none, stalled := false } else c
        (c.markRun stewardFn e.seq).endWith stewardFn e St.ok 0 0 (toLE 2 ep)

/-! ### Checks of a change (R110, R216) -/

/-- A change entry's fields. -/
def Chg.obj (b : Bytes) : Nat := byteAt b 8
def Chg.op (b : Bytes) : Nat := byteAt b 9
def Chg.loc (b : Bytes) : Nat := leAt b 12 4
def Chg.rec_ (b : Bytes) : Nat := leAt b 16 4
def Chg.act (b : Bytes) : Nat := leAt b 16 32
def Chg.slots (b : Bytes) : Nat := bitsN (byteAt b 0) 0 6

/-- Slots that a change needs (R108, R215). -/
def Chg.needs (b : Bytes) : Nat :=
  let ins := Chg.op b == 1
  match Chg.obj b with
  | 1 => if ins then 7 else 2
  | 2 => 3
  | 3 => 3
  | 7 => if ins then 6 else 2
  | _ => 2

/-- Lookup key of an LPM change: VRF, prefix length, address. -/
def Chg.lpm (b : Bytes) : Nat × Nat × Nat := (leAt b 48 2, byteAt b 50, beAt b 52 (if Chg.obj b = 3 then 16 else 4))

/-- Lookup key of a MAC change. -/
def Chg.mac (b : Bytes) : Nat := leAt b 54 2 * 2 ^ 48 + beAt b 48 6

/-- The change writes an action record: inline in a ternary entry, or into the shared table. -/
def Chg.record (b : Bytes) : Option Nat := if Chg.op b = 1 ∧ (Chg.obj b = 1 ∨ Chg.obj b = 8) then some (Chg.act b) else none

/-- The change names a record of the shared table. -/
def Chg.names (b : Bytes) : Bool := Chg.op b == 1 && [2, 3, 4, 5].contains (Chg.obj b)

/-- INDEX_RANGE: a location or number beyond its limit (R2, R5, R91, R97, R210, R216, R267). -/
def Chip.chgRange (c : Chip) (b : Bytes) : Bool :=
  let loc := Chg.loc b
  (match Chg.obj b with
   | 1 => decide (131072 ≤ loc)
   | 2 => decide (4096 ≤ (Chg.lpm b).1) || decide (32 < (Chg.lpm b).2.1)
   | 3 => decide (4096 ≤ (Chg.lpm b).1) || decide (128 < (Chg.lpm b).2.1)
   | 4 => decide (4096 ≤ leAt b 54 2)
   | 5 => decide (65536 ≤ loc)
   | 7 => decide (16384 ≤ loc)
   | 8 => decide (131072 ≤ loc)
   | 9 => decide (131072 * c.dies ≤ loc)
   | 10 => decide (131072 * c.dies ≤ loc)
   | 11 => decide (512 * c.dies ≤ loc)
   | _ => false) ||
  (Chg.names b && decide (131072 ≤ Chg.rec_ b)) ||
  (match Chg.record b with
   | none => false
   | some a =>
     let d := Act.dest a
     (match Act.disp a with
      | 1 => decide (64 * c.dies ≤ d)
      | 2 => decide (256 ≤ d)
      | 3 => decide (4096 ≤ d)
      | 4 => decide (512 * c.dies ≤ d)
      | _ => false) || (Act.cipherSet a && decide (65536 * c.dies ≤ Act.cipher a)) ||
       (Act.policeSet a && decide (131072 * c.dies ≤ Act.policer a)))

/-- Reserved codes or values in a template (R103). -/
def templateBad (t : Bytes) : Bool :=
  match byteAt t 0 with
  | 1 =>
    let n := byteAt t 1
    decide (n = 0) || decide (7 < n) || (List.range n).any fun e =>
      let o := 16 + 16 * e
      decide (8 < byteAt t o) || decide (511 < leAt t (o + 1) 2) || decide (byteAt t (o + 3) = 0) || decide (4 < byteAt t (o + 3)) ||
        decide (byteAt t (o + 4) = 0) || decide (10 < byteAt t (o + 4))
  | 2 => decide (byteAt t 1 < 14) || decide (112 < byteAt t 1)
  | _ => true

/-- BAD_ACTION: reserved codes or values of the object, the operation, an action record, a template or a policer. Reserved bits
of an action record or a template are no field, and are ignored (R14); a policer's reserved action code is refused (R213).
Log 78 (DESIGN CHOICE). -/
def chgBad (b : Bytes) : Bool :=
  let obj := Chg.obj b
  let op := Chg.op b
  !([1, 2, 3, 4, 5, 7, 8, 9, 10, 11].contains obj) || !(op == 1 || (op == 2 && decide (obj ≤ 8))) ||
  (match Chg.record b with
   | none => false
   | some a => decide (7 ≤ Act.disp a) || (Act.disp a == 5 && decide (Act.dropReason a < 0xC0)) ||
       (Act.tunnelSet a && (Act.tunnelOp a == 0 || Act.tunnelOp a == 3))) ||
  (obj == 7 && op == 1 && templateBad (slice b 48 128)) ||
  (obj == 10 && (byteAt b 32 % 4 == 3 || byteAt b 32 / 4 % 4 == 3))

/-- QOS_INVALID (R216). -/
def qosBad (b : Bytes) : Bool :=
  let shp := fun (o : Nat) => let v := leAt b o 3; decide (131071 < v) && decide (v ≠ 0xFFFFFF)
  match Chg.obj b with
  | 9 =>
    let r := leAt b 16 4 % 2 ^ 21
    decide (1600000 < r) || (decide (leAt b 20 4 % 2 ^ 24 = 0) && decide (0 < r)) || decide (63 < byteAt b 24)
  | 10 =>
    let bad := fun (v hi : Nat) => decide (v = 0) || decide (hi < v)
    bad (leAt b 16 4) 1600000 || bad (leAt b 20 4) 1600000 || decide (leAt b 20 4 < leAt b 16 4) ||
      bad (leAt b 24 4) 16777215 || bad (leAt b 28 4) 16777215
  | 11 =>
    let share := leAt b 16 4 % 2 ^ 26
    decide (share < leAt b 20 4 % 2 ^ 19) || decide (33554432 + 363520 < share) || shp 36 || (List.range 8).any fun k => shp (40 + 3 * k)
  | _ => false

/-- CLASS_ACTION_CONFLICT (R50): class through with a group that the Flume does not carry. -/
def Chip.chgConflict (c : Chip) (b : Bytes) : Bool :=
  match Chg.record b with
  | none => false
  | some a => Act.classSet a && Act.classThrough a &&
      (Act.tunnelSet a || Act.disp a == 4 || Act.disp a == 6 || (Act.cipherSet a && !c.isMacsec a))

/-- A record's templates are visible under a slot and of their kinds. -/
def Chip.templatesOk (c : Chip) (a slot : Nat) : Bool :=
  let kind := fun (i k : Nat) => match tget none c.rl.templ i with | some v => visible c.rl.slots v.m slot && byteAt v.bytes 0 == k | none => false
  (!Act.rewriteSet a || kind (Act.rewriteIndex a) 1) && (!(Act.tunnelSet a && Act.tunnelOp a == 1) || kind (Act.tunnelIndex a) 2)

/-- A record names template `i`. -/
def namesTempl (a i : Nat) : Bool :=
  (Act.rewriteSet a && Act.rewriteIndex a == i) || (Act.tunnelSet a && Act.tunnelOp a == 1 && Act.tunnelIndex a == i)

/-- A visible entry still names the template or action record that a change deletes. -/
def Chip.stillNamed (c : Chip) (obj i slot : Nat) : Bool :=
  let vis := fun (m : Marks) => visible c.rl.slots m slot
  if obj = 7 then
    (c.rl.tern.any fun e => match e.2 with | some t => vis t.m && namesTempl t.act i | none => false) ||
      (c.rl.acts.any fun e => match e.2 with | some v => vis v.m && namesTempl v.val i | none => false)
  else
    (c.rl.direct.any fun e => e.2.any fun v => vis v.m && v.val == i) || (c.rl.lpm.any fun e => vis e.m && e.rec_ == i) ||
      (c.macTab 0).any fun e => match e.2 with | some m => m.static && vis m.m && m.rec_ == i | none => false

/-- An action record of the shared table is visible under a slot. -/
def Chip.actVisible (c : Chip) (i slot : Nat) : Bool := match tget none c.rl.acts i with | some v => visible c.rl.slots v.m slot | none => false

/-- BAD_REFERENCE. -/
def Chip.chgRef (c : Chip) (b : Bytes) (slot : Nat) : Bool :=
  (match Chg.record b with | some a => !c.templatesOk a slot | none => false) ||
    (Chg.names b && !c.actVisible (Chg.rec_ b) slot) ||
    (Chg.op b == 2 && (Chg.obj b == 7 || Chg.obj b == 8) && c.stillNamed (Chg.obj b) (Chg.loc b) slot)

/-- The static versions of a MAC key that are held. -/
def Chip.macVersions (c : Chip) (key : Nat) : List (Nat × MacE) :=
  exactPlaces macBuckets (c.macTab 0) (macKeyBytes key) fun e => e.key == key && e.static

/-- INDEX_BUSY of an insert. -/
def Chip.chgBusy (c : Chip) (b : Bytes) (slot : Nat) : Bool :=
  let loc := Chg.loc b
  Chg.op b == 1 &&
  match Chg.obj b with
  | 1 => (tget none c.rl.tern loc).isSome
  | 4 => decide (2 ≤ (c.macVersions (Chg.mac b)).length)
  | 5 => let l := tget [] c.rl.direct loc; decide (2 ≤ l.length) || l.any fun v => visible c.rl.slots v.m slot
  | 7 => (tget none c.rl.templ loc).isSome
  | 8 => (tget none c.rl.acts loc).isSome
  | _ => false

/-- The LPM prefix of a change visible under a slot. -/
def Chip.lpmAt (c : Chip) (b : Bytes) (slot : Nat) : Option LpmE :=
  let (vrf, len, addr) := Chg.lpm b
  let v6 := Chg.obj b == 3
  let w := if v6 then 128 else 32
  c.rl.lpm.find? fun e => e.v6 == v6 && e.vrf == vrf && e.len == len && e.addr / 2 ^ (w - len) == addr / 2 ^ (w - len) &&
    visible c.rl.slots e.m slot

/-- The object of a change is visible in the open epoch. -/
def Chip.chgVisible (c : Chip) (b : Bytes) (slot : Nat) : Bool :=
  let loc := Chg.loc b
  let vis := fun (m : Marks) => visible c.rl.slots m slot
  match Chg.obj b with
  | 1 => (match tget none c.rl.tern loc with | some t => vis t.m | none => false)
  | 4 => (c.staticMac 0 (Chg.mac b) slot).isSome
  | 5 => (tget [] c.rl.direct loc).any fun v => vis v.m
  | 7 => (match tget none c.rl.templ loc with | some v => vis v.m | none => false)
  | 8 => (match tget none c.rl.acts loc with | some v => vis v.m | none => false)
  | _ => (c.lpmAt b slot).isSome

/-- TABLE_FULL of an insert (R90, R164). -/
def Chip.chgFull (c : Chip) (b : Bytes) : Bool :=
  Chg.op b == 1 &&
  match Chg.obj b with
  | 2 => decide (4194304 ≤ (c.rl.lpm.filter fun e => !e.v6).length)
  | 3 => decide (1048576 ≤ (c.rl.lpm.filter fun e => e.v6).length)
  | 4 => c.allDies.any fun d => decide (8388608 ≤ (c.macTab d).length)
  | _ => false

/-- The first check of R110 that a change fails, but INSERT_FAILED. -/
def Chip.chgFails (c : Chip) (b : Bytes) : Option Nat :=
  let s := c.commit.slot
  let obj := Chg.obj b
  if 1048576 ≤ c.commit.count then some St.commitTooLarge
  else if Chg.slots b < Chg.needs b then some St.entrySize
  else if c.chgRange b then some St.indexRange
  else if obj = 11 ∧ (c.inst (Chg.loc b)).st = .free then some St.notFound
  else if chgBad b then some St.badAction
  else if qosBad b then some St.qosInvalid
  else if c.chgConflict b then some St.classActionConflict
  else if c.chgRef b s then some St.badReference
  else if c.chgBusy b s then some St.indexBusy
  else if (obj = 2 ∨ obj = 3 ∨ obj = 4) ∧ Chg.op b = 1 ∧ c.chgVisible b s then some St.keyExists
  else if Chg.op b = 2 ∧ !c.chgVisible b s then some St.notFound
  else if c.chgFull b then some St.tableFull
  else none

/-! ### Staging a change (R109, R215) -/

/-- A delete under slot `s`: an entry born in it is freed at once, another gets its death mark. -/
def Marks.kill (m : Marks) (s : Nat) : Option Marks := if m.birth = some s then none else some { m with death := some s }

/-- The marks of an insert. -/
def bornIn (s : Nat) : Marks := ⟨some s, none⟩

/-- The static entry that a MAC insert stages. -/
def Chg.macEntry (b : Bytes) (s : Nat) : MacE := ⟨Chg.mac b, true, false, bornIn s, Chg.rec_ b, false, 0, 0, 0⟩

/-- Counts a MAC insert that failed on each die whose replica refused it (TBL_EVT_CNT_2). -/
def Chip.countMacFail (c : Chip) (b : Bytes) (s : Nat) : Chip :=
  c.allDies.foldl (fun c' d => if (c.macInsert d (Chg.macEntry b s)).isNone then c'.count d (R.tblEvtCnt 2) else c') c

/-- The reserved bits of an action record (R96). -/
def Act.reserved : Nat :=
  (2 ^ 96 - 2 ^ 88) + (2 ^ 112 - 2 ^ 110) + (2 ^ 128 - 2 ^ 126) + (2 ^ 160 - 2 ^ 148) + (2 ^ 192 - 2 ^ 180) + (2 ^ 256 - 2 ^ 212)

/-- An action record as it is held: its reserved bits read zero (R14, R96). -/
def Act.store (a : Nat) : Nat := a % 2 ^ 256 ^^^ (a % 2 ^ 256 &&& Act.reserved)

/-- A commit writes an object whose codeword was uncorrectable (R505): that is over, on every die. -/
def Chip.cured (c : Chip) (q : BadObj → Bool) : Chip := c.setTb fun t => { t with badObjs := t.badObjs.filter fun o => !q o }

/-- Stages an insert; none for INSERT_FAILED. An LPM address is stored with the bits beyond its length zero (R185). -/
def Chip.chgInsert (c : Chip) (b : Bytes) (s : Nat) : Option Chip :=
  let loc := Chg.loc b
  match Chg.obj b with
  | 1 =>
    let c := c.setRl fun r => { r with tern := tput none r.tern loc (some ⟨bornIn s, slice b 48 80, slice b 128 80, Act.store (Chg.act b)⟩) }
    some (c.setTb fun t => { t with hits := tdrop (fun k => k % 2 ^ 17 == loc) t.hits })
  | 4 => c.allDies.foldl (fun (o : Option Chip) d => o.bind fun c => c.macInsert d (Chg.macEntry b s)) (some c)
  | 5 => some (c.setRl fun r => { r with direct := tmod [] r.direct loc fun l => l ++ [⟨bornIn s, Chg.rec_ b⟩] })
  | 7 =>
    let c := c.setRl fun r => { r with templ := tput none r.templ loc (some ⟨bornIn s, slice b 48 128⟩) }
    some (c.cured fun o => match o with | .template _ i => i == loc | _ => false)
  | 8 =>
    let c := c.setRl fun r => { r with acts := tput none r.acts loc (some ⟨bornIn s, Act.store (Chg.act b)⟩) }
    some (c.cured fun o => match o with | .action _ i => i == loc | _ => false)
  | _ =>
    let v6 := Chg.obj b == 3
    let (vrf, len, addr) := Chg.lpm b
    let w := 2 ^ ((if v6 then 128 else 32) - len)
    let c := c.setRl fun r => { r with lpm := r.lpm ++ [⟨bornIn s, v6, vrf, len, addr / w * w, Chg.rec_ b⟩] }
    some (c.cured fun o => match o with | .prefix_ _ v k l a => v == v6 && k == vrf && l == len && a == addr / w * w | _ => false)

/-- Stages a delete of the visible object. -/
def Chip.chgDelete (c : Chip) (b : Bytes) (s : Nat) : Chip :=
  let loc := Chg.loc b
  match Chg.obj b with
  | 1 => c.setRl fun r => { r with tern := tmod none r.tern loc fun o => o.bind fun t => (t.m.kill s).map fun m => { t with m := m } }
  | 4 => c.allDies.foldl (fun c d =>
      match c.staticMac d (Chg.mac b) s with
      | none => c
      | some (k, e) => c.setMacTab d (tput none (c.macTab d) k ((e.m.kill s).map fun m => { e with m := m }))) c
  | 5 =>
    let mark := fun (v : VCell) => if visible c.rl.slots v.m s = true then (v.m.kill s).map (fun m => { v with m := m }) else some v
    c.setRl fun r => { r with direct := tmod [] r.direct loc fun l => l.filterMap mark }
  | 7 => c.setRl fun r => { r with templ := tmod none r.templ loc fun o => o.bind fun t => (t.m.kill s).map fun m => { t with m := m } }
  | 8 => c.setRl fun r => { r with acts := tmod none r.acts loc fun o => o.bind fun t => (t.m.kill s).map fun m => { t with m := m } }
  | _ =>
    match c.lpmAt b s with
    | none => c
    | some x =>
      let mark := fun (e : LpmE) => if e = x then (e.m.kill s).map (fun m => { e with m := m }) else some e
      c.setRl fun r => { r with lpm := r.lpm.filterMap mark }

/-- A change of the QoS objects (R215). -/
def Chg.qos (b : Bytes) : Option QosChange :=
  let n := Chg.loc b
  match Chg.obj b with
  | 9 => some (.shaper n (leAt b 16 4 % 2 ^ 21) (leAt b 20 4 % 2 ^ 24) (byteAt b 24))
  | 10 => some (.policer n (leAt b 16 4) (leAt b 20 4) (leAt b 24 4) (leAt b 28 4) (byteAt b 32) (byteAt b 33))
  | 11 => some (.inst n ⟨leAt b 16 4 % 2 ^ 26, leAt b 20 4 % 2 ^ 19, byteAt b 24, byteAt b 25, (List.range 8).map fun k => byteAt b (26 + k),
      leAt b 36 3, (List.range 8).map fun k => leAt b (40 + 3 * k) 3⟩)
  | _ => none

/-- Stages a change; none for INSERT_FAILED. -/
def Chip.stage (c : Chip) (b : Bytes) : Option Chip :=
  match Chg.qos b with
  | some q => some (c.setQs fun s => { s with qosStaged := s.qosStaged ++ [q] })
  | none => if Chg.op b = 1 then c.chgInsert b c.commit.slot else some (c.chgDelete b c.commit.slot)

/-- RULE_CHANGE (R109, R110): checked and staged; the first failure marks the commit failed, and later changes are consumed
without effect. No record, unless no commit is open. -/
def ruleChange (c : Chip) : Chip :=
  match c.stwEntry 0x43 with
  | none => c
  | some e =>
    let c := c.markRun stewardFn e.seq
    if c.commit.phase != .opened then c.endEntry stewardFn e.seq [entryRec e.bytes e.index St.noCommitOpen (cookie := 0)]
    else
      let n := c.commit.count
      let fail := fun (c : Chip) (code : Nat) => c.setCommit fun m => { m with fail := some (code, n) }
      let c' := if c.commit.fail.isSome then c
        else
          match c.chgFails e.bytes with
          | some code => fail c code
          | none =>
            match c.stage e.bytes with
            | some c' => c'
            | none => fail (c.countMacFail e.bytes c.commit.slot) St.insertFailed
      (c'.setCommit fun m => { m with count := n + 1 }).endEntry stewardFn e.seq []

/-! ### Closing (R111, R113) -/

/-- Rejects the commit: its undo starts; `first` unless a failure is already held. -/
def Chip.rejectCommit (c : Chip) (first : Nat × Nat) : Chip :=
  c.setCommit fun m => { m with phase := .undoing, fail := some (m.fail.getD first), ends := some St.commitRejected }

/-- A populated die is known to be unreachable from the steward's die (R110). -/
def Chip.someUnreachable (c : Chip) : Bool := c.pwr.mainDown || c.allDies.any fun d => !c.reach c.stwDie d

/-- COMMIT_CLOSE (R110, R111, R113, R429): the checks at the close, then the wait for every die. -/
def commitClose (c : Chip) : Chip :=
  match c.stwEntry 0x41 with
  | none => c
  | some e =>
    let c := c.markRun stewardFn e.seq
    let m := c.commit
    if m.phase != .opened then c.endEntry stewardFn e.seq [entryRec e.bytes e.index St.noCommitOpen (cookie := 0)]
    else if m.fail.isSome then c.rejectCommit (0, 0)
    else if leAt e.bytes 8 4 ≠ m.count then c.rejectCommit (St.countMismatch, 0xFFFFFFFF)
    else if c.someUnreachable then c.rejectCommit (St.dieUnreachable, 0xFFFFFFFF)
    else
      match c.sp.barrier.early with
      | some r => if m.barrier then c.rejectCommit (r, 0xFFFFFFFF) else c.setCommit fun m => { m with phase := .closing }
      | none => c.setCommit fun m => { m with phase := .closing }

/-- COMMIT_ABORT (R111). -/
def commitAbort (c : Chip) : Chip :=
  match c.stwEntry 0x42 with
  | none => c
  | some e =>
    let c := c.markRun stewardFn e.seq
    if c.commit.phase != .opened then c.endEntry stewardFn e.seq [entryRec e.bytes e.index St.noCommitOpen (cookie := 0)]
    else c.setCommit fun m => { m with phase := .undoing, ends := some St.aborted }

/-- A change goes to every other populated die, each over its Culvert port and in the share that R25 gives control messages; none
while a port has no turn for it or is down. -/
def Chip.tellDies (c : Chip) : Option Chip :=
  let s := c.stwDie
  let others := c.allDies.filter fun d => d != s
  if c.someUnreachable || others.any fun d => !c.ctlPasses s (c.ctlPort s d) then none
  else some (others.foldl (fun c d => c.passCtl s (c.ctlPort s d)) c)

/-- CHANGES_CONFIRMED (R113, R428, R25): every die has confirmed; T_sw is 1 µs later, or a barrier commit waits for its wave.
Log 55 (DESIGN CHOICE). -/
def changesConfirmed (c : Chip) : Chip :=
  match (if !c.alive || c.commit.phase != .closing then none else c.tellDies) with
  | none => c
  | some c =>
  if c.commit.barrier then (c.setCommit fun m => { m with phase := .barrier }).setBarrier fun b => { b with ready := some c.steady }
  else c.setCommit fun m => { m with phase := .switching, tsw := c.now + 1000 * 65536 }

/-- DIE_CONFIRM_TIMEOUT (R110): 10 ms have passed since COMMIT_CLOSE. -/
def dieConfirmTimeout (c : Chip) : Chip :=
  if c.alive && c.commit.phase == .closing then c.rejectCommit (St.dieUnreachable, 0xFFFFFFFF) else c

/-- An entry's marks after the undo of slot `s`: freed if born in it, its death mark cleared if it names it (R111). -/
def Marks.undo (m : Marks) (s : Nat) : Option Marks :=
  if m.birth = some s then none else some (if m.death = some s then { m with death := none } else m)

/-- An entry's marks after the sweep of a retirement, for the slot of E + 1 (R117). -/
def Marks.sweep (m : Marks) (s : Nat) : Option Marks :=
  if m.death = some s then none else some (if m.birth = some s then { m with birth := none } else m)

/-- A table of versioned entries after a change of marks; an entry without marks goes. -/
def remarkTab {α : Type} (f : Marks → Option Marks) (get : α → Marks) (put : α → Marks → α) (t : Tab (Option α)) : Tab (Option α) :=
  (t.map fun e => (e.1, e.2.bind fun x => (f (get x)).map (put x))).filter fun e => e.2.isSome

/-- Applies a change of marks to every versioned entry; an entry without marks goes. -/
def Chip.remark (c : Chip) (f : Marks → Option Marks) : Chip :=
  let tern := remarkTab f TernE.m (fun x m => { x with m := m }) c.rl.tern
  let acts := remarkTab f VCell.m (fun x m => { x with m := m }) c.rl.acts
  let templ := remarkTab f TemplE.m (fun x m => { x with m := m }) c.rl.templ
  let direct := (c.rl.direct.map fun e => (e.1, e.2.filterMap fun v => (f v.m).map fun m => { v with m := m })).filter fun e => !e.2.isEmpty
  let lpm := c.rl.lpm.filterMap fun e => (f e.m).map fun m => { e with m := m }
  let c := c.setRl fun r => { r with tern := tern, acts := acts, templ := templ, direct := direct, lpm := lpm }
  let mac := fun (x : MacE) => if x.static then f x.m else some x.m
  c.allDies.foldl (fun c d => c.setMacTab d ((c.macTab d).map (fun e => (e.1, e.2.bind fun x => (mac x).map fun m => { x with m := m })) |>.filter
    fun e => e.2.isSome)) c

/-- The commit is over: what a barrier commit held of its barrier goes with it. -/
def Chip.closeCommit (c : Chip) : Chip :=
  let c := if c.commit.barrier then c.setBarrier fun b => { b with using_ := none, early := none, ready := none, stalled := false } else c
  c.setCommit fun k => { Commit.none with tsw := k.tsw }

/-- COMMIT_UNDO_DONE (R111): the undo is complete; the slot is free and the waiting entry completes. -/
def commitUndoDone (c : Chip) : Chip :=
  if !c.alive || c.commit.phase != .undoing then c
  else
    let m := c.commit
    let c := c.remark fun k => k.undo m.slot
    let c := ((c.setSlot m.slot ⟨0, .free, false⟩).setQs fun q => { q with qosStaged := [] }).closeCommit
    match m.ends with
    | none => c
    | some s =>
      if s = St.commitRejected then
        let (code, ord) := m.fail.getD (0, 0)
        c.endStw 0x41 s m.tag (toLE 1 code ++ [0, 0, 0] ++ toLE 4 ord)
      else c.endStw 0x42 s m.tag []

/-- EPOCH_SWITCH (R113, R214, R215): T_sw has come. Log 12 (DEDUCED). -/
def epochSwitch (c : Chip) : Chip :=
  if !c.alive || c.commit.phase != .switching || !c.due c.commit.tsw then c
  else
    let m := c.commit
    let ep := (c.slot m.slot).epoch
    let old := c.curSlot
    let c := (c.setSlot old { c.slot old with st := .draining }).setSlot m.slot ⟨ep, .current, false⟩
    let staged := c.qs.qosStaged
    let c := (staged.foldl (fun c q => c.switchQos q) (c.setQs fun q => { q with qosStaged := [] })).closeCommit
    c.endStw 0x41 St.ok m.tag (toLE 2 ep ++ [0, 0] ++ toLE 8 (m.tsw / 65536))

/-- EPOCH_RETIRE (R116): the oldest draining epoch with no holder on any die retires. -/
def epochRetire (c : Chip) : Chip :=
  match (c.slotsIn .draining).head? with
  | none => c
  | some s =>
    if !c.alive || c.allDies.any (fun d => c.inflight d s != 0) then c
    else
      let x := c.slot s
      let n := (c.allDies.map fun d => tget 0 c.rl.epcPkts (d * 4 + s)).sum
      (c.setSlot s { x with st := .sweeping }).placeRec stewardFn
        (mkRec 0x05 St.ok 0 0 0 0 0 0 (toLE 2 x.epoch ++ [0, 0] ++ toLE 8 n))

/-- RETIREMENT_SWEEP_DONE (R117): the sweep of the oldest retired epoch ends; its slot is free. -/
def retirementSweepDone (c : Chip) : Chip :=
  match (c.slotsIn .sweeping).head? with
  | none => c
  | some s =>
    if !c.alive then c
    else
      let next := ((c.slot s).epoch + 1) % 65536
      let c := match (List.range 4).find? fun t => (c.slot t).st != .free && (c.slot t).epoch == next with
        | some t => c.remark fun m => m.sweep t
        | none => c
      c.setSlot s ⟨(c.slot s).epoch, .free, false⟩

/-- EPOCH_STALL (R120): a slot has been draining for longer than the stall limit; reported once.
Logs 18 (DESIGN CHOICE), 72 (DESIGN CHOICE). -/
def epochStall (slot elapsedMs : Nat) (c : Chip) : Chip :=
  let x := c.slot slot
  let lim := c.fld 0 R.epcStallLimit 0 16
  if !c.alive || x.st != .draining || x.stalled || lim == 0 || elapsedMs ≤ lim then c
  else
    let mask := maskOf (c.allDies.filter fun d => c.inflight d slot != 0)
    (c.setSlot slot { x with stalled := true }).raise Cls.epochStall 0 { block := 3, unit := mask, cause := slot, value := x.epoch }

/-! ### Groups (R144, R145) -/

/-- Members of a GROUP_UPDATE. -/
def groupMembers (b : Bytes) : List Nat :=
  (List.range (byteAt b 12)).map fun m => if byteAt b 8 = 1 then leAt b (16 + 4 * m) 2 else leAt b (16 + 4 * m) 4

/-- The first check of R144 that a GROUP_UPDATE fails: R144 puts the entry's size first; a reserved kind then comes before
a number out of range, and a lane out of range before one that is no port. Log 75 (DESIGN CHOICE). -/
def Chip.groupFails (c : Chip) (b : Bytes) : Option Nat :=
  let n := byteAt b 12
  let kind := byteAt b 8
  let l := groupMembers b
  if Chg.slots b < ceilDiv (16 + 4 * n) 32 then some St.entrySize
  else if kind ≠ 1 ∧ kind ≠ 2 then some St.badAction
  else if (if kind = 1 then 256 else 4096) ≤ leAt b 10 2 ∨ 64 < n ∨ (l.any fun m => decide ((if kind = 1 then 64 * c.dies else 131072) ≤ m)) then
    some St.indexRange
  else if kind = 1 ∧ (l.any fun m => !c.isPort m) then some St.badMember
  else none

/-- Key of the group that a GROUP_UPDATE names. -/
def groupKey (b : Bytes) : Nat := if byteAt b 8 = 1 then leAt b 10 2 else 4096 + leAt b 10 2

/-- GROUP_UPDATE (R144): checked; the list then goes to every die. Log 57 (DESIGN CHOICE). -/
def groupUpdate (c : Chip) : Chip :=
  match c.stwEntry 0x44 with
  | none => c
  | some e =>
    let c := c.markRun stewardFn e.seq
    match c.groupFails e.bytes with
    | some code => c.endWith stewardFn e code
    | none => c.setRl fun r => { r with groupNew := some (groupKey e.bytes, groupMembers e.bytes) }

/-- GROUP_UPDATE_CONFIRMED (R145, R25): every die has the new list; none has it while a die is out of reach (R27).
Log 57 (DESIGN CHOICE). -/
def groupUpdateConfirmed (c : Chip) : Chip :=
  match c.rl.groupNew, (if c.alive then c.tellDies else none) with
  | some (k, l), some c => (c.setRl fun r => { r with groups := tput [] r.groups k l, groupNew := none }).endStw 0x44 St.ok 0 []
  | _, _ => c

end Sys2Proof.Machine
end

