-- ==== Sys2Proof/Machine/Instances.lean ====
section
/-! DEFINITION. Instances (spec/12): creation, the instance reset, translation tables, dirty tracking, freezing, and the
migration blob. -/

namespace Sys2Proof.Machine

/-! ### Instance reset (R359, R360) -/

/-- Started entries whose type gives a record. -/
def Started.given (e : Started) : Nat :=
  (match e.recs with
   | some l => l.length
   | none => if byteAt e.bytes 1 = 0x03 then 0 else 1) + (e.stamps.filter Option.isSome).length

/-- Counts `n` records of an instance that are not written (R360 step 3). -/
def Chip.dropRecords (c : Chip) (i n : Nat) : Chip :=
  let x := c.inst i
  (c.count (i / 512) (R.insEvtCnt 1) n).setInst i { x with unwritten := x.unwritten + n }

/-- The drain of a reset: job contexts, transfers, entries in progress, the stash. -/
def Chip.drainInst (c : Chip) (i : Nat) : Chip :=
  let ctxs := c.dre.ctxs.filter fun e => match e.2 with | some k => k.job && k.fn == i && k.st != .draining | none => false
  let c := ctxs.foldl (fun c e => c.ctxFault (e.1 / 8192) (e.1 % 8192 / 128) (e.1 % 128) Cause.killed) c
  let c := (c.endTransfers i St.instanceReset).2
  let h := c.chan i
  let c := c.dropRecords i ((h.started.map Started.given).sum + h.stash.length + h.waiting.length)
  c.setChan i { (c.chan i).discard [] with started := [], stash := [], full := false, waiting := [] }

/-- Packets of an instance that wait to be delivered. -/
def Pkt.queuedFor (p : Pkt) (i : Nat) : Bool :=
  p.dstInst && p.dst == i && (p.stage == .queued || p.stage == .window || p.stage == .crossDest (i / 512))

/-- A SAVE in progress of an instance ends with SAVE_ABORTED (R359): nothing more of its blob is written. -/
def Chip.abortSave (c : Chip) (i : Nat) : Chip :=
  let m := c.dma c.stwDie
  let cut := fun (x : Xfer) =>
    match x.kind with
    | .output j _ => if j = i ∧ byteAt x.ent 1 = 0x5A then { x.stop St.saveAborted with outs := [] } else x
    | _ => x
  c.setDma c.stwDie { m with xfers := m.xfers.map fun e => (e.1, cut e.2) }

/-- Starts an instance reset, or joins the one under way (R359, R360 steps 1 to 3). Log 69 (DESIGN CHOICE). -/
def Chip.startReset (c : Chip) (i : Nat) (cause : ResetCause) : Chip :=
  let x := c.inst i
  if x.st == .free || x.st == .resetting then c
  else
    let c := (if x.freezing then c.endStw 0x58 St.instanceReset 0 [] else c).abortSave i
    let c := (c.setInst i { x with st := .resetting, cause := cause, unwritten := 0, freezing := false }).count (i / 512) (R.insEvtCnt 0)
    let c := (c.dp.pkts.filter fun p => p.queuedFor i).foldl (fun c p => c.dropPkt p Dr.instanceReset true) c
    c.drainInst i

/-- Number of a reset cause in its record (R405). -/
def causeCode : ResetCause → Nat
  | .flr => 0x01
  | .vfGone => 0x02
  | .linkReset => 0x03
  | .entry => 0x04
  | .destroy => 0x05

/-- The channel of an instance after a reset (R385, R342). Log 68 (DEDUCED). -/
def Chan.afterReset (h : Chan) : Chan :=
  { Chan.none with
    dsHalt := 8, cqHalt := 8, dsBase := h.dsBase, cqBase := h.cqBase, shadow := h.shadow, dsK := h.dsK, cqK := h.cqK, ver := h.ver, verNew := h.verNew
    serial := h.serial, shadowDirty := true, modCfg := h.modCfg, modTime := h.modTime, armed := h.armed }

/-- Empties the key slots of an instance's range (R346, R360). -/
def Chip.emptyKeys (c : Chip) (i : Nat) : Chip :=
  let lo := i / 512 * 65536 + (c.inst i).keyBase
  let hi := lo + (c.inst i).keyCount
  c.setCp fun s => { s with keySlots := tdrop (fun k => decide (lo ≤ k) && decide (k < hi)) s.keySlots }

/-- What a reset clears after the drain (R360 step 4). Log 70 (DESIGN CHOICE). -/
def Chip.clearInst (c : Chip) (i : Nat) : Chip :=
  let x := c.inst i
  let d := i / 512
  let h := c.chan i
  let c := if h.dsHalt = 0 ∨ h.cqHalt = 0 then c.count d (R.chnHaltCnt Halt.reset) else c
  let c := c.setChan i h.afterReset
  let c := c.emptyKeys i
  let m := c.dma d
  let c := c.setDma d { m with xlate := m.xlate.filter fun e => e.inst != i }
  let k := c.fnPci i
  let c := if x.orphaned then c else c.setFn k { c.fn k with pendVec := [] }
  c.setInst i { x with leaves := [], fresh := true }

/-- The learn limit of an instance's number stands at reset again, and its drop and fault counters are clear (R342). -/
def Chip.clearNumber (c : Chip) (i : Nat) : Chip :=
  let d := i / 512
  let lim := R.tblLearnInst (i % 512)
  let c := (c.wr d lim (regReset d lim)).wr d (R.insXltFault (i % 512)) 0
  c.setTb fun t => { t with drops := tdrop (fun k => k % 8192 == 4096 + i) t.drops }

/-- What a destroy frees once its reset has ended (R342, R348). -/
def Chip.freeInst (c : Chip) (i : Nat) : Chip :=
  let c := ((c.macFlushAll (fun m => m.locInst && m.loc == i) true).2).clearNumber i
  let c := c.setQs fun s => { s with qos := tdrop (fun k => k % 4096 == i) s.qos }
  (c.setChan i { Chan.none with serial := (c.chan i).serial }).setInst i Inst.none

/-- INSTANCE_RESET_DONE (R360 steps 4 and 5): the instance is Active again and the steward is told; a destroy that waits
goes on. -/
def instanceResetDone (i : Nat) (c : Chip) : Chip :=
  let x := c.inst i
  if !c.alive || x.st != .resetting then c
  else
    let c := c.clearInst i
    let c := c.setInst i { c.inst i with st := .active, destroying := false }
    let r := mkRec 0x06 0 0 0 0 0 0 0 (toLE 2 i ++ toLE 1 (causeCode x.cause) ++ toLE 1 0 ++ toLE 4 x.unwritten)
    let c := c.placeRec stewardFn r
    if x.destroying then (c.freeInst i).endStw 0x51 St.ok 0 [] else c

/-- The VF of an instance disappears, or is reset (R350, R335). -/
def Chip.resetVf (c : Chip) (i : Nat) (cause : ResetCause) (gone : Bool) : Chip :=
  let c := c.startReset i cause
  if gone && (c.inst i).st != .free then c.setInst i { c.inst i with orphaned := true } else c

/-- The instance bound to a VF. -/
def Chip.instOfVf (c : Chip) (port link vf : Nat) : Option Nat :=
  (c.insts.find? fun e => e.2.st != .free && !e.2.orphaned && e.2.port == port && e.2.pf == link && e.2.vf == vf).map Prod.fst

/-! ### Management entries (R344–R349) -/

/-- The shared form of an entry that names an instance (R349). -/
def instEntry (typ : Nat) (g : Started → Nat → Chip → Chip) (c : Chip) : Chip :=
  runEntry stewardFn typ (fun e c =>
    let i := leAt e.bytes 8 2
    let x := c.inst i
    if 512 * c.dies ≤ i then c.endWith stewardFn e St.indexRange
    else if x.st == .free then c.endWith stewardFn e St.noInstance
    else if x.st == .resetting then c.endWith stewardFn e St.instanceBusy
    else g e i c) c

/-- Table pages that a set of mappings needs (R353): a root, and one page per distinct prefix of each lower level.
Log 70 (DESIGN CHOICE). -/
def tablePages (l : Tab Leaf) : Nat :=
  let distinct := fun (sh sizes : Nat) => (((l.filter fun e => decide (e.2.size ≤ sizes)).map fun e => e.1 / 2 ^ sh).eraseDups).length
  if l.isEmpty then 0 else 1 + distinct 39 2 + distinct 30 1 + distinct 21 0

/-- Page quotas given on a die. -/
def Chip.quotaGiven (c : Chip) (d : Nat) : Nat := ((c.insts.filter fun e => e.1 / 512 == d && e.2.st != .free).map fun e => e.2.quota).sum

/-- The VF named by a create cannot be bound (R346). -/
def Chip.vfAbsent (c : Chip) (port link vf : Nat) : Bool :=
  let f := c.fn (port * 2 + link)
  decide (1 < link) || (link == 1 && !c.bit (port / 4) (R.hepEpCfg (port % 4)) 0) || !f.vfEnable || decide (f.numVfs ≤ vf) ||
    (c.instOfVf port link vf).isSome

/-- The QoS settings of a create as the instance QoS object of R215. -/
def createQos (b : Bytes) (i : Nat) : Bytes := List.replicate 8 0#8 ++ toLE 1 0x0B ++ toLE 1 1 ++ toLE 2 0 ++ toLE 4 i ++ slice b 64 48

/-- The first check of R346 that a create fails. -/
def Chip.createFails (c : Chip) (b : Bytes) : Option Nat :=
  let i := leAt b 8 2
  let d := i / 512
  let port := byteAt b 10
  let ring := fun (k a : Nat) => k < 6 ∨ 20 < k ∨ a % min 4096 (32 * 2 ^ k) ≠ 0
  let base := leAt b 48 2
  let count := leAt b 50 2
  let meets := c.insts.any fun e => e.1 / 512 == d && e.2.st != .free && decide (0 < e.2.keyCount) && decide (base < e.2.keyBase + e.2.keyCount) && decide (e.2.keyBase < base + count)
  let zero := fun (o n : Nat) => (slice b o n).all (· == 0#8)
  if 512 * c.dies ≤ i ∨ 4 * c.dies ≤ port then some St.indexRange
  else if (c.inst i).st ≠ .free then some St.instanceExists
  else if port / 4 ≠ d then some St.wrongDie
  else if c.vfAbsent port (byteAt b 11) (leAt b 12 2) then some St.vfAbsent
  else if ring (byteAt b 18) (leAt b 24 8) ∨ ring (byteAt b 19) (leAt b 32 8) then some St.ringInvalid
  else if min (byteAt b 17) 2 < max (byteAt b 16) 1 then some St.versionUnsupported
  else if 4096 < count ∨ 65536 < base + count ∨ (count ≠ 0 ∧ meets) then some St.keyRange
  else if 393216 < c.quotaGiven d + leAt b 52 4 then some St.quota
  else if qosBad (createQos b i) then some St.qosInvalid
  else if 8 < byteAt b 14 ∨ !(zero 15 1 && zero 56 8 && zero 112 16 && zero 82 2 && zero 87 1) then some St.badAction
  else none

/-- INSTANCE_CREATE (R345–R347). Log 68 (DEDUCED). -/
def instanceCreate (c : Chip) : Chip :=
  runEntry stewardFn 0x50 (fun e c =>
    let b := e.bytes
    match c.createFails b with
    | some s => c.endWith stewardFn e s
    | none =>
      let i := leAt b 8 2
      let ver := min (byteAt b 17) 2
      let gen := wrapAdd 32 (c.keygen i) 1
      let x : Inst := { Inst.none with
        st := .active, port := byteAt b 10, pf := byteAt b 11, vf := leAt b 12 2, vectors := byteAt b 14, entryVer := ver
        keyBase := leAt b 48 2, keyCount := leAt b 50 2, quota := leAt b 52 4 }
      let h : Chan := { Chan.none with
        dsBase := leAt b 24 8, cqBase := leAt b 32 8, shadow := leAt b 40 8, dsK := byteAt b 18, cqK := byteAt b 19, ver := ver, verNew := ver
        serial := (c.chan i).serial }
      let c := ((c.setInst i x).setChan i h).emptyKeys i
      let c := { c with keygens := tput 0 c.keygens i gen }
      let c := match Chg.qos (createQos b i) with
        | some (.inst _ q) => c.setQs fun s => { s with qos := c.allDies.foldl (fun t d => tput Qos.none t (d * 4096 + i) q) s.qos }
        | _ => c
      c.endWith stewardFn e St.ok 0 0 (toLE 2 i ++ toLE 1 ver ++ toLE 1 0 ++ toLE 4 gen)) c

/-- INSTANCE_DESTROY (R348): the instance is reset, or its reset under way is waited for; it ends with
INSTANCE_RESET_DONE. -/
def instanceDestroy (c : Chip) : Chip :=
  runEntry stewardFn 0x51 (fun e c =>
    let i := leAt e.bytes 8 2
    if 512 * c.dies ≤ i then c.endWith stewardFn e St.indexRange
    else if (c.inst i).st == .free then c.endWith stewardFn e St.noInstance
    else
      let c := c.startReset i .destroy
      c.setInst i { c.inst i with destroying := true }) c

/-- INSTANCE_RESET (R359, R360). Log 70 (DESIGN CHOICE). -/
def instanceReset (c : Chip) : Chip := instEntry 0x52 (fun e i c => (c.startReset i .entry).endWith stewardFn e St.ok) c

/-! ### Translation entries (R353–R355) -/

/-- Pages of a range, as leaves, by page size. -/
def rangeLeaves (size first count bus : Nat) (rd wr : Bool) : Tab Leaf :=
  (List.range count).map fun n => (first + n * pageBytes size, ⟨size, bus + n * pageBytes size, rd, wr⟩)

/-- The leaves outside a range, below and above it, joined around new ones. -/
def replaceRange (l new : Tab Leaf) (first stop : Nat) : Tab Leaf :=
  (l.filter fun e => decide (e.1 < first)) ++ new ++ (l.filter fun e => decide (stop ≤ e.1))

/-- A range meets a mapping of another page size. -/
def meetsOther (l : Tab Leaf) (size first stop : Nat) : Bool :=
  l.any fun e => e.2.size != size && decide (e.1 < stop) && decide (first < e.1 + pageBytes e.2.size)

/-- Fields of a MAP entry. -/
structure MapArgs where
  size : Nat
  first : Nat
  count : Nat
  bus : Nat
deriving DecidableEq, Repr

def mapArgs (b : Bytes) : MapArgs := ⟨byteAt b 10, leAt b 16 8, leAt b 12 4, leAt b 24 8⟩

/-- One past the last address of the range. -/
def MapArgs.stop (m : MapArgs) : Nat := m.first + m.count * pageBytes m.size

/-- The checks that MAP_SET and MAP_CLEAR share (R354). -/
def mapFails (l : Tab Leaf) (m : MapArgs) (set : Bool) : Option Nat :=
  if 2 < m.size then some St.badAction
  else if m.count = 0 ∨ 1048576 < m.count ∨ 2 ^ 48 < m.stop then some St.indexRange
  else if m.first % pageBytes m.size ≠ 0 ∨ (set ∧ m.bus % pageBytes m.size ≠ 0) then some St.mapMisaligned
  else if meetsOther l m.size m.first m.stop then some St.mapOverlap
  else none

/-- Puts a new table into force on an instance and drops the cached copies of the range (R355). -/
def Chip.remap (c : Chip) (i : Nat) (l : Tab Leaf) (m : MapArgs) : Chip :=
  let d := i / 512
  let q := c.dma d
  let c := c.setDma d { q with xlate := q.xlate.filter fun e => !(e.inst == i && decide (m.first ≤ e.iova) && decide (e.iova < m.stop)) }
  { (c.setInst i { c.inst i with leaves := l }) with mapWait := true }

/-- MAP_SET (R354, R355): it completes by MAP_SETTLED. Log 70 (DESIGN CHOICE). -/
def mapSet (c : Chip) : Chip :=
  instEntry 0x53 (fun e i c =>
    let m := mapArgs e.bytes
    let x := c.inst i
    let new := replaceRange x.leaves (rangeLeaves m.size m.first m.count m.bus (bitN (byteAt e.bytes 11) 0) (bitN (byteAt e.bytes 11) 1)) m.first m.stop
    match mapFails x.leaves m true with
    | some s => c.endWith stewardFn e s
    | none => if x.quota < tablePages new then c.endWith stewardFn e St.mapNoRoom else c.remap i new m) c

/-- MAP_CLEAR (R354, R355). Log 70 (DESIGN CHOICE). -/
def mapClear (c : Chip) : Chip :=
  instEntry 0x54 (fun e i c =>
    let m := mapArgs e.bytes
    let x := c.inst i
    match mapFails x.leaves m false with
    | some s => c.endWith stewardFn e s
    | none => c.remap i (replaceRange x.leaves [] m.first m.stop) m) c

/-- MAP_SETTLED (R355): no burst of the instance translated before is in flight, a quarantined read included.
Log 70 (DESIGN CHOICE). -/
def mapSettled (c : Chip) : Chip :=
  match (c.chan stewardFn).started.find? fun e => e.run && e.recs.isNone && [0x53, 0x54].contains (byteAt e.bytes 1) with
  | none => c
  | some e =>
    let i := leAt e.bytes 8 2
    if !c.alive || !c.mapWait || c.tags.any (fun t => t.2.fn == i && (t.2.st == .outstanding || t.2.st == .quarantined)) then c
    else ({ c with mapWait := false }).endWith stewardFn e St.ok

/-! ### Dirty tracking (R361, R362) -/

/-- DIRTY_START (R361). Log 70 (DESIGN CHOICE). -/
def dirtyStart (c : Chip) : Chip :=
  instEntry 0x55 (fun e i c =>
    let gib := leAt e.bytes 12 4
    let first := leAt e.bytes 16 8
    let others := (c.insts.filter fun o => o.1 / 512 == i / 512 && o.1 != i && o.2.tracking.isSome).length
    if gib = 0 ∨ 1024 < gib then c.endWith stewardFn e St.indexRange
    else if first % 2 ^ 30 ≠ 0 then c.endWith stewardFn e St.mapMisaligned
    else if 16 ≤ others then c.endWith stewardFn e St.trackFull
    else (c.setInst i { c.inst i with tracking := some ⟨first, gib, [], false⟩ }).endWith stewardFn e St.ok) c

/-- The bitmap of tracked pages (R362). -/
def dirtyBitmap (t : Tracking) : Bytes :=
  (List.range (t.gib * 32768)).map fun k => BitVec.ofNat 8 (maskOf ((t.marks.filter fun j => j / 8 == k).map (· % 8)))

/-- Starts the write of a blob or a bitmap for the steward (R391): its record comes with TRANSFER_END. -/
def Chip.sendOutput (c : Chip) (e : Started) (i addr : Nat) (data detail : Bytes) : Chip :=
  c.addXfer c.stwDie { Xfer.fresh stewardFn e.seq e.bytes (.output i detail) [] with
    total := data.length, issued := data.length, outs := [(addr, data)], closed := true }

/-- DIRTY_SYNC (R362): the bitmap goes to the steward's address, the marks are cleared. Log 13 (DESIGN CHOICE). -/
def dirtySync (c : Chip) : Chip :=
  instEntry 0x56 (fun e i c =>
    let addr := leAt e.bytes 16 8
    match (c.inst i).tracking with
    | none => c.endWith stewardFn e St.notTracking
    | some t =>
      if addr % 4096 ≠ 0 then c.endWith stewardFn e St.mapMisaligned
      else
        let c := c.setInst i { c.inst i with tracking := some { t with marks := [], outOfRange := false } }
        let c := if t.outOfRange then c.count (i / 512) (R.insEvtCnt 3) else c
        c.sendOutput e i addr (dirtyBitmap t) (toLE 1 (b2n t.outOfRange))) c

/-- DIRTY_STOP (R361). -/
def dirtyStop (c : Chip) : Chip :=
  instEntry 0x57 (fun e i c =>
    if (c.inst i).tracking.isNone then c.endWith stewardFn e St.notTracking
    else (c.setInst i { c.inst i with tracking := none }).endWith stewardFn e St.ok) c

/-! ### Freezing (R363) -/

/-- FREEZE: fetching stops; it completes by FREEZE_DRAINED. -/
def freeze (c : Chip) : Chip :=
  instEntry 0x58 (fun e i c =>
    if (c.inst i).st == .frozen then c.endWith stewardFn e St.instanceState else c.setInst i { c.inst i with freezing := true }) c

/-- An entry at the head of the cache cannot start before the receive list has room, which no grant gives a frozen instance: it
and those behind it are left. Log 70 (DESIGN CHOICE). -/
def Chip.rxStuck (c : Chip) (i : Nat) : Bool :=
  match (c.chan i).cache with
  | b :: _ => byteAt b 1 == 0x03 && c.headWaits i b
  | [] => false

/-- No work of an instance remains in a shared engine (R363, R391): no entry fetched or being fetched, no transfer, no read, no
cipher job, no job context, no packet on its way to it. -/
def Chip.idle (c : Chip) (i : Nat) : Bool :=
  let h := c.chan i
  (h.cache.isEmpty || c.rxStuck i) && h.started.isEmpty && h.waiting.isEmpty && h.fetch.open_ == 0 &&
    !(c.tags.any fun t => t.2.fn == i && t.2.st == .outstanding) && !((c.dma (i / 512)).xfers.any fun e => e.2.fn == i) && !(c.cp.jobs.any fun j => j.fn == i) &&
    !(c.dre.ctxs.any fun e => match e.2 with | some k => k.job && k.fn == i | none => false) &&
    !(c.dp.pkts.any fun p => p.dstInst && p.dst == i && (p.stage == .window || p.stage == .writing || p.stage == .crossDest (i / 512)))

/-- FREEZE_DRAINED. -/
def freezeDrained (i : Nat) (c : Chip) : Chip :=
  let x := c.inst i
  if c.alive && x.freezing && x.st == .active && c.idle i then (c.setInst i { x with st := .frozen, freezing := false }).endStw 0x58 St.ok 0 [] else c

/-- THAW: the instance's vectors that are pending and may go are signalled. -/
def thaw (c : Chip) : Chip :=
  instEntry 0x59 (fun e i c =>
    if (c.inst i).st == .frozen then ((c.setInst i { c.inst i with st := .active }).flushMsix (c.fnPci i)).endWith stewardFn e St.ok
    else c.endWith stewardFn e St.instanceState) c

/-! ### The migration blob (R364–R366, R442) -/

/-- A key wrap of the migration key for a public key: ephemeral scalar, nonce. Log 63 (PRESUMED). -/
def keyWrap (eph nonce : Nat) (q key : Bytes) : Bytes :=
  let head := toBE 2 stewardFn ++ toBE 2 0 ++ toBE 4 0 ++ slice (sm2Public eph) 0 64
  let x := beNat (slice (sm2Shared eph q) 0 32)
  let w := toBE 16 (kdf x (slice head 0 12) % 2 ^ 256 / 2 ^ 128)
  let r := sealed 3 w (toBE 12 nonce) head key
  head ++ toBE 12 nonce ++ r.1 ++ r.2 ++ toBE 4 0

/-- Opens a key wrap under the steward's scalar. Log 63 (PRESUMED). -/
def openWrap (scalar : Nat) (b : Bytes) : Option Bytes :=
  let point := slice b 8 64
  if beAt b 0 2 ≠ stewardFn ∨ beAt b 4 4 ≠ 0 ∨ sm2OnCurve point = false then none
  else
    let x := beNat (slice (sm2Shared scalar point) 0 32)
    let w := toBE 16 (kdf x (slice b 0 12) % 2 ^ 256 / 2 ^ 128)
    let r := opened 3 w (slice b 72 12) (slice b 0 72) (slice b 84 16) (slice b 100 16)
    if r.2 then some r.1 else none

/-- A section of a blob. -/
def section_ (typ : Nat) (body : Bytes) : Bytes := toBE 2 typ ++ toBE 2 0 ++ toBE 4 body.length ++ body

/-- The non-empty key slots of an instance's range, by offset. -/
def Chip.ownKeys (c : Chip) (i : Nat) : List (Nat × KeySlot) :=
  let x := c.inst i
  let base := i / 512 * 65536 + x.keyBase
  c.cp.keySlots.filterMap fun e => if base ≤ e.1 ∧ e.1 < base + x.keyCount then e.2.map fun k => (e.1 - base, k) else none

/-- The sections of an instance's blob. -/
def Chip.sections (c : Chip) (i ver : Nat) : Bytes :=
  let x := c.inst i
  let h := c.chan i
  let pend := maskOf ((c.fn (c.fnPci i)).pendVec.filter (decide <| · < 8))
  section_ 1 (toBE 1 x.entryVer ++ toBE 1 x.vectors ++ toBE 2 0 ++ toBE 2 x.keyCount ++ toBE 2 0) ++
  section_ 2 (toBE 8 h.dsBase ++ toBE 8 h.cqBase ++ toBE 8 h.shadow ++ toBE 4 h.dsP ++ toBE 4 h.dsC ++ toBE 4 h.cqP ++ toBE 4 h.cqC
    ++ toBE 1 h.dsK ++ toBE 1 h.cqK ++ toBE 1 (b2n (h.dsHalt == 0) + 2 * b2n (h.cqHalt == 0)) ++ toBE 5 0) ++
  section_ 3 h.stash.flatten ++
  section_ 4 ((c.ownKeys i).flatMap fun k => toBE 2 k.1 ++ toBE 1 k.2.kind ++ toBE 1 0 ++ slice k.2.material 0 64 ++ slice k.2.iv 0 12) ++
  (if ver = 1 then [] else section_ 5 (toBE 1 pend ++ toBE 3 0))

/-- The blob of an instance for a destination key; four random draws make the keys and nonces. -/
def Chip.blob (c : Chip) (kekSeed i ver : Nat) (dest : Bytes) : Bytes :=
  let rnd := fun (k w : Nat) => Config.free (c.free + k) % 2 ^ w
  let eph := fun (k : Nat) => rnd k 256 % (sm2Order - 1) + 1
  let key := toBE 16 (rnd 0 128)
  let own := slice (sm2Public (c.kekScalar kekSeed stewardFn)) 0 64
  let plain := c.sections i ver
  let wraps := (if ver = 1 then [] else keyWrap (eph 1) (rnd 2 96) own key) ++ keyWrap (eph 3) (rnd 4 96) dest key
  let nonce := toBE 12 (rnd 5 96)
  let head := toBE 4 0x4C4D4947 ++ toBE 1 ver ++ toBE 1 0 ++ toBE 2 (c.fld 0 R.spnDevice 0 14) ++ toBE 2 i ++ toBE 2 (if ver = 1 then 4 else 5)
    ++ toBE 4 (28 + wraps.length + plain.length + 16) ++ nonce ++ wraps
  let r := sealed 3 key nonce head plain
  head ++ r.1 ++ r.2

/-- SAVE (R364, R365, R442). Logs 13 (DESIGN CHOICE), 70 (DESIGN CHOICE). -/
def save (kekSeed : Nat) (c : Chip) : Chip :=
  instEntry 0x5A (fun e i c =>
    let v := byteAt e.bytes 10
    let dest := slice e.bytes 24 136
    let ver := if v = 0 then 2 else v
    let blob := c.blob kekSeed i ver (slice dest 8 64)
    if (c.inst i).st ≠ .frozen then c.endWith stewardFn e St.instanceState
    else if 2 < v then c.endWith stewardFn e St.restoreVersion
    else if beAt dest 0 2 ≠ stewardFn ∨ sm2OnCurve (slice dest 8 64) = false then c.endWith stewardFn e St.unwrapFail
    else if leAt e.bytes 12 4 < blob.length then c.endWith stewardFn e St.saveTooSmall 0 0 (toLE 4 blob.length)
    else
      ({ c with free := c.free + 6 }).sendOutput e i (leAt e.bytes 16 8) blob (toLE 4 blob.length)) c

/-- Reads the sections of a blob by fuel: type and body. -/
def readSections : Nat → Bytes → List (Nat × Bytes)
  | 0, _ => []
  | n + 1, b => if b.length < 8 then [] else (beAt b 0 2, slice b 8 (beAt b 4 4)) :: readSections n (b.drop (8 + beAt b 4 4))

/-- The body of a section. -/
def sectionOf (l : List (Nat × Bytes)) (typ : Nat) : Bytes := ((l.find? fun s => s.1 == typ).map Prod.snd).getD []

/-- A string cut into pieces of `n` bytes, by fuel. -/
def chunks (n : Nat) : Nat → Bytes → List Bytes
  | 0, _ => []
  | fuel + 1, b => if b.isEmpty then [] else slice b 0 n :: chunks n fuel (b.drop n)

/-- Loads the sections of a blob into an instance (R366); a vector made pending that is unmasked is signalled (R325, R442). -/
def Chip.loadBlob (c : Chip) (i ver : Nat) (l : List (Nat × Bytes)) : Chip :=
  let x := c.inst i
  let h := c.chan i
  let s := sectionOf l 2
  let stash := chunks 32 ((sectionOf l 3).length / 32) (sectionOf l 3)
  let keys := chunks 80 ((sectionOf l 4).length / 80) (sectionOf l 4)
  let fl := byteAt s 42
  let c := c.setChan i { h with
    dsBase := beAt s 0 8, cqBase := beAt s 8 8, shadow := beAt s 16 8, dsP := beAt s 24 4, dsC := beAt s 28 4, cqP := beAt s 32 4, cqC := beAt s 36 4
    dsK := byteAt s 40, cqK := byteAt s 41, dsHalt := if bitN fl 0 then 0 else h.dsHalt, cqHalt := if bitN fl 1 then 0 else h.cqHalt
    stash := stash, full := decide (64 ≤ stash.length), shadowDirty := true }
  let base := i / 512 * 65536 + x.keyBase
  let c := keys.foldl (fun c k => c.setKeySlot (base + beAt k 0 2) (some ⟨byteAt k 2, slice k 4 64, slice k 68 12⟩)) c
  let bits := if ver = 1 then 0xFF else byteAt (sectionOf l 5) 0
  let p := c.fnPci i
  let c := c.setFn p { c.fn p with pendVec := (bitList bits 8).filter (decide <| · < x.vectors) }
  (c.setInst i { x with st := .frozen, fresh := false }).flushMsix p

/-- The instance may take a blob (R366): Active, no channel started since its creation or last reset. -/
def Inst.takesBlob (x : Inst) : Bool := x.st == .active && x.fresh && !x.freezing

/-- The end of a RESTORE whose blob has been read (R366, R442): its checks in order, then the load. -/
def Chip.restoreBlob (c : Chip) (kekSeed : Nat) (e : Started) (i : Nat) (b : Bytes) : Chip :=
  let x := c.inst i
  let ver := byteAt b 4
  let scalar := c.kekScalar kekSeed stewardFn
  let at_ := if ver = 1 then 148 else 268
  let key := if ver = 1 then openWrap scalar (slice b 28 120) else (openWrap scalar (slice b 28 120)).orElse fun _ => openWrap scalar (slice b 148 120)
  if !x.takesBlob then c.endWith stewardFn e St.instanceState 0 b.length
  else if ver ≠ 1 ∧ ver ≠ 2 then c.endWith stewardFn e St.restoreVersion 0 b.length
  else
    match key with
    | none => c.endWith stewardFn e St.unwrapFail 0 b.length
    | some k =>
      let len := beAt b 12 4
      let r := opened 3 k (slice b 16 12) (slice b 0 at_) (slice b at_ (len - at_ - 16)) (slice b (len - 16) 16)
      let l := readSections (beAt b 10 2) r.1
      let offsets := (chunks 80 ((sectionOf l 4).length / 80) (sectionOf l 4)).map fun q => beAt q 0 2
      if !r.2 ∨ beAt b 0 4 ≠ 0x4C4D4947 ∨ b.length < len ∨ len < at_ + 16 then c.endWith stewardFn e St.unwrapFail 0 b.length
      else if byteAt (sectionOf l 1) 0 ≠ x.entryVer ∨ offsets.any (fun o => decide (x.keyCount ≤ o)) then c.endWith stewardFn e St.restoreMismatch 0 b.length
      else (c.loadBlob i ver l).endWith stewardFn e St.ok b.length

/-- The RESTORE whose blob has been read whole. -/
def Chip.blobRead (c : Chip) : Option (Nat × Xfer) :=
  (c.dma c.stwDie).xfers.find? fun e => e.2.kind == .restore && e.2.status.isNone && decide (e.2.total ≤ e.2.prefixLen)

/-- RESTORE (R366, R442): performed once, it starts the read of the blob (R391); performed again with the blob read, it checks
and loads it. Log 70 (DESIGN CHOICE). -/
def restore (kekSeed : Nat) (c : Chip) : Chip :=
  match c.blobRead with
  | some (n, x) =>
    match (c.chan stewardFn).started.find? fun e => e.seq == x.index with
    | some e => if c.alive then (c.delXfer c.stwDie n).restoreBlob kekSeed e (leAt x.ent 8 2) x.prefixData else c
    | none => c
  | none =>
    instEntry 0x5B (fun e i c =>
      if (c.inst i).takesBlob then
        c.addXfer c.stwDie (Xfer.fresh stewardFn e.seq e.bytes .restore [(leAt e.bytes 16 8, leAt e.bytes 12 4)])
      else c.endWith stewardFn e St.instanceState) c

end Sys2Proof.Machine
end

