-- ==== Sys2Proof/Machine/Clocks.lean ====
section
/-! DEFINITION. Clocks (spec/18): the Pilot, the Windsock's stages, its trips, clock gates, the rate of the time
base; and the end of a boot that fails (R457), which a trip before DONE shares. -/

namespace Sys2Proof.Machine

/-! ### Boot failure (R457) -/

/-- Boot failure codes of TET_BOOT_STATUS. -/
def Fail.strapInvalid := 0x01
def Fail.fuseInvalid := 0x02
def Fail.nvmAbsent := 0x03
def Fail.headerInvalid := 0x04
def Fail.formatVersion := 0x05
def Fail.dieCount := 0x06
def Fail.rootKeyMismatch := 0x07
def Fail.sectionInvalid := 0x08
def Fail.signatureInvalid := 0x09
def Fail.sectionDigest := 0x0A
def Fail.rollback := 0x0B
def Fail.configError := 0x0C
def Fail.hardware := 0x0D
def Fail.recoverySelected := 0x0E

/-- Boot is under way. -/
def Chip.booting (c : Chip) : Bool :=
  decide (1 ≤ c.boot.step) && !(c.boot.state == .done || c.boot.state == .failed || c.boot.state == .recovery)

/-- Takes every host link down (R339); that of the recovery port then trains anew as one link (R457). Log 24 (DESIGN CHOICE). -/
def Chip.linksDown (c : Chip) : Chip :=
  c.allDies.foldl (fun c d => (List.range 4).foldl (fun c h =>
    let v := c.rd d (R.hepEpStatus h)
    let changed := (if bitN v 0 then 2 ^ 10 else 0) ||| (if bitN v 16 then 2 ^ 26 else 0)
    c.wr d (R.hepEpStatus h) ((v &&& 0x04000400) ||| changed)) c) c

/-- Ends the boot in failure (R457): the code, class and die are recorded, TET_BOOT_FAIL is raised, FAULT_N and
SMB_ALERT_N are held, every host link goes down, the recovery port then runs as one link. RECOVERY_SELECTED raises and
asserts nothing. The milliseconds since the release of PKG_RST_N are a free value. Log 33 (DESIGN CHOICE). -/
def Chip.bootFail (c : Chip) (code cls die : Nat) : Chip :=
  let ms := c.drawn (2 ^ 16)
  let c := c.draw
  let recovery := decide (code = Fail.recoverySelected)
  let c := { c with boot := { c.boot with
    state := (if recovery then .recovery else .failed), failCode := code, failClass := cls, failDie := die, bootMs := ms
    bifurcation := 0 } }
  let c := c.linksDown
  if recovery then c
  else (c.hold .bootFailure).raise Cls.tetBootFail 0 { block := 0x22, cause := code }

/-! ### Domains (R467) -/

/-- N and F of domain `k`'s divider, in the row order of R467. -/
def divider (k : Nat) : Nat × Nat :=
  match k with
  | 3 => (4, 102)
  | 4 => (5, 128)
  | 5 => (8, 0)
  | 6 => (16, 0)
  | _ => (4, 0)

/-- The edges of a domain over 1,024 Pilot cycles (2.56 µs) differ by more than 2 % from the expected count: the PLL
gives 22,528 periods in the window and the domain one edge in N + F/256 of them (R467, R474). -/
def offFrequency (k edges : Nat) : Bool :=
  let (n, f) := divider k
  let got : Int := (edges * (256 * n + f) : Nat)
  decide ((got - 22528 * 256).natAbs * 100 > 2 * 22528 * 256)

/-! ### Trips (R475) -/

/-- A Windsock trip: the part's clocks stop, CLK_TRIP is raised, FAULT_N and SMB_ALERT_N are held; a boot under way
ends with HARDWARE; MGMT goes over to the Pilot, unless that is dead too (R476); the conditions that lapse with the clocks are
reported (R501). A trip while tripped is only counted. Log 19 (DESIGN CHOICE). -/
def Chip.trip (c : Chip) (cause die domain : Nat) : Chip :=
  if c.clk.stage == .tripped then (if c.mgmtUp then c.count 0 R.clkTripCnt else c)
  else
    let booting := c.booting
    let c := c.watchAll fun c => { c with clk := { c.clk with
      stage := .tripped, mgmtOnPilot := !c.clk.pilotFailed, tripCause := cause, tripDie := die, tripDomain := domain } }
    let c := (c.hold .trip).raise Cls.clkTrip die { block := 0x24, cause, value := domain }
    if booting then c.bootFail Fail.hardware 0 die else c

/-- The Windsock's checks can trip: stage locked, or already tripped (counted). -/
def Chip.watching (c : Chip) : Bool :=
  c.pwr.aux && !c.pwr.inReset && (c.clk.stage == .locked || c.clk.stage == .tripped)

/-- REFCLK_LOST (R474); without a Pilot the test cannot run (R476). -/
def refclkLost (c : Chip) : Chip :=
  if c.watching && !c.clk.pilotFailed then
    ({ c with clk := { c.clk with refclkOk := false } }).trip 1 0 0
  else c

/-- PLL_UNLOCKED (R474). -/
def pllUnlocked (die : Nat) (c : Chip) : Chip :=
  if c.watching && c.hasDie die then
    ({ c with clk := { c.clk with pllLocked := if die = 0 then false else c.clk.pllLocked } }).trip 2 die 0
  else c

/-- DOMAIN_COUNT_WINDOW (R474): once the Pilot has settled, for a domain whose rails have been good for 1 ms, counted by REFCLK
edges (die 0's MGMT always). Log 27 (DESIGN CHOICE). -/
def domainCountWindow (die domain edges : Nat) (c : Chip) : Chip :=
  let good := c.pwr.psPg && decide (c.pwr.pgAt + 1000000 ≤ c.steady)
  let counted := good || (die == 0 && domain == 6)
  if c.watching && c.clk.settled && !c.clk.pilotFailed && c.hasDie die && decide (domain < 7) && counted
      && offFrequency domain edges then c.trip 3 die domain
  else c

/-- REFCLK_FREQ_WINDOW (R474): the first window after settling or after a trim step gives the reference; a count more
than 1,000 ppm off it trips; between steps the reference follows by at most 0.1 ppm. Counts in 10⁻⁷ edge. -/
def refclkFreqWindow (edges : Nat) (c : Chip) : Chip :=
  if c.watching && c.clk.settled && !c.clk.pilotFailed then
    if c.clk.skipWindow then { c with clk := { c.clk with skipWindow := false } }
    else
      let got := edges * 10000000
      match c.clk.refCount with
      | none => { c with clk := { c.clk with refCount := some got } }
      | some r =>
        if ((got : Int) - r).natAbs * 1000 > r then c.trip 4 0 0
        else
          let by_ := min ((got : Int) - r).natAbs (r / 10000000)
          { c with clk := { c.clk with refCount := some (if r ≤ got then r + by_ else r - by_) } }
  else c

/-- PILOT_EDGE_TIMEOUT (R476). -/
def pilotEdgeTimeout (c : Chip) : Chip :=
  if c.pwr.aux && !c.pwr.inReset && c.clk.stage == .locked && !c.clk.pilotFailed then
    let c := { c with clk := { c.clk with pilotFailed := true } }
    (c.hold .pilotFail).raise Cls.clkPilotFail 0 { block := 0x24 }
  else c

/-! ### Start-up (R471–R473, R477) -/

/-- PILOT_ARMED: stage 2; without a qualified reference the Tether reports WAIT_REFCLK (R472, R473). -/
def pilotArmed (c : Chip) : Chip :=
  if c.pwr.aux && !c.pwr.inReset && c.clk.stage == .starting then
    let c := { c with clk := { c.clk with stage := .armed } }
    if c.booting then { c with boot := { c.boot with state := .waitRefclk } } else c
  else c

/-- REFCLK_QUALIFIED: REFCLK reaches the Windsock only while the standby rails run (R481). -/
def refclkQualified (c : Chip) : Chip :=
  if c.pwr.aux && !c.pwr.inReset && c.pwr.standby && c.clk.stage == .armed then
    let c := { c with clk := { c.clk with refclkOk := true } }
    if c.boot.state == .waitRefclk then { c with boot := { c.boot with state := .start } } else c
  else c

/-- PLL_LOCK_ALL: stage 3; die 0's MGMT domain and the Tether switch to the PLL (R472, R477). -/
def pllLockAll (c : Chip) : Chip :=
  if c.pwr.aux && !c.pwr.inReset && c.clk.stage == .armed && c.clk.refclkOk then
    { c with clk := { c.clk with stage := .locked, pllLocked := true, mgmtOnPilot := false } }
  else c

/-- PLL_LOCK_TIMEOUT (R473): the boot ends with HARDWARE and the die that has not locked. -/
def pllLockTimeout (die : Nat) (c : Chip) : Chip :=
  if c.pwr.aux && !c.pwr.inReset && c.clk.stage == .armed && c.clk.refclkOk && c.hasDie die && c.booting then
    c.bootFail Fail.hardware 0 die
  else c

/-- REFCLK_STOP_BEFORE_LOCK (R473): back to WAIT_REFCLK, and no trip. -/
def refclkStopBeforeLock (c : Chip) : Chip :=
  if c.pwr.aux && !c.pwr.inReset && c.clk.stage == .armed && c.clk.refclkOk then
    let c := { c with clk := { c.clk with refclkOk := false } }
    if c.booting then { c with boot := { c.boot with state := .waitRefclk } } else c
  else c

/-- A trim step: the reference count is taken again, and the window it falls in is not compared (R474). -/
def Chip.trimTo (c : Chip) (trim : Nat) : Chip :=
  { c with clk := { c.clk with trim := trim, refCount := none, skipWindow := c.clk.settled } }

/-- PILOT_TRIM_TICK (R471): one step towards 400 MHz where the trim has one left, or settled. Log 27 (DESIGN CHOICE). -/
def pilotTrimTick (cmp : PilotCompare) (c : Chip) : Chip :=
  if c.pwr.aux && !c.pwr.inReset && c.clk.refclkOk && !c.clk.pilotFailed then
    match cmp with
    | .within => { c with clk := { c.clk with settled := true } }
    | .slow => if c.clk.trim < 127 then c.trimTo (c.clk.trim + 1) else c
    | .fast => if 0 < c.clk.trim then c.trimTo (c.clk.trim - 1) else c
  else c

/-! ### Gates and rate -/

/-- CLK_GATE (R478): opening a gate; closing it only for a disabled block, else gate_refused. The epoch gate never
closes. -/
def clkGate (die : Nat) (value : Reg32) (c : Chip) : Chip :=
  (List.range 17).foldl (fun c b =>
    if value.getLsbD b then c.wfld die R.clkGate b 1 1
    else if b != 3 && c.blockDisabled die b then c.wfld die R.clkGate b 1 0
    else if c.bit die R.clkGate b then c.wfld die R.clkGateFlags 1 1 1 else c) c

/-- GATE_FORCE_TIMEOUT (R479): an access held a closing gate for 64 MGMT cycles; the gate closes anyway. -/
def gateForceTimeout (die block : Nat) (c : Chip) : Chip :=
  if c.alive && c.hasDie die && decide (block < 17) && block != 3 && c.blockDisabled die block then
    let c := c.wfld die R.clkGate block 1 0
    let c := c.wfld die R.clkGateFlags 0 1 1
    c.raise Cls.clkGateForced die { block }
  else c

/-- CLK_TB_RATE (R470): a signed rate in 2⁻³², held at ±429,497. Log 26 (DESIGN CHOICE). -/
def clkTbRate (value : Reg32) (c : Chip) : Chip :=
  let a := max (-429497) (min 429497 value.toInt)
  c.wr 0 R.clkTbRate (BitVec.ofInt 32 a).toNat

/-- One REFCLK edge: every die's copy of the time base advances (R469). Logs 2 (DESIGN CHOICE), 26 (DESIGN CHOICE). -/
def refclkEdge (c : Chip) : Chip :=
  if c.clk.tbRun && c.clk.refclkOk then { c with clk := { c.clk with tb := c.clk.tb + c.tbStep, edges := c.clk.edges + 1 } } else c

end Sys2Proof.Machine
end

