-- ==== Sys2Proof/Machine/Power.lean ====
section
/-! DEFINITION. Supplies, resets of the whole part and the fuse block (spec/19, spec/17 R458–R460, R457's recovery
operations on the NVM, spec/22 R561). -/

namespace Sys2Proof.Machine

/-! ### Supplies -/

/-- STANDBY_RAILS_CHANGE (R481): VBUS rises above or falls below its bound, whatever AUX_3V3 is; the rails run with both. Without
them REFCLK does not reach the Windsock and the PLLs stop; before stage 3 the part waits (R473), in stage 3 the Windsock trips
(R489). -/
def standbyRailsChange (up : Bool) (c : Chip) : Chip :=
  if up then { c with pwr := { c.pwr with standby := true } }
  else
    let c := { c with pwr := { c.pwr with standby := false } }
    if !c.pwr.aux || c.pwr.inReset then c
    else if c.clk.stage == .armed then refclkStopBeforeLock c
    else if c.clk.stage == .locked then refclkLost c
    else c

/-- PS_EN_CHANGE (R483): reads as deasserted while AUX_3V3 is absent. -/
def psEnChange (level : Bool) (c : Chip) : Chip :=
  if c.pwr.aux then { c with pwr := { c.pwr with psEn := level } } else c

/-- PS_PG_RISE (R487): every main rail of every die is within tolerance; a boot that waits for power goes on. -/
def psPgRise (c : Chip) : Chip :=
  if c.pwr.aux && c.pwr.psEn then
    let c := { c with pwr := { c.pwr with psPg := true, pgAt := if c.pwr.psPg then c.pwr.pgAt else c.steady } }
    if c.boot.state == .waitPower then { c with boot := { c.boot with state := .start } } else c
  else c

/-- Every block of every die loses its state (R489): the dies' registers and memories return to reset; the logic side with
the package block, die 0's clock block (its MGMT domain runs on), error records and PWR_STATUS stay. -/
def Chip.dropMain (c : Chip) : Chip :=
  { Chip.resetWith c.dies c.free c.pwr c.out with
    regs := c.regs.filter fun e => decide (0x20000000 ≤ e.1) || (decide (bar4 0 ⟨17, 0⟩ ≤ e.1) && decide (e.1 < bar4 0 ⟨18, 0⟩))
    clk := c.clk, boot := c.boot, trust := c.trust, cfg := c.cfg, faults := c.faults }

/-- PS_PG_FALL (R489): while PKG_RST_N is released the main rails are lost. THERM_N is released with them (R561), and the conditions
of the guarantee that lapse are reported (R501). -/
def psPgFall (die : Nat) (c : Chip) : Chip :=
  if c.pwr.aux && c.pwr.psPg then
    let c := { c with pwr := { c.pwr with psPg := false, therm := false } }
    if c.pwr.inReset then c
    else
      let booting := c.booting
      let d := if c.hasDie die then die else 0
      let c := (c.hold .mainLost).raise Cls.pwrMainLost d { block := 0x23 }
      let c := c.watchAll fun c => { c.dropMain with pwr := { c.pwr with mainDown := true, mainLost := true } }
      if booting then c.bootFail Fail.hardware 0 d else c
  else c

/-- POWER_STAGE_FAULT (R484). VBUS outside its operating range raises PWR_VBUS_RANGE and no pin. Log 19 (DESIGN CHOICE). -/
def powerStageFault (cause : StageFault) (die rail : Nat) (c : Chip) : Chip :=
  if !c.pwr.aux then c
  else
    let stage (code : Nat) (named : Bool) : Chip :=
      let c := { c with pwr := { c.pwr with
        psFlt := true, fltCause := code, fltDie := if named then die % 8 else c.pwr.fltDie } }
      if c.pwr.inReset then c
      else c.raise Cls.pwrStageFault (if named && c.hasDie die then die else 0)
        { block := 0x23, cause := code, value := if named then rail else 0 }
    match cause with
    | .vbusHigh => stage 1 false
    | .vbusRange => if c.pwr.inReset then c else c.raise Cls.pwrVbusRange 0 { block := 0x23 }
    | .railLimit => stage 2 true
    | .overTemp => stage 3 false
    | .channel => stage 4 false

/-- PS_FLT_FALL (R484): the pin falls when its cause has cleared; the sticky cause stays. -/
def psFltFall (c : Chip) : Chip :=
  if c.pwr.aux then { c with pwr := { c.pwr with psFlt := false } } else c

/-- TELEMETRY_UPDATE (R485): the Tether takes it while it has a clock (R476). Log 28 (DESIGN CHOICE). -/
def telemetryUpdate (vbus ibus power : BitVec 16) (rails : List (BitVec 8)) (c : Chip) : Chip :=
  if c.mgmtUp then
    { c with pwr := { c.pwr with vbus := vbus.toNat, ibus := ibus.toNat, power := power.toNat, rails := rails, stale := false } }
  else c

/-- TELEMETRY_TIMEOUT (R485): the registers keep their last values. -/
def telemetryTimeout (c : Chip) : Chip :=
  if c.mgmtUp then
    ({ c with pwr := { c.pwr with stale := true } }).raise Cls.pwrLinkFail 0 { block := 0x23 }
  else c

/-- A sensor's limit for THERM_N: 105 °C for the die sensors 0 to 14, 95 °C for the HBM reading 15 (R560, R561).
Log 28 (DESIGN CHOICE). -/
def thermLimit (sensor : Nat) : Int := if sensor % 16 = 15 then 95 else 105

/-- SENSOR_UPDATE (R560, R561): THERM_N is asserted at a limit and released once every reading has fallen 5 °C below its
limit. Log 28 (DESIGN CHOICE). -/
def sensorUpdate (die : Nat) (readings : List Int) (c : Chip) : Chip :=
  if c.pwr.aux && !c.pwr.mainDown && c.pwr.psPg && c.hasDie die then
    let s := (List.range 16).foldl (fun t k => tput 0 t (die * 16 + k) (readings.getD k 0)) c.pwr.sensors
    let hot := s.any fun e => decide (thermLimit e.1 ≤ e.2)
    let cool := s.all fun e => decide (e.2 ≤ thermLimit e.1 - 5)
    { c with pwr := { c.pwr with sensors := s, therm := hot || (c.pwr.therm && !cool) } }
  else c

/-! ### Package resets -/

/-- Number of dies of a die_count fuse field (R458). Log 29 (DESIGN CHOICE). -/
def dieCountOf (f : BitVec 2) : Nat :=
  if f = 0b01#2 then 2 else if f = 0b10#2 then 4 else if f = 0b11#2 then 8 else 0

/-- PKG_RST_ASSERT (R492): everything but the supplies, fuses, NVM and PWR_RESET_CAUSE returns to reset. Log 29 (DESIGN CHOICE). -/
def Chip.pkgReset (c : Chip) : Chip :=
  let p : Power := { Power.powerOn with
    inReset := true, standby := c.pwr.standby, psEn := c.pwr.psEn, psPg := c.pwr.psPg, psFlt := c.pwr.psFlt,
    auxPor := false, pkgRst := true, mainLostBefore := c.pwr.mainDown, tripBefore := c.clk.stage == .tripped
    perst := c.pwr.perst }
  Chip.resetWith c.dies c.free p c.out

/-- A fuse blow cut short (R495): of the bits it was to blow, a free choice is blown. Log 30 (DESIGN CHOICE). -/
def Root.cutBlow (r : Root) (choice : Nat) : Root :=
  match r.blow with
  | none => r
  | some (.counter n) =>
    let want : BitVec 64 := BitVec.ofNat 64 (2 ^ n - 1)
    { r with blow := none, fuses := { r.fuses with arb := r.fuses.arb ||| (want &&& BitVec.ofNat 64 choice) } }
  | some .lock => { r with blow := none, fuses := { r.fuses with debugLock := r.fuses.debugLock ||| BitVec.ofNat 4 choice } }

/-- Bytes that a recovery operation names: a length of 0 means 32,768. -/
def Root.rcvBytes (r : Root) : Nat := if r.rcvLen = 0 then 32768 else r.rcvLen

/-- What a recovery program or erase touches of the NVM: first byte and length, of an erase in whole sectors. -/
def Root.rcvRange (r : Root) : Nat × Nat :=
  if r.rcvOp = some 2 then
    let sector := 2 ^ (10 + r.eraseLog2)
    let first := r.rcvAddr / sector * sector
    (first, (r.rcvAddr + r.rcvBytes - 1) / sector * sector + sector - first)
  else (r.rcvAddr, r.rcvBytes)

/-- A recovery program or erase cut short leaves the range it touches undefined (R495): free bytes. Log 30 (DESIGN CHOICE). -/
def Root.cutNvm (r : Root) (choice : Nat → Nat) : Root :=
  match r.rcvOp with
  | some 1 => { r with rcvOp := none }
  | some _ =>
    { r with rcvOp := none, nvm := twriteN 0xFF#8 r.nvm r.rcvRange.1 ((List.range r.rcvRange.2).map fun i => BitVec.ofNat 8 (choice i)) }
  | none => r

/-- Draws that what a reset cuts short may take. -/
def Root.cutDraws (r : Root) : Nat := 1 + r.rcvRange.2

/-- The fuse and NVM side at a package reset: what was under way ends, recovery registers return to reset. Log 30 (DESIGN CHOICE). -/
def Root.pkgReset (r : Root) (draw : Nat) : Root :=
  let r := (r.cutBlow (Config.free draw)).cutNvm fun i => Config.free (draw + 1 + i)
  { r with armed := false, result := .ok, rcvAddr := 0, rcvLen := 0, rcvResult := 0, rcvBuf := [], rcvReset := false }

/-- PKG_RST_ASSERT on the whole machine; ignored while already asserted. -/
def pkgRstAssert (s : State) : State :=
  if s.chip.pwr.aux && !s.chip.pwr.inReset then
    { s with root := s.root.pkgReset s.chip.free, chip := { s.chip.pkgReset with free := s.chip.free + s.root.cutDraws } }
  else s

/-- AUX_POWER_ON (R487 step 1): the logic side powered and held in reset; the die count sensed from the fuses (an
unprogrammed count keeps the lead die pair, and boot fails at check 2). -/
def auxPowerOn (s : State) : State :=
  if s.chip.pwr.aux then s
  else
    let n := dieCountOf s.root.fuses.dieCount
    let p := { Power.powerOn with standby := s.chip.pwr.standby, perst := s.chip.pwr.perst }
    { s with chip := Chip.resetWith (if n = 0 then 2 else n) s.chip.free p s.chip.out }

/-- AUX_POWER_LOSS (R490): every state of the part is lost; PS_EN reads as deasserted, so the main rails fall. -/
def auxPowerLoss (s : State) : State :=
  if s.chip.pwr.aux then
    let p := { Power.powerOn with aux := false, auxPor := false, standby := s.chip.pwr.standby, perst := s.chip.pwr.perst }
    { s with
      root := s.root.pkgReset s.chip.free
      chip := Chip.resetWith s.chip.dies (s.chip.free + s.root.cutDraws) p s.chip.out }
  else s

/-- PKG_RST_RELEASE (R445, R455 step 1): the straps are sampled, the die count sensed, and boot starts on the Pilot.
Log 29 (DESIGN CHOICE). -/
def pkgRstRelease (bootSel rcvPort smbAddr : BitVec 2) (s : State) : State :=
  if s.chip.pwr.aux && s.chip.pwr.inReset then
    let n := dieCountOf s.root.fuses.dieCount
    { s with chip := { s.chip with
        dies := if n = 0 then s.chip.dies else n
        pwr := { s.chip.pwr with inReset := false }
        boot := { Boot.reset with
          step := 1, bootSel := bootSel, rcvPort := rcvPort, smbAddr := smbAddr, slotB := decide (bootSel = 0b01#2) } } }
  else s

/-! ### Fuses (R458–R460) -/

/-- Index of the highest blown bit among the low `n` plus one, or 0 (R459). -/
def highestBlown (v : BitVec 64) : Nat → Nat
  | 0 => 0
  | n + 1 => if v.getLsbD n then n + 1 else highestBlown v n

/-- The anti-rollback counter (R459). -/
def Root.arbCounter (r : Root) : Nat := highestBlown r.fuses.arb 64

/-- FUSE_ARM (R460): the word 0x4655_5340 arms; any other first write does not. A write while a blow runs is ignored
and sets result BUSY. -/
def fuseArm (value : Reg32) (r : Root) : Root :=
  if r.blow.isSome then { r with result := .busy }
  else if value.toNat < 16 ∧ value ≠ 1#32 ∧ value ≠ 2#32 then r
  else if value = 0x46555340#32 then { r with armed := true }
  else if r.armed then { r with armed := false }
  else { r with result := .notArmed }

/-- FUSE_ARM_EXPIRY (R460): 1 ms has passed. -/
def fuseArmExpiry (r : Root) : Root := { r with armed := false }

/-- ADVANCE_COUNTER (R460): with the arm in force, blows the counter up to the running image's security version. -/
def advanceCounter (version : Nat) (r : Root) : Root :=
  if r.blow.isSome then { r with result := .busy }
  else if !r.armed then { r with result := .notArmed }
  else if version ≤ r.arbCounter then { r with armed := false, result := .ok }
  else { r with armed := false, blow := some (.counter version) }

/-- DEBUG_LOCK (R460): with the arm in force, blows the four debug_lock copies. -/
def debugLock (r : Root) : Root :=
  if r.blow.isSome then { r with result := .busy }
  else if !r.armed then { r with result := .notArmed }
  else { r with armed := false, blow := some .lock }

/-- FUSE_BLOW_DONE (R460): the bits are blown; when they do not read back blown the result says so, and a free choice of
them is. -/
def fuseBlowDone (verified : Bool) (draw : Nat) (r : Root) : Root :=
  match r.blow with
  | none => r
  | some b =>
    if verified then
      let f := match b with
        | .counter n => { r.fuses with arb := r.fuses.arb ||| BitVec.ofNat 64 (2 ^ n - 1) }
        | .lock => { r.fuses with debugLock := 0b1111#4 }
      { r with blow := none, result := .ok, fuses := f }
    else { r.cutBlow (Config.free draw) with result := .verifyFailed }

/-! ### Recovery (R457) -/

/-- The recovery function is presented (R457): boot has failed or recovery was selected, the main rails are up, and the PLLs have
locked, or the boot ended because one did not (R473). Log 33 (DESIGN CHOICE). -/
def Chip.recovering (c : Chip) : Bool :=
  c.alive && (c.boot.state == .failed || c.boot.state == .recovery) &&
    (c.clk.stage == .locked || (c.clk.stage == .armed && c.boot.failCode == Fail.hardware))

/-- NVM size S in bytes. Log 31 (PRESUMED). -/
def Root.nvmSize (r : Root) : Nat := 2 ^ (20 + r.nvmLog2)

/-- A recovery command (1 read, 2 erase, 3 program) starts unless one is in progress; `data` is what the host put into
the buffer before a program. The registers keep address and length. Log 31 (PRESUMED). -/
def rcvStart (op : Nat) (addr : BitVec 28) (len : BitVec 16) (data : Bytes) (r : Root) : Root :=
  if r.rcvOp.isSome then r
  else
    { r with rcvAddr := addr.toNat, rcvLen := len.toNat, rcvOp := some op
             rcvBuf := if op = 3 then twriteN 0#8 r.rcvBuf 0 (data.take 32768) else r.rcvBuf }

/-- The operation in progress ends. A range beyond S does nothing and gives result 0b01; a failure the NVM reports,
0b10, leaves the range undefined (free bytes). A length of 0 means 32,768; programming can only clear bits of what an
erase set. Log 31 (PRESUMED). -/
def Root.rcvEnd (r : Root) (nvmOk : Bool) (draw : Nat) : Root :=
  match r.rcvOp with
  | none => r
  | some op =>
    let n := r.rcvBytes
    if r.nvmSize < r.rcvAddr + n then { r with rcvOp := none, rcvResult := 1 }
    else if !nvmOk then { r.cutNvm (fun i => Config.free (draw + i)) with rcvOp := none, rcvResult := 2 }
    else
      let range := r.rcvRange
      let r := { r with rcvOp := none, rcvResult := 0 }
      if op = 1 then { r with rcvBuf := twriteN 0#8 r.rcvBuf 0 (treadN 0xFF#8 r.nvm r.rcvAddr n) }
      else if op = 2 then
        { r with nvm := tdrop (fun k => decide (range.1 ≤ k) && decide (k < range.1 + range.2)) r.nvm }
      else
        let old := treadN 0xFF#8 r.nvm r.rcvAddr n
        let new := treadN 0#8 r.rcvBuf 0 n
        { r with nvm := twriteN 0xFF#8 r.nvm r.rcvAddr ((old.zip new).map fun p => p.1 &&& p.2) }

/-- RCV_OP_DONE (R457); a PERST_N of the recovery port that came meanwhile takes effect now (R495). Log 31 (PRESUMED). -/
def rcvOpDone (nvmOk : Bool) (draw : Nat) (r : Root) : Root :=
  let r := r.rcvEnd nvmOk draw
  if r.rcvReset then { r with rcvAddr := 0, rcvLen := 0, rcvResult := 0, rcvBuf := [], rcvReset := false } else r

end Sys2Proof.Machine
end

