-- ==== Sys2Proof/Machine/HostFns.lean ====
section
/-! DEFINITION. PCI Express functions and host links (spec/11, R493, R495): bus mastering, power states, resets, VF
enables, link changes, MSI-X masks. -/

namespace Sys2Proof.Machine

/-! ### Functions that exist -/

/-- Host port `port` runs as two links (R314): as the image header says until boot completes, then as configured.
Log 33 (DESIGN CHOICE). -/
def Chip.bifurcated (c : Chip) (port : Nat) : Bool :=
  if c.booted then c.bit (port / 4) (R.hepEpCfg (port % 4)) 0 else bitN c.boot.bifurcation port

/-- A link of a host port exists. -/
def Chip.hasLink (c : Chip) (port link : Nat) : Bool :=
  c.hasDie (port / 4) && (link == 0 || (link == 1 && c.bifurcated port))

/-- A function answers: boot is done, its link is up, and for a VF its PF enables it (R316, R318, R338). -/
def Chip.fnThere (c : Chip) : FnId → Bool
  | .pf port link => c.booted && c.hasLink port link && c.linkUp port link
  | .vf port link vf =>
    let f := c.fn (fnKey (.pf port link))
    c.booted && c.hasLink port link && c.linkUp port link && f.vfEnable && decide (vf < f.numVfs)

/-- The steward's PF is this link's. -/
def Chip.isSteward (c : Chip) (port link : Nat) : Bool := port == c.stwPort && link == c.stwLink

/-- Instances bound to VFs of a PF. Log 25 (DEDUCED). -/
def Chip.boundInsts (c : Chip) (port link : Nat) : List Nat :=
  (c.insts.filter fun e => e.2.st != .free && !e.2.orphaned && e.2.port == port && e.2.pf == link).map Prod.fst

/-- The channel functions that a PCI Express function governs: a VF its instance, a PF the steward and its VFs. -/
def Chip.governed (c : Chip) : FnId → List Nat
  | .pf port link => (if c.isSteward port link then [stewardFn] else []) ++ c.boundInsts port link
  | .vf port link vf => (c.instOfVf port link vf).toList

/-! ### Bus mastering and D3hot (R332–R334) -/

/-- A channel function may no longer master the bus: reads are quarantined, transfers end with MASTER_DISABLED, the
downstream ring halts (R332). Log 25 (DEDUCED). -/
def Chip.stopMaster (c : Chip) (f : Nat) : Chip :=
  let port := pfOfKey (c.fnPci f) / 2
  let (n, c) := c.endTransfers f St.masterDisabled
  (c.count (port / 4) (R.hepEvtCnt (port % 4) 4) n).haltRings f Halt.masterDisabled true false 0 (c.chan f).dsC

/-- Runs `f` with the messages of function `k` held pending. -/
def Chip.holdMsix (c : Chip) (k : Nat) (f : Chip → Chip) : Chip :=
  let mask := (c.fn k).fnMask
  let c := f (c.setFn k { c.fn k with fnMask := true })
  c.setFn k { c.fn k with fnMask := mask }

/-- A channel function masters the bus again: every stashed record first, then its pending messages (R333). -/
def Chip.resumeMaster (c : Chip) (f : Nat) : Chip :=
  let k := c.fnPci f
  (c.holdMsix k fun c => c.drain f).flushMsix k

/-- Changes the configuration registers of a function that is there. -/
def Chip.onFn (c : Chip) (fn : FnId) (f : PciFn → PciFn) : Chip := c.setFn (fnKey fn) (f (c.fn (fnKey fn)))

/-- BUS_MASTER_ENABLE_CLEAR (R332). -/
def busMasterEnableClear (fn : FnId) (c : Chip) : Chip :=
  if c.fnThere fn && (c.fn (fnKey fn)).bme then
    (c.governed fn).foldl (fun c f => c.stopMaster f) (c.onFn fn fun f => { f with bme := false })
  else c

/-- What follows once a function may master the bus again (R333). -/
def Chip.resumeFn (c : Chip) (fn : FnId) : Chip :=
  ((c.governed fn).foldl (fun c f => c.resumeMaster f) c).flushMsix (fnKey fn)

/-- BUS_MASTER_ENABLE_SET (R333). -/
def busMasterEnableSet (fn : FnId) (c : Chip) : Chip :=
  if c.fnThere fn && !(c.fn (fnKey fn)).bme then (c.onFn fn fun f => { f with bme := true }).resumeFn fn else c

/-- D3HOT_ENTRY (R334). -/
def d3hotEntry (fn : FnId) (c : Chip) : Chip :=
  if c.fnThere fn && !(c.fn (fnKey fn)).d3 then
    (c.governed fn).foldl (fun c f => c.stopMaster f) (c.onFn fn fun f => { f with d3 := true })
  else c

/-- D0_RETURN (R334). -/
def d0Return (fn : FnId) (c : Chip) : Chip :=
  if c.fnThere fn && (c.fn (fnKey fn)).d3 then (c.onFn fn fun f => { f with d3 := false }).resumeFn fn else c

/-! ### VFs (R317, R318, R321, R350) -/

/-- VF numbers from `lo` of a PF disappear: their instances are reset and orphaned, their registers return to reset. -/
def Chip.dropVfs (c : Chip) (port link lo : Nat) (cause : ResetCause) : Chip :=
  let gone := (c.boundInsts port link).filter fun i => decide (lo ≤ (c.inst i).vf)
  let c := gone.foldl (fun c i => c.resetVf i cause true) c
  let base := fnKey (.vf port link 0)
  { c with fns := tdrop (fun k => decide (base + lo ≤ k) && decide (k < base + 1024)) c.fns }

/-- VF_ENABLE_CLEAR (R318): every VF is removed. -/
def vfEnableClear (port link : Nat) (c : Chip) : Chip :=
  if c.fnThere (.pf port link) && (c.fn (fnKey (.pf port link))).vfEnable then
    (c.dropVfs port link 0 .vfGone).onFn (.pf port link) fun f => { f with vfEnable := false }
  else c

/-- VF_ENABLE_SET (R318): the PF's NumVFs functions appear. -/
def vfEnableSet (port link : Nat) (c : Chip) : Chip :=
  if c.fnThere (.pf port link) then c.onFn (.pf port link) fun f => { f with vfEnable := true } else c

/-- TotalVFs of a PF (R318). -/
def Chip.totalVfs (c : Chip) (port link : Nat) : Nat := c.fld (port / 4) (R.hepEpCfg (port % 4)) (if link = 0 then 6 else 16) 10

/-- NUMVFS_WRITE (R318): a value above TotalVFs is ignored; VFs that a lower value removes disappear. -/
def numvfsWrite (port link value : Nat) (c : Chip) : Chip :=
  if c.fnThere (.pf port link) && decide (value ≤ c.totalVfs port link) then
    let c := if (c.fn (fnKey (.pf port link))).vfEnable then c.dropVfs port link value .vfGone else c
    c.onFn (.pf port link) fun f => { f with numVfs := value }
  else c

/-! ### Resets (R335–R337) -/

/-- The steward PF's reset: its reads are quarantined, its transfers end as its mastering ends, an open commit is aborted,
both rings stand at RESET whatever codes they held; stashed records are counted and not written (R336), and DOE stands at
reset. Log 25 (DEDUCED). -/
def Chip.resetSteward (c : Chip) : Chip :=
  let f := stewardFn
  let k := c.fnPci f
  let (n, c) := (c.setFn k { c.fn k with bme := false }).endTransfers f St.masterDisabled
  let h := c.chan f
  let c := (c.count (c.stwPort / 4) (R.hepEvtCnt (c.stwPort % 4) 4) n).abortCommit h.dsC h.cache
  let h := c.chan f
  let c := if h.dsHalt = 0 ∨ h.cqHalt = 0 then c.count c.stwDie (R.chnHaltCnt Halt.reset) else c
  let c := c.count c.stwDie (R.insEvtCnt 1) (h.stash.length + h.waiting.length)
  let c := c.setChan f { h.discard [] with dsHalt := 8, cqHalt := 8, stash := [], full := false, waiting := [], shadowDirty := true }
  { c with trust := { c.trust with doeError := false, doe := Spdm.none } }

/-- A reset of a PF and of every VF it has (R335): `cause` is what its instances' records say. Log 25 (DEDUCED). -/
def Chip.resetPf (c : Chip) (port link : Nat) (cause : ResetCause) : Chip :=
  let c := c.dropVfs port link 0 cause
  let c := if c.isSteward port link then c.resetSteward else c
  c.setFn (fnKey (.pf port link)) PciFn.reset

/-- INITIATE_FLR (R335, R336). -/
def initiateFlr (fn : FnId) (c : Chip) : Chip :=
  if c.fnThere fn then
    match fn with
    | .pf port link => c.resetPf port link .vfGone
    | .vf port link vf =>
      let c := match c.instOfVf port link vf with
        | some i => c.resetVf i .flr false
        | none => c
      c.setFn (fnKey fn) PciFn.reset
  else c

/-- The fields of a link in HEP_EP_STATUS (R312). -/
def Chip.setHostLink (c : Chip) (port link speed width : Nat) (up flit : Bool) : Chip :=
  let a := R.hepEpStatus (port % 4)
  let was := c.bit (port / 4) a (16 * link)
  let word := b2n up + (speed % 8) * 2 + (width % 32) * 16 + b2n flit * 512
  let c := c.wfld (port / 4) a (16 * link) 10 (if up then word else 0)
  if was == up then c else c.wfld (port / 4) a (10 + 16 * link) 1 1

/-- A link goes down: a conventional reset of its functions (R337), or of the recovery function, and the link's status.
Log 24 (DESIGN CHOICE). -/
def Chip.resetLink (c : Chip) (port link : Nat) : Chip :=
  let c := if c.booted then c.resetPf port link .linkReset else c.setFn (fnKey (.pf port link)) PciFn.reset
  c.setHostLink port link 0 0 false false

/-- The links of a host port. -/
def Chip.linksOf (c : Chip) (port : Nat) : List Nat := if c.bifurcated port then [0, 1] else [0]

/-- CONVENTIONAL_RESET (R337): every function of the link, of both links for PERST_N, a pin whose level counts whatever the
supplies are (R493). Log 24 (DESIGN CHOICE). -/
def conventionalReset (port link : Nat) (cause : LinkResetCause) (c : Chip) : Chip :=
  if c.hasDie (port / 4) then
    if cause = .perst then
      let p := if c.pwr.perst.contains port then c.pwr.perst else c.pwr.perst ++ [port]
      let c := { c with pwr := { c.pwr with perst := p } }
      if c.alive then (c.linksOf port).foldl (fun c l => c.resetLink port l) c else c
    else if c.alive && c.hasLink port link then c.resetLink port link
    else c
  else c

/-- PERST_N of the recovery port while the recovery function is presented: the recovery registers return to reset, once
the operation in progress has completed (R495). Log 24 (DESIGN CHOICE). -/
def Root.perst (r : Root) : Root :=
  if r.rcvOp.isSome then { r with rcvReset := true }
  else { r with rcvAddr := 0, rcvLen := 0, rcvResult := 0, rcvBuf := [] }

/-- CONVENTIONAL_RESET on the whole machine. Log 24 (DESIGN CHOICE). -/
def conventionalResetAll (port link : Nat) (cause : LinkResetCause) (s : State) : State :=
  let c := s.chip
  let r := if c.recovering && cause = .perst && port == c.boot.rcvPort.toNat then s.root.perst else s.root
  { s with root := r, chip := conventionalReset port link cause c }

/-- PERST_RELEASE (R493): the link may train again; of an unpopulated host port it is ignored. Log 24 (DESIGN CHOICE). -/
def perstRelease (port : Nat) (c : Chip) : Chip :=
  if c.hasDie (port / 4) then { c with pwr := { c.pwr with perst := c.pwr.perst.filter (· != port) } } else c

/-- A host link may train (R339, R455, R457, R493): from boot step 5 on; once boot is done while its die's host endpoint
block is enabled; after a boot failure the recovery port's one link alone. -/
def Chip.mayTrain (c : Chip) (port link : Nat) : Bool :=
  c.alive && c.pwr.psPg && c.hasLink port link && !c.pwr.perst.contains port &&
    (if c.recovering then port == c.boot.rcvPort.toNat && link == 0
     else if c.booted then c.on (port / 4) 12
     else decide (5 ≤ c.boot.step))

/-- What a link may train at (R312, R314): 2.5 to 128 GT/s (codes 1 to 7), x1 to x16, at most x8 on a link of a bifurcated
port, in FLIT mode at 64 and 128 GT/s. -/
def Chip.linkFits (c : Chip) (port speed width : Nat) (flit : Bool) : Bool :=
  decide (1 ≤ speed ∧ speed ≤ 7) && [1, 2, 4, 8, 16].contains width && (decide (width ≤ 8) || !c.bifurcated port) && (flit || decide (speed < 6))

/-- HOST_LINK_CHANGE (R312): a link finishes training, or its data link layer goes down (R337). Log 24 (DESIGN CHOICE). -/
def hostLinkChange (port link : Nat) (up : Bool) (speed width : Nat) (flit : Bool) (c : Chip) : Chip :=
  if up then
    if c.mayTrain port link && c.linkFits port speed width flit then c.setHostLink port link speed width true flit else c
  else if c.alive && c.hasLink port link then c.resetLink port link
  else c

/-! ### MSI-X masks (R324, R325) -/

/-- Vectors in a function's MSI-X table. Log 23 (DESIGN CHOICE). -/
def tableVectors : FnId → Nat
  | .pf _ _ => 2048
  | .vf _ _ _ => 8

/-- MSIX_UNMASK (R325): one vector's mask is cleared, or the function's; pending messages go. Log 23 (DESIGN CHOICE). -/
def msixUnmask (fn : FnId) (vector : Option Nat) (c : Chip) : Chip :=
  if c.fnThere fn then
    let c := match vector with
      | none => c.onFn fn fun f => { f with fnMask := false }
      | some v => c.onFn fn fun f => if v < tableVectors fn ∧ v ∉ f.unmasked then { f with unmasked := f.unmasked ++ [v] } else f
    c.flushMsix (fnKey fn)
  else c

end Sys2Proof.Machine
end

