-- ==== Sys2Proof/Machine/PciConfig.lean ====
section
/-! DEFINITION. Configuration space of the functions (R313, R315–R325, R334, R338–R341) and the MSI-X tables of BAR2 (R322, R324,
R325). The offsets of capabilities are the model's: the part promises none (R320). -/

namespace Sys2Proof.Machine

/-! ### Functions and their identities (R316, R317) -/

/-- The function of a key. Log 10 (DESIGN CHOICE). -/
def fnOfKey (k : Nat) : FnId :=
  if k < 64 then .pf (k / 2) (k % 2) else .vf ((k - 64) / 2048) ((k - 64) / 1024 % 2) ((k - 64) % 1024)

/-- Device ID of a PF (R316): by the fused die count. -/
def Chip.pfDevice (c : Chip) : Nat := 0x8800 + c.dies

/-- Device ID of every VF, in its PF's SR-IOV capability (R316). -/
def vfDevice : Nat := 0x8810

/-- Device ID of the recovery function (R316, R339). -/
def rcvDevice : Nat := 0x88FF

/-- Class code of PFs and VFs, and of the recovery function (R316). -/
def netClass : Nat := 0x020000
def rcvClass : Nat := 0x088000

/-- The key names the recovery port's function after a boot failure (R339). -/
def Chip.isRcv (c : Chip) (k : Nat) : Bool := c.recovering && k == c.boot.rcvPort.toNat * 2 && c.linkUp (k / 2) 0

/-- What answers memory requests of a function: nothing, an Unsupported Request (`false`: D3hot, memory space disabled, an
FLR under way; R334, R335), or the function. VFs are reached only with a supported System Page Size (R321). -/
def Chip.memAnswer (c : Chip) (k : Nat) : Option Bool :=
  let f := c.fn k
  let p := c.fn (pfOfKey k)
  let flr := match fnOfKey k with
    | .vf port link vf => (match c.instOfVf port link vf with
      | some i => (c.inst i).st == .resetting && (c.inst i).cause == .flr
      | none => false)
    | .pf _ _ => false
  if !(c.fnThere (fnOfKey k) || c.isRcv k) || (decide (64 ≤ k) && !([1, 16].contains p.sysPage)) then none
  else some (!f.d3 && (if k < 64 then f.mse else p.vfMse) && !flr)

/-! ### Registers without a field of their own -/

/-- Offsets of the capabilities. Log 22 (PRESUMED). -/
def Cap.pm := 0x40
def Cap.pcie := 0x48
def Cap.msix := 0x90
def Cap.aer := 0x100
def Cap.ari := 0x140
def Cap.sriov := 0x180
def Cap.doe := 0x1C0
def Cap.dev3 := 0x300

/-- Head of an extended capability: identifier, version, next. -/
def capHead (id ver next : Nat) : Nat := id + ver * 2 ^ 16 + next * 2 ^ 20

/-- Address bits of a BAR of 2^k bytes: the low doubleword's. -/
def barMask (k : Nat) : Nat := if k = 0 then 0 else 2 ^ 32 - 2 ^ k

/-- The Expansion ROM's size exponent on a PF's die (R323). -/
def Chip.romLog2 (c : Chip) (pf : Nat) : Nat := c.fld (pf / 8) R.hepRomCfg 0 5

/-- The steward's PF. -/
def Chip.stwPf (c : Chip) : Nat := c.stwPort * 2 + c.stwLink

/-- Bits of a doubleword that hold what is written to them and do nothing else here (R319–R323). -/
def Chip.cfgKeep (c : Chip) (k off : Nat) : Nat :=
  let pf := decide (k < 64)
  let stw := k == c.stwPf
  let rcv := c.isRcv k
  let vfBar := pf && !rcv && [1, 16].contains (c.fn k).sysPage
  let page := barMask (if (c.fn k).sysPage = 16 then 16 else 12)
  if !pf then 0
  else match off with
    | 0x04 => 0x0540
    | 0x0C => 0xFF
    | 0x10 => if rcv then barMask 16 else barMask 26
    | 0x14 => 0xFFFFFFFF
    | 0x18 => if rcv then 0 else barMask 20
    | 0x1C => if rcv then 0 else 0xFFFFFFFF
    | 0x20 => if rcv || !stw then 0 else barMask 30
    | 0x24 => if rcv || !stw then 0 else 0xFFFFFFFF
    | 0x30 => if rcv || c.romLog2 k == 0 then 0 else barMask (c.romLog2 k) + 1
    | 0x50 => 0x010F
    | 0x58 => 0x00CB
    | 0x188 => if rcv then 0 else 0x10
    | 0x1A4 => if vfBar then page else 0
    | 0x1A8 => if vfBar then 0xFFFFFFFF else 0
    | 0x1AC => if vfBar then page else 0
    | 0x1B0 => if vfBar then 0xFFFFFFFF else 0
    | _ => 0

/-- Error bits that a write of 1 clears: the Status register's, Device Status's. -/
def cfgClear (off : Nat) : Nat := if off = 0x04 then 0xF9000000 else if off = 0x50 then 0x000F0000 else 0

/-- Type bits of a 64-bit non-prefetchable BAR that is implemented. -/
def barType (mask : Nat) : Nat := if mask = 0 then 0 else 4

/-! ### Reads -/

/-- The PCI Express capability (R312, R313, R315, R320). -/
def Chip.cfgPcie (c : Chip) (k off : Nat) : Nat :=
  let f := c.fn k
  let pf := decide (k < 64)
  let p := pfOfKey k
  let st := c.fld (p / 8) (R.hepEpStatus (p / 2 % 4)) (16 * (p % 2)) 10
  let width := if c.bifurcated (p / 2) then 8 else 16
  match off with
  | 0x48 => 0x10 + (if c.isRcv k then 0 else Cap.msix) * 2 ^ 8 + 0x0002 * 2 ^ 16
  | 0x4C => 0x10008022
  | 0x50 => if pf then b2n f.relaxed * 2 ^ 4 + (f.mps / 128).log2 * 2 ^ 5 + (f.mrrs / 128).log2 * 2 ^ 12 else 0
  | 0x54 => 7 + width * 2 ^ 4 + 2 ^ 22
  | 0x58 => if pf then (bitsN st 1 3 + bitsN st 4 5 * 2 ^ 4) * 2 ^ 16 else 0
  | 0x6C => 0x0003000F
  | 0x70 => if pf then f.ctv + b2n f.tag10 * 2 ^ 12 else 0
  | 0x74 => 0xFE
  | 0x78 => if pf then 7 + b2n (bitN st 9) * 2 ^ 26 else 0
  | _ => 0

/-- AER of a PF (R340); ECRC is not supported. -/
def Aer.word (a : Aer) (off : Nat) : Nat :=
  match off with
  | 0x104 => a.uncStatus
  | 0x108 => a.uncMask
  | 0x10C => a.uncSev
  | 0x110 => a.corStatus
  | 0x114 => a.corMask
  | 0x118 => a.first
  | _ => if 0x11C ≤ off ∧ off < 0x12C then a.header.getD ((off - 0x11C) / 4) 0 else 0

/-- SR-IOV of a PF (R317, R318, R321). -/
def Chip.cfgSriov (c : Chip) (pf off : Nat) : Nat :=
  let f := c.fn pf
  let total := c.totalVfs (pf / 2) (pf % 2)
  let type_ := barType (c.cfgKeep pf 0x1A4)
  match off with
  | 0x188 => b2n f.vfEnable + b2n f.vfMse * 2 ^ 3
  | 0x18C => total + total * 2 ^ 16
  | 0x190 => f.numVfs
  | 0x194 => 1 + 1 * 2 ^ 16
  | 0x198 => vfDevice * 2 ^ 16
  | 0x19C => 0x11
  | 0x1A0 => f.sysPage
  | 0x1A4 => type_
  | 0x1AC => type_
  | _ => 0

/-- The extended capabilities of a PF, in R320's order: where each stands, its identifier and version. The rate and link
capabilities are those of PCI Express 7.0; of them only Device 3 has fields that the spec names. Log 22 (PRESUMED). -/
def Chip.extCaps (c : Chip) (k : Nat) : List (Nat × Nat × Nat) :=
  if 64 ≤ k then [(Cap.aer, 0x000E, 1)]
  else
    [(Cap.aer, 0x0001, 2), (Cap.ari, 0x000E, 1), (Cap.sriov, 0x0010, 1)] ++ (if k = c.stwPf then [(Cap.doe, 0x002E, 2)] else []) ++
      [(0x200, 0x0019, 1), (0x230, 0x0025, 1), (0x240, 0x0026, 1), (0x270, 0x0027, 1), (0x2A0, 0x002A, 1), (0x2D0, 0x0031, 1),
       (Cap.dev3, 0x002F, 1), (0x320, Config.gen7Capability % 2 ^ 16, 1)]

/-- The head of the extended capability at an offset; none where none stands. -/
def Chip.extHead (c : Chip) (k off : Nat) : Option Nat :=
  let l := c.extCaps k
  match l.findIdx? fun e => e.1 == off with
  | none => none
  | some i => (l[i]?).map fun e => capHead e.2.1 e.2.2 (((l[i + 1]?).map Prod.fst).getD 0)

/-- What a doubleword of a function's configuration space reads, without the bits that `cfgKeep` and `cfgClear` hold
(R313, R315–R325, R339–R341). -/
def Chip.cfgBase (c : Chip) (k off : Nat) : Nat :=
  let f := c.fn k
  let pf := decide (k < 64)
  let rcv := c.isRcv k
  match off with
  | 0x00 => if pf then Config.vendorId % 2 ^ 16 + (if rcv then rcvDevice else c.pfDevice) * 2 ^ 16 else 0xFFFFFFFF
  | 0x04 => b2n (pf && f.mse) * 2 + b2n f.bme * 4 + 2 ^ 20
  | 0x08 => Config.revision.toNat + (if rcv then rcvClass else netClass) * 2 ^ 8
  | 0x10 => if pf then 4 else 0
  | 0x18 => barType (c.cfgKeep k 0x18)
  | 0x20 => barType (c.cfgKeep k 0x20)
  | 0x2C => c.rd (pfOfKey k / 8) R.hepSubsys
  | 0x34 => Cap.pm
  | 0x40 => 0x01 + Cap.pcie * 2 ^ 8 + 0x0003 * 2 ^ 16
  | 0x44 => (if f.d3 then 3 else 0) + 8
  | 0x90 => if rcv then 0 else 0x11 + ((if pf then 0x7FF else 7) + b2n f.fnMask * 2 ^ 14 + b2n f.msixEn * 2 ^ 15) * 2 ^ 16
  | 0x94 => if rcv then 0 else 2
  | 0x98 => if rcv then 0 else (if pf then 0x80000 else 0x800) + 2
  | _ =>
    if 0x48 ≤ off ∧ off < 0x84 then c.cfgPcie k off
    else if rcv || decide (off < 0x100) then 0
    else match c.extHead k off with
      | some h => h
      | none =>
        if !pf then 0
        else if off < Cap.ari then f.aer.word off
        else if Cap.sriov ≤ off ∧ off < Cap.doe then c.cfgSriov k off
        else if k = c.stwPf ∧ off = Cap.doe + 12 then b2n c.trust.doeError * 4
        else if off = Cap.dev3 + 4 then 6
        else if off = Cap.dev3 + 8 then b2n f.tag14 * 4
        else 0

/-- A doubleword of a function's configuration space. -/
def Chip.cfgRead (c : Chip) (k off : Nat) : Nat :=
  c.cfgBase k off ||| (tget 0 (c.fn k).cfg off &&& (c.cfgKeep k off ||| cfgClear off))

/-! ### Writes -/

/-- Replaces a function's registers. -/
def Chip.onKey (c : Chip) (k : Nat) (f : PciFn → PciFn) : Chip := c.setFn k (f (c.fn k))

/-- A bit of a register changes what the function is: `on_` where a write sets it, `off_` where it clears it. -/
def edge (old new : Bool) (on_ off_ : Chip → Chip) (c : Chip) : Chip :=
  if old == new then c else if new then on_ c else off_ c

/-- The fields of Device Control (R326, R328, R335): sizes that are not supported are ignored. Log 22 (PRESUMED). -/
def Chip.cfgDevCtl (c : Chip) (k v : Nat) : Chip :=
  let c := if k < 64 then
      c.onKey k fun f => { f with
        relaxed := bitN v 4
        mps := if bitsN v 5 3 ≤ 2 then 128 * 2 ^ bitsN v 5 3 else f.mps
        mrrs := if bitsN v 12 3 ≤ 5 then 128 * 2 ^ bitsN v 12 3 else f.mrrs }
    else c
  if bitN v 15 then initiateFlr (fnOfKey k) c else c

/-- The masks of MSI-X Message Control (R325); pending messages of unmasked vectors go. -/
def Chip.cfgMsix (c : Chip) (k v : Nat) : Chip :=
  (c.onKey k fun f => { f with fnMask := bitN v 30, msixEn := bitN v 31 }).flushMsix k

/-- AER: statuses clear by 1, masks and severities are stored. -/
def Aer.write (a : Aer) (off v : Nat) : Aer :=
  match off with
  | 0x104 => { a with uncStatus := a.uncStatus - (a.uncStatus &&& v) }
  | 0x108 => { a with uncMask := v &&& 0x057FF030 }
  | 0x10C => { a with uncSev := v &&& 0x057FF030 }
  | 0x110 => { a with corStatus := a.corStatus - (a.corStatus &&& v) }
  | 0x114 => { a with corMask := v &&& 0xF1C1 }
  | _ => a

/-- SR-IOV of a PF (R318, R321): VF Enable and VF Memory Space Enable, NumVFs, System Page Size while VF Enable is clear. -/
def Chip.cfgSriovWrite (c : Chip) (pf off v : Nat) : Chip :=
  match off with
  | 0x188 =>
    let c := c.onKey pf fun f => { f with vfMse := bitN v 3 }
    edge (c.fn pf).vfEnable (bitN v 0) (vfEnableSet (pf / 2) (pf % 2)) (vfEnableClear (pf / 2) (pf % 2)) c
  | 0x190 => numvfsWrite (pf / 2) (pf % 2) (bitsN v 0 16) c
  | 0x1A0 => if (c.fn pf).vfEnable then c else c.onKey pf fun f => { f with sysPage := v % 2 ^ 32 }
  | _ => c

/-- What a write of a doubleword does to the fields that rules name. -/
def Chip.cfgAct (c : Chip) (k off v : Nat) : Chip :=
  let fn := fnOfKey k
  let f := c.fn k
  let pf := decide (k < 64)
  match off with
  | 0x04 =>
    let c := if pf then c.onKey k fun f => { f with mse := bitN v 1 } else c
    edge f.bme (bitN v 2) (busMasterEnableSet fn) (busMasterEnableClear fn) c
  | 0x44 => if v % 4 = 3 then d3hotEntry fn c else if v % 4 = 0 then d0Return fn c else c
  | 0x50 => c.cfgDevCtl k v
  | 0x70 => if pf then c.onKey k fun f => { f with ctv := bitsN v 0 4, tag10 := bitN v 12 } else c
  | 0x90 => c.cfgMsix k v
  | _ =>
    if !pf || decide (off < Cap.aer) then c
    else if off < Cap.ari then c.onKey k fun f => { f with aer := f.aer.write off v }
    else if off = Cap.dev3 + 8 then c.onKey k fun f => { f with tag14 := bitN v 2 }
    else if k = c.stwPf ∧ off = Cap.doe + 8 then (if bitN v 0 then { c with trust := { c.trust with doeError := false } } else c)
    else if Cap.sriov ≤ off ∧ off < Cap.doe then c.cfgSriovWrite k off v
    else c

/-- Stores the bits of a doubleword that hold what is written to them and clears the error bits written 1. -/
def Chip.cfgStore (c : Chip) (k off v : Nat) : Chip :=
  let keep := c.cfgKeep k off
  if keep = 0 ∧ cfgClear off = 0 then c
  else
    let old := tget 0 (c.fn k).cfg off
    c.onKey k fun f => { f with cfg := tput 0 f.cfg off ((v &&& keep) ||| (old &&& cfgClear off &&& ((2 ^ 32 - 1) ^^^ v))) }

/-- A write of a doubleword of a function's configuration space. The recovery function has Command, power state and BAR0 only. -/
def Chip.cfgWrite (c : Chip) (k off v : Nat) : Chip :=
  let c := c.cfgStore k off v
  if c.isRcv k then
    match off with
    | 0x04 => c.onKey k fun f => { f with mse := bitN v 1, bme := bitN v 2 }
    | 0x44 => c.onKey k fun f => { f with d3 := if v % 4 = 3 then true else if v % 4 = 0 then false else f.d3 }
    | _ => c
  else c.cfgAct k off v

/-- How configuration requests to a function are answered (R316, R335, R338, R339): not at all over a link that is down, with
Retry Status until boot completes, as an Unsupported Request where no function is, or by the function. -/
inductive CfgAnswer where
  | silent | retry | absent | here
deriving DecidableEq, Repr

def Chip.cfgAnswer (c : Chip) (k : Nat) : CfgAnswer :=
  let p := pfOfKey k
  if !c.linkUp (p / 2) (p % 2) then .silent
  else if c.isRcv k || c.fnThere (fnOfKey k) then .here
  else if c.booted || c.recovering then .absent
  else .retry

/-! ### MSI-X tables (R322, R324, R325) -/

/-- A doubleword of BAR2: the MSI-X table, and its pending bits at half the size. -/
def Chip.vecRead (c : Chip) (k off : Nat) : Nat :=
  let f := c.fn k
  let n := tableVectors (fnOfKey k)
  let pba := if k < 64 then 0x80000 else 0x800
  if off < 16 * n then
    let e := tget (0, 0) f.vectors (off / 16)
    match off % 16 / 4 with
    | 0 => e.1 % 2 ^ 32
    | 1 => e.1 / 2 ^ 32
    | 2 => e.2
    | _ => b2n (!f.unmasked.contains (off / 16))
  else if pba ≤ off ∧ off - pba < n / 8 then
    maskOf ((f.pendVec.filter fun v => v / 32 == (off - pba) / 4).map (· % 32))
  else 0

/-- A write of a doubleword of BAR2; pending bits are read-only. A vector that is unmasked sends its pending message. -/
def Chip.vecWrite (c : Chip) (k off v : Nat) : Chip :=
  let n := tableVectors (fnOfKey k)
  let i := off / 16
  if 16 * n ≤ off then c
  else
    let put := fun (g : Nat × Nat → Nat × Nat) => c.onKey k fun f => { f with vectors := tmod (0, 0) f.vectors i g }
    match off % 16 / 4 with
    | 0 => put fun e => (e.1 / 2 ^ 32 * 2 ^ 32 + v / 4 * 4, e.2)
    | 1 => put fun e => (e.1 % 2 ^ 32 + v * 2 ^ 32, e.2)
    | 2 => put fun e => (e.1, v)
    | _ =>
      if bitN v 0 then c.onKey k fun f => { f with unmasked := f.unmasked.filter (· != i) }
      else msixUnmask (fnOfKey k) (some i) c

end Sys2Proof.Machine
end

