-- ==== Sys2Proof/Machine/Command.lean ====
section
/-! DEFINITION. The shapes of a command's meaning: an event of the part, an access to a register, a change of the fuse
and NVM side. A command whose condition does not hold leaves the state as it is. -/

namespace Sys2Proof.Machine

/-- What a command answers. -/
abbrev Outcome := Host.Outcome State Fault Refusal

/-- An access of a master to a register of the fuse and NVM side (block 33). -/
def rootAccess (m : Master) (f : Root → Root) (s : State) : State :=
  if m = .steward ∧ s.chip.stwRefuses then s.onChip fun c => c.unsupported (c.fnPci stewardFn) (bar4 0 ⟨33, 0⟩)
  else if s.chip.masterOk m then s.onRoot f else s

/-- FUSE_BLOW_DONE on the whole machine; ignored while no blow runs. -/
def blowDone (verified : Bool) (s : State) : State :=
  if s.root.blow.isSome then
    { s with root := fuseBlowDone verified s.chip.free s.root, chip := { s.chip with free := s.chip.free + 1 } }
  else s

/-- A recovery command (R457), while the recovery function is presented. -/
def rcvCommand (op : Nat) (addr : BitVec 28) (len : BitVec 16) (data : Bytes) (s : State) : State :=
  if s.chip.recovering then s.onRoot (rcvStart op addr len data) else s

/-- RCV_OP_DONE on the whole machine; ignored while no operation runs. -/
def rcvDone (nvmOk : Bool) (s : State) : State :=
  if s.root.rcvOp.isSome then
    { s with root := rcvOpDone nvmOk s.chip.free s.root, chip := { s.chip with free := s.chip.free + s.root.cutDraws } }
  else s

end Sys2Proof.Machine
end

