-- ==== Sys2Proof/Machine/Span.lean ====
section
/-! DEFINITION. The Huanyx Span Protocol (spec/15): neighbours, publication, the epoch barrier, the Span entries. -/

namespace Sys2Proof.Machine

/-! ### Frames (R418, R421) -/

/-- A received HSP frame: its header's fields and its body. -/
structure Hsp where
  ver : Nat
  typ : Nat
  domain : Nat
  src : Nat
  len : Nat
  seq : Nat
  body : Bytes
deriving DecidableEq, Repr

def Hsp.ofFrame (b : Bytes) : Hsp :=
  ⟨byteAt b 15, byteAt b 16, beAt b 18 4, beAt b 22 2 % 2 ^ 14, beAt b 24 2, beAt b 26 4, slice b 30 (beAt b 24 2)⟩

/-- A neighbour that may take part in a wave: UP at version 3 or above (R428). -/
def Neigh.inWave (n : Neigh) : Bool := n.st == .up && decide (3 ≤ n.version)

/-- Lanes of the wave neighbours. -/
def Chip.waveLanes (c : Chip) : List Nat := (c.sp.neigh.filter fun e => e.2.inWave).map Prod.fst

/-- The first version that a message type belongs to (R419). -/
def Hsp.since (typ : Nat) : Nat := if typ < 4 then 2 else 3

/-- A frame of R416 reaches a port whose die runs HSP. -/
def Chip.hspHere (c : Chip) (lane : Nat) (b : Bytes) : Bool :=
  c.on (lane / 64) 16 && c.spanPort lane && c.portUp lane && etherType b == 0x88B5 && byteAt b 14 == 0x48

/-- The checks that every HSP frame passes: R421, own device number (R415), a second device number (R417). Runs `g` on a
frame that passes. A HELLO in state UP from another device is a change of the neighbour's number and passes (R422).
Log 71 (DEDUCED). -/
def hspFrameIn (lane : Nat) (b : Bytes) (g : Hsp → Chip → Chip) (c : Chip) : Chip :=
  let d := lane / 64
  let h := Hsp.ofFrame b
  let n := c.neigh lane
  let hello := h.typ == 1
  let c := c.count d (R.spnEvtCnt 0)
  if h.domain ≠ c.rd d R.spnDomain ∨ b.length < 30 + h.len ∨ h.typ = 0 ∨ 7 < h.typ then c.count d (R.spnEvtCnt 1)
  else if h.src = c.fld d R.spnDevice 0 14 then
    (c.count d (R.spnEvtCnt 3)).raise Cls.spnDupId d { block := 16, unit := lane }
  else if n.st ≠ .down ∧ h.src ≠ n.device ∧ !(hello && n.st == .up) then c.count d (R.spnEvtCnt 4)
  else if !hello && (h.ver != n.version || n.st == .down || n.st == .versionFail || decide (h.ver < Hsp.since h.typ)) then
    c.count d (R.spnEvtCnt 1)
  else g h c

/-! ### The barrier wave (R428, R429) -/

/-- The group that makes this part a member of barrier `id`: of its open barrier commit, or set and not yet used. -/
def Chip.memberOf (c : Chip) (id : Nat) : Option BarGroup :=
  let open_ := c.commit.barrier && c.commit.phase != .closed && c.commit.phase != .undoing
  let mine := if open_ then c.sp.barrier.using_ else none
  (mine.orElse fun _ => c.sp.barrier.group).filter fun g => g.id == id

/-- This part's barrier commit for `id` is confirmed by every die. -/
def Chip.barrierReady (c : Chip) (id : Nat) : Bool :=
  c.commit.phase == .barrier && (c.sp.barrier.using_.any fun g => g.id == id)

/-- Sends a barrier message to lanes at each neighbour's version. -/
def Chip.sendWave (c : Chip) (lanes : List Nat) (typ : Nat) (body : Nat → Bytes) : Chip :=
  lanes.foldl (fun c l => c.spanSend l (c.neigh l).version typ 0 (body (c.neigh l).version)) c

def barHead (coord id : Nat) : Bytes := toBE 2 coord ++ toBE 2 0 ++ toBE 4 id

/-- Bodies of the barrier messages (R428). -/
def prepareBody (w : Wave) : Bytes := barHead w.coord w.id ++ toBE 2 w.epoch ++ toBE 2 w.members ++ toBE 4 0
def echoBody (coord id count flags : Nat) : Bytes := barHead coord id ++ toBE 2 count ++ toBE 1 flags ++ toBE 1 0
def goBody (coord id epoch gm tgo ver : Nat) : Bytes :=
  barHead coord id ++ toBE 2 epoch ++ toBE 2 0 ++ (if 4 ≤ ver then toBE 8 gm ++ toBE 8 tgo else [])
def abortBody (coord id reason : Nat) : Bytes := barHead coord id ++ toBE 1 reason ++ toBE 3 0

/-- The grandmaster identity that die 0 holds (R431). -/
def Chip.gmId (c : Chip) : Nat := c.rd 0 R.spnGmIdLo + c.rd 0 R.spnGmIdHi * 2 ^ 32

/-- A wave has ended: it joins the last 16 remembered. Log 72 (DESIGN CHOICE). -/
def Chip.endWave (c : Chip) (coord id : Nat) : Chip :=
  c.setBarrier fun b => { b with
    wave := (b.wave.filter fun w => !(w.coord == coord && w.id == id)), past := (b.past ++ [(coord, id, c.steady)]).drop (b.past.length - 15) }

/-- What a GO does to this part's commit (R429): T_sw is T_go, or 1 µs from now. -/
def Chip.takeGo (c : Chip) (id : Nat) (gm : Nat) (tgo : Option Nat) : Chip :=
  if c.barrierReady id then
    let soon := c.now + 1000 * 65536
    let t := match tgo with
      | some t => if c.bit 0 R.spnTime 0 && c.gmId == gm && decide (soon ≤ t * 65536) then t * 65536 else soon
      | none => soon
    c.setCommit fun m => { m with phase := .switching, tsw := t }
  else c

/-- What an ABORT does to this part's commit (R429): to the open barrier commit of that barrier, or to the one that will take up
the group set for it. -/
def Chip.takeAbort (c : Chip) (id reason : Nat) : Chip :=
  let b := c.sp.barrier
  let mine := c.commit.barrier && b.using_.any fun g => g.id == id
  if mine && (c.commit.phase == .barrier || c.commit.phase == .closing) then c.rejectCommit (reason, 0xFFFFFFFF)
  else if (mine && c.commit.phase == .opened) || b.group.any (fun g => g.id == id) then c.setBarrier fun b => { b with early := some reason }
  else c

/-- The coordinator sends ABORT and undoes its own commit. -/
def Chip.abortWave (c : Chip) (w : Wave) (reason : Nat) : Chip :=
  ((c.sendWave c.waveLanes 7 fun _ => abortBody w.coord w.id reason).takeAbort w.id reason).endWave w.coord w.id

/-- The coordinator's decision once every wave neighbour has echoed (R428 step 4). -/
def Chip.decideWave (c : Chip) (w : Wave) : Chip :=
  let own := if c.barrierReady w.id then 1 else 0
  if bitN w.flags 0 then c.abortWave w St.barrierEpochMismatch
  else if bitN w.flags 1 then c.abortWave w St.barrierGroupMismatch
  else if w.sum + own ≠ w.members ∨ own = 0 then c.abortWave w St.barrierCountMismatch
  else
    let lead := (c.sp.barrier.using_.map BarGroup.lead).getD 0
    let tgo := c.ns + lead * 1000
    let c := c.sendWave c.waveLanes 6 (goBody w.coord w.id w.epoch c.gmId tgo)
    (c.takeGo w.id c.gmId (some tgo)).endWave w.coord w.id

/-- Moves the wave on once no neighbour is awaited: the coordinator decides, any other part echoes when it is ready
(R428 steps 3 and 4), to a parent that is still a wave neighbour (R419). -/
def Chip.waveProgress (c : Chip) : Chip :=
  match c.sp.barrier.wave with
  | none => c
  | some w =>
    if !w.lanes.isEmpty || w.echoed then c
    else
      match w.parent with
      | none => c.decideWave w
      | some p =>
        let g := c.memberOf w.id
        if g.isSome && !c.barrierReady w.id then c
        else
          let open_ := (c.slot c.commit.slot).epoch
          let own := match g with
            | none => 0
            | some g => b2n (open_ != w.epoch) + 2 * b2n (g.coord != w.coord || g.count != w.members)
          let c := c.setBarrier fun b => { b with wave := some { w with echoed := true, begun := c.steady } }
          c.sendWave ([p].filter fun l => (c.neigh l).inWave) 5 fun _ => echoBody w.coord w.id (w.sum + b2n g.isSome) (w.flags ||| own)

/-- A lane of the wave is no longer awaited: it has echoed `count` with `flags`, or counts as having echoed nothing. -/
def Chip.laneEchoed (c : Chip) (lane count flags : Nat) : Chip :=
  match c.sp.barrier.wave with
  | none => c
  | some w =>
    if w.lanes.contains lane then
      (c.setBarrier fun b => { b with wave := some { w with
        lanes := w.lanes.filter (· != lane), sum := w.sum + count, flags := w.flags ||| flags } }).waveProgress
    else c

/-! ### Neighbours (R422, R426) -/

def neighCode : NeighSt → Nat
  | .down => 0
  | .init => 1
  | .up => 2
  | .versionFail => 3

/-- The SPAN_NEIGHBOUR record (R422). -/
def Chip.neighRec (c : Chip) (lane device : Nat) (st : NeighSt) (version : Nat) : Chip :=
  c.placeRec stewardFn (mkRec 0x10 0 1 0 0 0 0 0 (toLE 2 lane ++ toLE 2 device ++ toLE 1 (neighCode st) ++ toLE 1 version))

/-- Changes a neighbour's record; a change of state sets `changed`. Log 71 (DEDUCED). -/
def Chip.moveNeigh (c : Chip) (lane : Nat) (n : Neigh) : Chip :=
  let was := (c.neigh lane).st
  let c := c.setNeigh lane n
  if was = n.st then c else c.wfld (lane / 64) (R.spnNeigh (lane % 64)) 3 1 1

/-- The neighbour of a lane goes DOWN (R422, R426, R428). -/
def Chip.neighDown (c : Chip) (lane : Nat) : Chip :=
  let n := c.neigh lane
  if n.st = .down then c
  else
    let c := c.moveNeigh lane { n with st := .down, version := 0, unacked := [], queue := [] }
    if n.st = .up then
      let c := (c.neighRec lane n.device .down n.version).laneEchoed lane 0 0
      (c.macFlushAll (fun e => !e.locInst && e.loc == lane) true).2
    else c

/-- The full send of R426: every publishable learned entry of die 0's replica. Log 72 (DESIGN CHOICE). -/
def Chip.fullSend (c : Chip) (lane : Nat) : Chip :=
  let n := c.neigh lane
  let evs := (c.macTab 0).filterMap fun e => match e.2 with
    | some m => if !m.static && c.publishable m.locInst m.loc then some (fullMark + 2 ^ 60 + m.key) else none
    | none => none
  Chip.spanFlush lane 64 (c.setNeigh lane { n with queue := n.queue ++ evs })

/-- A HELLO moves the record on (R422). Log 71 (DEDUCED). -/
def Chip.helloIn (c : Chip) (lane : Nat) (h : Hsp) : Chip :=
  let n := c.neigh lane
  let n' := { n with
    device := h.src, interval := beAt h.body 2 2, mult := byteAt h.body 4, last := c.ns, heardAt := c.steady, heard := h.src }
  let d := lane / 64
  match n.st with
  | .down =>
    let v := min 4 (byteAt h.body 1)
    let n' := { n' with minV := byteAt h.body 0, maxV := byteAt h.body 1 }
    if v < 2 ∨ v < byteAt h.body 0 then
      let c := ((c.moveNeigh lane { n' with st := .versionFail, version := v }).count d (R.spnEvtCnt 2)).raise Cls.spnVersionFail d
        { block := 16, unit := lane }
      c.neighRec lane h.src .versionFail v
    else c.moveNeigh lane { n' with st := .init, version := v, seqRx := 0 }
  | .init =>
    if beAt h.body 6 2 = c.fld d R.spnDevice 0 14 then
      let c := c.moveNeigh lane { n' with st := .up, seqTx := 0, unacked := [], queue := [], lostDone := false }
      (c.neighRec lane h.src .up n.version).fullSend lane
    else c.setNeigh lane n'
  | .up => c.setNeigh lane n'
  | .versionFail => c.setNeigh lane n'

/-- HELLO (R422, R437): a received HELLO, or an HSP frame of a reserved type. A change of the neighbour's device number or
of its version range moves the record to DOWN first. Logs 42 (DESIGN CHOICE), 71 (DEDUCED). -/
def hello (lane : Nat) (frame : Bytes) (c : Chip) : Chip :=
  let typ := byteAt frame 16
  if !c.hspHere lane frame || (1 < typ && typ < 8) then c
  else
    hspFrameIn lane frame (fun h c =>
      let n := c.neigh lane
      let other := (n.st == .up && n.device != h.src) || n.minV != byteAt h.body 0 || n.maxV != byteAt h.body 1
      let c := if n.st ≠ .down ∧ other then c.neighDown lane else c
      c.helloIn lane h) c

/-- The body of this part's HELLO on a lane (R420). -/
def Chip.helloBody (c : Chip) (lane : Nat) : Bytes :=
  let d := lane / 64
  toBE 1 2 ++ toBE 1 4 ++ toBE 2 (c.fld d R.spnHello 0 14) ++ toBE 1 (c.fld d R.spnHello 16 8) ++ toBE 1 0 ++ toBE 2 (c.neigh lane).heard
    ++ toBE 2 lane ++ toBE 1 c.dies ++ toBE 1 (c.fld d R.spnTime 0 1) ++ toBE 2 (c.fld d R.spnTime 16 16)
    ++ toBE 4 (c.rd d R.spnGmIdHi) ++ toBE 4 (c.rd d R.spnGmIdLo) ++ toBE 2 0

/-- HELLO_TIMER (R419): the hello interval has passed since the die's last HELLOs. Log 12 (DEDUCED). -/
def helloTimer (die : Nat) (c : Chip) : Chip :=
  if c.on die 16 && decide (tget 0 c.sp.helloAt die + c.fld die R.spnHello 0 14 * 1000000 ≤ c.steady) then
    let c := c.setSp fun s => { s with helloAt := tput 0 s.helloAt die c.steady }
    ((List.range 64).filter fun l => c.spanPort (die * 64 + l)).foldl (fun c l =>
      let lane := die * 64 + l
      c.spanSend lane 2 1 0 (c.helloBody lane)) c
  else c

/-- NEIGHBOUR_HOLD_EXPIRY (R422): interval × hold multiplier, in ms, has passed since the last HELLO. Log 12 (DEDUCED). -/
def neighbourHoldExpiry (lane : Nat) (c : Chip) : Chip :=
  let n := c.neigh lane
  if c.on (lane / 64) 16 && decide (n.heardAt + n.interval * n.mult * 1000000 ≤ c.steady) then c.neighDown lane else c

/-- LINK_STATE_CHANGE, with what a link that goes down does to the port's neighbour (R223, R422). -/
def linkStateChangeSpan (lane : Nat) (up localFault remoteFault anDone : Bool) (c : Chip) : Chip :=
  let c := linkStateChange lane up localFault remoteFault anDone c
  if !c.alive || c.portUp lane then c else c.neighDown lane

/-- RX_STOP, in the same way: it takes the port's link down (R231, R422). -/
def rxStopSpan (lane received suspended : Nat) (c : Chip) : Chip :=
  let c := rxStop lane received suspended c
  if !c.alive || c.portUp lane then c else c.neighDown lane

/-! ### Publication (R423–R426) -/

/-- Applies one received entry on the die of the receiving port (R425): a learn joins the die's queue (R168), a removal goes to the
home die whether or not the table blocks are enabled (R173). Log 72 (DESIGN CHOICE). -/
def Chip.installEntry (c : Chip) (lane : Nat) (e : Bytes) : Chip :=
  let d := lane / 64
  let key := beAt e 2 2 % 4096 * 2 ^ 48 + beAt e 4 6
  let ev : LearnEv := ⟨key, false, lane, true⟩
  if byteAt e 0 = 1 then (if c.on d 4 then c.learnQueue d ev else c)
  else if byteAt e 0 = 2 then
    let h := c.homeDie key
    match c.learned h key with
    | some (k, m) => if c.learnedAt d ev && c.learnedAt h ev && c.reach d h && c.gateOpen h 4 then c.homeRemove h k m false else c
    | none => c
  else c

/-- The port installs publications (R425). -/
def Chip.installs (c : Chip) (lane : Nat) : Bool :=
  let i := lane % 64
  c.bit (lane / 64) (if i < 32 then R.spnPortInstallLo else R.spnPortInstallHi) (i % 32)

/-- Entries of a PUBLISH body. -/
def pubEntries (b : Bytes) : List Bytes :=
  (List.range (min (byteAt b 0) ((b.length - 4) / 12))).map fun k => slice b (4 + 12 * k) 12

/-- PUBLISH (R424, R425): taken in order and acknowledged; one out of order or repeated is acknowledged again. Log 71 (DEDUCED). -/
def publish (lane : Nat) (frame : Bytes) (c : Chip) : Chip :=
  if !c.hspHere lane frame || byteAt frame 16 != 2 then c
  else
    hspFrameIn lane frame (fun h c =>
      let n := c.neigh lane
      let next := wrapAdd 32 n.seqRx 1
      let c := if h.seq = next then
          let c := c.setNeigh lane { n with seqRx := next }
          if c.installs lane then (pubEntries h.body).foldl (fun c e => c.installEntry lane e) c else c
        else c
      c.spanSend lane n.version 3 (c.neigh lane).seqRx []) c

/-- PUB_ACK (R424): every frame up to the acknowledged one is released. -/
def pubAck (lane : Nat) (frame : Bytes) (c : Chip) : Chip :=
  if !c.hspHere lane frame || byteAt frame 16 != 3 then c
  else
    hspFrameIn lane frame (fun h c =>
      let n := c.neigh lane
      let left := n.unacked.filter fun u => decide (2 ^ 31 ≤ diff32 h.seq u.1)
      Chip.spanFlush lane 64 (c.setNeigh lane { n with unacked := left, resent := if left.length < n.unacked.length then c.steady else n.resent })) c

/-- PUBLISH_RESEND (R424): 1 ms has passed without an acknowledgement. Log 12 (DEDUCED). -/
def publishResend (lane : Nat) (c : Chip) : Chip :=
  let n := c.neigh lane
  match n.unacked with
  | [] => c
  | (seq, evs) :: _ =>
    if c.on (lane / 64) 16 && n.st == .up && decide (n.resent + 1000000 ≤ c.steady) then
      ((c.setNeigh lane { n with resent := c.steady }).count (lane / 64) (R.spnEvtCnt 5)).spanSend lane n.version 2 seq (pubBody evs)
    else c

/-! ### Span entries (R432) -/

/-- SPAN_BARRIER_GROUP. -/
def spanBarrierGroup (c : Chip) : Chip :=
  runEntry stewardFn 0x60 (fun e c =>
    let b := e.bytes
    let g : BarGroup := ⟨leAt b 8 4, leAt b 12 2, leAt b 14 2, leAt b 16 2, leAt b 18 2⟩
    if !c.en 0 16 then c.endWith stewardFn e St.spanDisabled
    else if 16383 < g.coord ∨ g.count = 0 ∨ 16384 < g.count ∨ g.timeout = 0 then c.endWith stewardFn e St.indexRange
    else if c.commit.barrier && c.commit.phase != .closed then c.endWith stewardFn e St.instanceBusy
    else (c.setBarrier fun x => { x with group := some g, early := none }).endWith stewardFn e St.ok) c

/-- The 16 bytes of a neighbour (R432). -/
def Chip.neighEntry (c : Chip) (lane : Nat) : Bytes :=
  let n := c.neigh lane
  toLE 2 lane ++ toLE 1 (neighCode n.st) ++ toLE 1 n.version ++ toLE 2 n.device ++ toLE 2 0 ++ toLE 8 n.last

/-- SPAN_NEIGHBOURS: the write of its list is a transfer of the steward. Log 69 (DESIGN CHOICE). -/
def spanNeighbours (c : Chip) : Chip :=
  runEntry stewardFn 0x61 (fun e c =>
    let out := (c.lanes.filter fun l => c.spanPort l).flatMap c.neighEntry
    if leAt e.bytes 12 4 < out.length then c.endWith stewardFn e St.lengthInvalid 0 0 (toLE 4 out.length)
    else
      c.sendOutput e 0 (leAt e.bytes 16 8) out []) c

/-- SPAN_REPUBLISH. -/
def spanRepublish (c : Chip) : Chip :=
  runEntry stewardFn 0x62 (fun e c =>
    let lane := leAt e.bytes 8 2
    let go := fun (c : Chip) (l : Nat) => if (c.neigh l).st = .up then c.fullSend l else c
    if !c.en 0 16 then c.endWith stewardFn e St.spanDisabled
    else if lane = 0xFFFF then (c.upNeighbours.foldl go c).endWith stewardFn e St.ok
    else if !c.spanPort lane then c.endWith stewardFn e St.indexRange
    else (go c lane).endWith stewardFn e St.ok) c

/-! ### Commands of the barrier (R427–R430) -/

/-- The timeout of a group in ns. -/
def BarGroup.limit (g : BarGroup) : Nat := g.timeout * 1000000

/-- BARRIER_START (R428 step 1). -/
def barrierStart (c : Chip) : Chip :=
  match c.sp.barrier.using_ with
  | none => c
  | some g =>
    if !c.alive || c.commit.phase != .barrier || g.coord != c.spanDevice || c.sp.barrier.wave.isSome then c
    else
      let lanes := c.waveLanes
      let w : Wave := ⟨g.coord, g.id, (c.slot c.commit.slot).epoch, g.count, none, lanes, 0, 0, false, c.steady, g.limit⟩
      ((c.setBarrier fun b => { b with wave := some w }).sendWave lanes 4 fun _ => prepareBody w).waveProgress

/-- The part remembers a wave that has ended: for 10 s (R428). -/
def Chip.knows (c : Chip) (coord id : Nat) : Bool :=
  c.sp.barrier.past.any fun p => p.1 == coord && p.2.1 == id && decide (c.steady < p.2.2 + 10000000000)

/-- The shared form of a received barrier message: of type `typ`, from a wave neighbour, of a wave that has not ended;
`g` gets the coordinator, the identifier and the body. -/
def barrierIn (lane typ : Nat) (frame : Bytes) (g : Nat → Nat → Bytes → Chip → Chip) (c : Chip) : Chip :=
  if !c.hspHere lane frame || byteAt frame 16 != typ then c
  else
    hspFrameIn lane frame (fun h c =>
      let coord := beAt h.body 0 2
      let id := beAt h.body 4 4
      if (c.neigh lane).inWave && !c.knows coord id then g coord id h.body c else c) c

/-- BARRIER_PREPARE (R428 step 2). -/
def barrierPrepare (lane : Nat) (frame : Bytes) (c : Chip) : Chip :=
  barrierIn lane 4 frame (fun coord id b c =>
    match c.sp.barrier.wave with
    | some w =>
      if w.coord = coord ∧ w.id = id then c.laneEchoed lane 0 0
      else c.sendWave [lane] 5 fun _ => echoBody coord id 0 2
    | none =>
      let lanes := c.waveLanes.filter (· != lane)
      let w : Wave := ⟨coord, id, beAt b 8 2, beAt b 10 2, some lane, lanes, 0, 0, false, c.steady, ((c.memberOf id).map BarGroup.limit).getD 0⟩
      ((c.setBarrier fun x => { x with wave := some w }).sendWave lanes 4 fun _ => prepareBody w).waveProgress) c

/-- This part is in the wave named. -/
def Chip.inWave (c : Chip) (coord id : Nat) : Bool := c.sp.barrier.wave.any fun w => w.coord == coord && w.id == id

/-- BARRIER_ECHO (R428 steps 3 and 4). -/
def barrierEcho (lane : Nat) (frame : Bytes) (c : Chip) : Chip :=
  barrierIn lane 5 frame (fun coord id b c =>
    if c.inWave coord id then c.laneEchoed lane (beAt b 8 2) (byteAt b 10 % 4) else c) c

/-- BARRIER_GO (R428, R429). Log 72 (DESIGN CHOICE). -/
def barrierGo (lane : Nat) (frame : Bytes) (c : Chip) : Chip :=
  barrierIn lane 6 frame (fun coord id b c =>
    let long := decide (4 ≤ (c.neigh lane).version)
    let gm := if long then beAt b 12 8 else 0
    let tgo := if long then beAt b 20 8 else 0
    let c := c.sendWave (c.waveLanes.filter (· != lane)) 6 (goBody coord id (beAt b 8 2) gm tgo)
    (c.takeGo id gm (if long then some tgo else none)).endWave coord id) c

/-- BARRIER_ABORT (R428, R429). Log 72 (DESIGN CHOICE). -/
def barrierAbort (lane : Nat) (frame : Bytes) (c : Chip) : Chip :=
  barrierIn lane 7 frame (fun coord id b c =>
    let c := c.sendWave (c.waveLanes.filter (· != lane)) 7 fun _ => abortBody coord id (byteAt b 8)
    (c.takeAbort id (byteAt b 8)).endWave coord id) c

/-- BARRIER_TIMEOUT (R428 step 4). Log 12 (DEDUCED). -/
def barrierTimeout (c : Chip) : Chip :=
  match c.sp.barrier.wave with
  | none => c
  | some w =>
    if c.alive && w.parent.isNone && decide (w.begun + w.limit ≤ c.steady) then c.abortWave w St.barrierTimeout else c

/-- A member of barrier `g` whose commit has been confirmed waits past its timeout (R430): after its echo, or without a PREPARE. -/
def Chip.barrierStalls (c : Chip) (g : BarGroup) : Bool :=
  match c.sp.barrier.wave.filter fun w => w.id == g.id, c.sp.barrier.ready with
  | some w, _ => w.parent.isSome && w.echoed && decide (w.begun + g.limit ≤ c.steady)
  | none, some t => decide (t + g.limit ≤ c.steady)
  | none, none => false

/-- SPN_BARRIER_STALL (R430): reported once. Log 12 (DEDUCED). -/
def spnBarrierStall (c : Chip) : Chip :=
  match c.sp.barrier.using_ with
  | none => c
  | some g =>
    if c.alive && c.commit.phase == .barrier && !c.sp.barrier.stalled && c.barrierStalls g then
      (c.setBarrier fun x => { x with stalled := true }).raise Cls.spnBarrierStall 0 { block := 16 }
    else c

/-- BARRIER_CANCEL (R430): the barrier is abandoned. The part goes on as a relay in a wave under way. Log 72 (DESIGN CHOICE). -/
def barrierCancel (value : Reg32) (c : Chip) : Chip :=
  if !value.getLsbD 0 then c
  else if c.commit.barrier && (c.commit.phase == .barrier || c.commit.phase == .closing) then
    (c.rejectCommit (St.barrierCancelled, 0xFFFFFFFF)).waveProgress
  else if c.commit.barrier && c.commit.phase == .opened then c.setBarrier fun b => { b with early := some St.barrierCancelled }
  else if (c.sp.barrier.group).isSome then c.setBarrier fun b => { b with group := none, early := none }
  else c

/-- CHANGES_CONFIRMED, with the wave it may let go on (R428 step 3). -/
def changesConfirmedWave (c : Chip) : Chip := (changesConfirmed c).waveProgress

/-- COMMIT_UNDO_DONE, with the wave in which the part is from then on a relay (R428 step 3). -/
def commitUndoDoneWave (c : Chip) : Chip := (commitUndoDone c).waveProgress

/-- WAVE_MEMORY_EXPIRY (R428): 10 s have passed since the wave ended. -/
def waveMemoryExpiry (coord id : Nat) (c : Chip) : Chip :=
  if c.alive then
    c.setBarrier fun b => { b with past := b.past.filter fun p =>
      !(p.1 == coord && p.2.1 == id) || decide (c.steady < p.2.2 + 10000000000) }
  else c

end Sys2Proof.Machine
end

