-- ==== Sys2Proof/Machine/Blocks.lean ====
section
/-! DEFINITION. Enabling and disabling blocks (R532): the check each block makes at its enable, and what each does when
its enable is cleared. -/

namespace Sys2Proof.Machine

/-! ### Checks at enable -/

/-- First lanes of a die's ports. -/
def Chip.diePorts (c : Chip) (d : Nat) : List Nat := ((List.range 64).map fun l => d * 64 + l).filter c.isPort

/-- A refusal: the class and the cause byte of its record. -/
abbrev Refuse := Option (Nat × Nat)

/-- A refusal with `cls` when `bad` holds. -/
def refuseIf (bad : Bool) (cls : Nat) : Refuse := if bad then some (cls, 0) else none

/-- Parser block: a start node at or above the node count (PGR_START_NET_p, PGR_START_HOST). -/
def Chip.parserCheck (c : Chip) (d : Nat) : Refuse :=
  let n := c.fld d R.pgrGraphInfo 0 9
  refuseIf (decide (n ≤ c.fld d R.pgrStartHost 0 8) ||
    (c.diePorts d).any fun l => decide (n ≤ c.fld d (R.pgrStartNet (l % 64)) 0 8)) Cls.parseGraphInvalid

/-- Headgate block: the scan window, the hash profiles (R141), the indirection table (R541). -/
def Chip.headgateCheck (c : Chip) (d : Nat) : Refuse :=
  let w := c.fld d R.hgtScanCfg 0 5
  if w = 0 ∨ 16 < w then some (Cls.scanCfgInvalid, 0)
  else
    let entries := (List.range 32).any fun w => (List.range 8).any fun k => !c.hasDie (c.fld d (R.hgtIndir w) (4 * k) 3)
    refuseIf (entries || (List.range 16).any fun k => !c.hashProfileOk d k) Cls.hashProfileInvalid

/-- A source field of `n` bytes runs past key source byte 167 (R94). -/
def fieldPast (src n : Nat) : Bool := decide (168 < src + n)

/-- The fields of a key profile that R94 refuses. Log 53 (DESIGN CHOICE). -/
def Chip.profileBad (c : Chip) (d k : Nat) : Bool :=
  let lpm := R.clsProfLpm k
  let tsel := (List.range 20).any fun w => (List.range 4).any fun j =>
    let s := c.fld d (R.clsProfTsel k w) (8 * j) 8
    decide (168 ≤ s) && decide (s ≤ 254)
  tsel || fieldPast (c.fld d lpm 0 8) (if c.bit d (R.clsProfCtrl k) 4 then 16 else 4) || fieldPast (c.fld d lpm 8 8) 2 ||
    fieldPast (c.fld d (R.clsProfMac k) 0 8) 6 || fieldPast (c.fld d (R.clsProfMac k) 8 8) 2 ||
    fieldPast (c.fld d (R.clsProfDirect k) 0 8) 2

/-- Classification block (R94). Log 53 (DESIGN CHOICE). -/
def Chip.classCheck (c : Chip) (d : Nat) : Refuse := refuseIf ((List.range 16).any (c.profileBad d)) Cls.clsProfileInvalid

/-- Table block: age intervals and learning source fields (TBL_MAC_AGE, TBL_FLOW_AGE, TBL_LEARN_PROF_k). Log 53 (DESIGN CHOICE). -/
def Chip.tableCheck (c : Chip) (d : Nat) : Refuse :=
  refuseIf (decide (3600 < c.fld d R.tblMacAge 0 12) || decide (3600 < c.fld d R.tblFlowAge 0 12) ||
    (List.range 16).any fun k => fieldPast (c.fld d (R.tblLearnProf k) 8 8) 6) Cls.tblCfgInvalid

/-- Local shapers that the scheduling nodes of a die name, one entry for each node (R202). -/
def Chip.namedShapers (c : Chip) (d : Nat) : List Nat :=
  let ports := (c.diePorts d).flatMap fun l =>
    c.fld d (R.schPortCtrl (l % 64)) 8 24 :: (List.range 8).map fun tc => c.fld d (R.schPortCshp (l % 64) tc) 0 24
  let hosts := (List.range 4).map fun h => c.fld d (R.schHostShp h) 0 24
  let insts := (c.qs.qos.filter fun e => e.1 / 4096 == d && e.1 % 4096 / 512 == d).flatMap fun e => e.2.shaper :: e.2.classShapers
  (ports ++ hosts ++ insts).filter fun s => decide (s < 131072)

/-- Buffer block (R188, R202): shares within 1,024 to 262,144 cells, a tenant pool of 65,536, on_die within share of each
port, and at most 64 nodes naming one shaper. Log 53 (DESIGN CHOICE). -/
def Chip.bufferCheck (c : Chip) (d : Nat) : Refuse :=
  let a := c.fld d R.bufPoolThrough 0 19
  let b := c.fld d R.bufPoolEngine 0 19
  let e := c.fld d R.bufPoolCulvert 0 19
  let ok := fun n => decide (1024 ≤ n) && decide (n ≤ 262144)
  let named := c.namedShapers d
  refuseIf (!ok a || !ok b || !ok e || decide (524288 - 16384 - 13312 < a + b + e + 65536) ||
    (c.allDies.any fun f => (c.diePorts f).any fun l => decide (c.share d false l < c.onDieCap d false l)) ||
    named.any fun s => decide (64 < named.count s)) Cls.bufCfgInvalid

/-- Through-facing ports of a die. -/
def Chip.throughPorts (c : Chip) (d : Nat) : List Nat := (c.diePorts d).filter c.throughFacing

/-- A latency of `v` half nanoseconds is below the minimum of R55 between two ports, whose speed-step margin is M × 8 ×
(1/R_in − 1/R_out) at 200 Gbit/s a lane. -/
def belowMin (v base m win wout : Nat) : Bool := decide (v * 100 * win * wout < base * 200 * win * wout + m * 8 * (wout - win))

/-- SCH_FLUME_LAT_i of die `e` is out of bounds (R55, R56): none, or the cause byte. -/
def Chip.latBad (c : Chip) (e i : Nat) : Option Nat :=
  let v := c.fld e (R.schFlumeLat i) 0 16
  let base := if i = e then 540 else 660
  if 40000 < v then some 1
  else if v < 2 * base ∨ (c.throughPorts i).any (fun x => (c.throughPorts e).any fun y =>
      belowMin v base (c.maxFrame x) (c.portWidth x) (c.portWidth y)) then some 0
  else none

/-- Scheduling block (R56): every row of a populated ingress die. One event is reported, with the cause byte of the lowest
ingress die whose row is out of bounds. Log 74 (DESIGN CHOICE). -/
def Chip.schedCheck (c : Chip) (d : Nat) : Refuse :=
  (c.allDies.findSome? (c.latBad d)).map fun cause => (Cls.flumeLatBelowMin, cause)

/-- What R225 forbids of the port at lane `l` of die `d`. -/
def Chip.portBad (c : Chip) (d l : Nat) : Bool :=
  let lane := d * 64 + l
  let n := c.portWidth lane
  let cfg := R.macPortCfg l
  let fc := R.macPortFc l
  decide (l % n ≠ 0) ||
    ((c.diePorts d).any fun m => m != lane && decide (m < lane + n) && decide (lane < m + c.portWidth m)) ||
    decide (c.maxFrame lane < 1518) || decide (16384 < c.maxFrame lane) || c.fld d cfg 3 2 == 3 ||
    (c.bit d fc 0 && c.fld d fc 8 8 != 0) ||
    (c.fld d fc 16 2 != 0 && decide (c.fld d (R.macPortFcthr l) 0 16 ≤ c.fld d (R.macPortFcthr l) 16 16))

/-- MAC block (R225). -/
def Chip.macCheck (c : Chip) (d : Nat) : Refuse := refuseIf ((c.diePorts d).any fun l => c.portBad d (l % 64)) Cls.macCfgInvalid

/-- Cipher-scheduling block: inline weight 0 (CIP_SHARE). -/
def Chip.cipherCheck (c : Chip) (d : Nat) : Refuse := refuseIf (c.fld d R.cipShare 0 4 == 0) Cls.cipCfgInvalid

/-- MACsec cores of a port (R273): 8 or 10 a lane and direction. -/
def Chip.macsecCores (c : Chip) (lane : Nat) : Nat :=
  let r := c.macsecReg lane
  c.portWidth lane * (b2n (bitN r 0) + b2n (bitN r 1)) * (if bitN r 2 then 10 else 8)

/-- Cores reserved for through-class MACsec, and those of tenant MACsec (R273). -/
def Chip.macsecSums (c : Chip) (d : Nat) : Nat × Nat :=
  let sum := fun (q : Nat → Bool) => (((c.diePorts d).filter q).map c.macsecCores).sum
  (sum c.throughFacing, sum fun l => !c.throughFacing l)

/-- Non-through lanes of a die with MACsec in either direction (R62, R273). -/
def Chip.macsecLanes (c : Chip) (d : Nat) : Nat :=
  (((c.diePorts d).filter fun l => !c.throughFacing l && c.macsecReg l % 4 != 0).map c.portWidth).sum

/-- Under Crypt more than 16 non-through lanes of a die run MACsec (R62). -/
def Chip.macsecOver (c : Chip) (d : Nat) : Bool := c.mode == 1 && decide (16 < c.macsecLanes d)

/-- MACsec block: validate 0b11, a pool below 64 (R273), or more lanes than Crypt takes (R62). Log 53 (DESIGN CHOICE). -/
def Chip.macsecCheck (c : Chip) (d : Nat) : Refuse :=
  let (t, n) := c.macsecSums d
  refuseIf (decide (768 < t + n + 64) || c.macsecOver d || (List.range 64).any fun p => c.fld d (R.cipMacsecPort p) 4 2 == 3) Cls.cipCfgInvalid

/-- Host endpoint block: ROM window, link 1 VFs without bifurcation, more than 512 VFs on the die (R318). -/
def Chip.hostCheck (c : Chip) (d : Nat) : Refuse :=
  let rom := c.fld d R.hepRomCfg 0 5
  let vfs := fun h lo => c.fld d (R.hepEpCfg h) lo 10
  refuseIf ((rom != 0 && (decide (rom < 20) || decide (24 < rom))) ||
    ((List.range 4).any fun h => !c.bit d (R.hepEpCfg h) 0 && vfs h 16 != 0) ||
    decide (512 < ((List.range 4).map fun h => vfs h 6 + vfs h 16).sum)) Cls.hepCfgInvalid

/-- DMA block: a staging cap of 0 (DMA_STAGE_CAP). Log 53 (DESIGN CHOICE). -/
def Chip.dmaCheck (c : Chip) (d : Nat) : Refuse := refuseIf (c.fld d R.dmaStageCap 0 11 == 0) Cls.dmaCfgInvalid

/-- Span block: a hello interval outside 10 to 10,000 ms (SPN_HELLO). Log 53 (DESIGN CHOICE). -/
def Chip.spanCheck (c : Chip) (d : Nat) : Refuse :=
  let t := c.fld d R.spnHello 0 14
  refuseIf (decide (t < 10) || decide (10000 < t)) Cls.spnCfgInvalid

/-- The check that block `b` of die `d` makes at its enable: none, or the class that refuses. Log 53 (DESIGN CHOICE). -/
def Chip.enableCheck (c : Chip) (d b : Nat) : Refuse :=
  match b with
  | 0 => c.parserCheck d
  | 1 => c.headgateCheck d
  | 2 => c.classCheck d
  | 4 => c.tableCheck d
  | 5 => c.bufferCheck d
  | 6 => c.schedCheck d
  | 8 => c.macCheck d
  | 9 => c.cipherCheck d
  | 10 => c.macsecCheck d
  | 12 => c.hostCheck d
  | 15 => c.dmaCheck d
  | 16 => c.spanCheck d
  | _ => none

/-- What a block does on being enabled: CIP_CORES is computed (R273); the sweepers start a pass (R174); records that waited for the
write engine are written, stashed, error and verdict records (R409, R519, R525). -/
def Chip.afterEnable (c : Chip) (d b : Nat) : Chip :=
  if b = 10 then
    let (t, n) := c.macsecSums d
    c.wr d R.cipCores (t + n * 2 ^ 10 + (768 - t - n) * 2 ^ 20)
  else if b = 4 then c.sweepStart d
  else if b = 15 then
    let c := ((c.chans.map Prod.fst).filter fun f => c.fnDie f == d).foldl (fun c f => c.drain f) c
    if d = c.stwDie then c.logFlush.verdFlush else c
  else c

/-! ### Disabling -/

/-- Drops the packets that `q` picks, oldest first. Log 46 (DEDUCED). -/
def Chip.dropAll (c : Chip) (q : Pkt → Bool) (reason : Nat) (atQueue : Bool) : Chip :=
  (c.dp.pkts.filter q).foldl (fun c p => match c.pkt p.id with | some p => c.dropPkt p reason atQueue | none => c) c

/-- The packet is for a network port of die `d`. -/
def Pkt.toDie (p : Pkt) (d : Nat) : Bool := !p.dstInst && decide (p.dst / 64 = d)

/-- The packet is held for its departure time. -/
def Pkt.isHeld (p : Pkt) : Bool := match p.stage with | .held _ => true | _ => false

/-- Scheduling block (R61): through packets held for the die's ports are dropped. -/
def Chip.disableSched (c : Chip) (d : Nat) : Chip := c.dropAll (fun p => p.isHeld && p.toDie d) Dr.blockDisabled true

/-- MAC block (R225): every link of the die goes down; granted and held frames are discarded. -/
def Chip.disableMac (c : Chip) (d : Nat) : Chip :=
  let c := c.dropAll (fun p => (p.isHeld || p.stage == .window) && p.toDie d) Dr.blockDisabled true
  (c.diePorts d).foldl (fun c l => (c.setLink l false false false false Dr.blockDisabled).neighDown l) c

/-- Cipher-scheduling block (R65): packets of the die that wait for a cipher core are dropped. -/
def Chip.disableCipher (c : Chip) (d : Nat) : Chip :=
  let waiting := (tget [] c.cp.units d).filter fun u => !u.running && u.inline
  waiting.foldl (fun c u =>
    match u.kind with
    | .esp id => match c.pkt id with
      | some p => c.dropUnit d u p Dr.blockDisabled
      | none => c
    | _ => c) c

/-- The packet waits on die `d` for a step of the owner stage: its lookup, a cipher core or an engine context. One that its owner
has admitted to its destination's queue waits for nothing of it, and is sent. Log 46 (DEDUCED). -/
def Chip.ownerWaits (c : Chip) (d : Nat) (p : Pkt) : Bool :=
  p.die == d &&
  (match p.stage with
   | .lookup _ => true
   | .reread => true
   | .engineQ _ => true
   | .cipher => !(tget [] c.cp.units d).any fun u => u.running && (match u.kind with | .esp id => id == p.id | _ => false)
   | _ => false)

/-- The owner stage of die `d` stops (R65): its packets that wait there are dropped; one on a cipher core or in a context
is dropped when it comes to its queue. Log 46 (DEDUCED). -/
def Chip.stopOwner (c : Chip) (d : Nat) : Chip :=
  (c.disableCipher d).dropAll (c.ownerWaits d) Dr.blockDisabled false

/-- Engine block (R302): queued packets are dropped, every context ends with cause DISABLED; the block counts as
disabled once nothing is outstanding. -/
def Chip.disableEngine (c : Chip) (d : Nat) : Chip :=
  let inQueue := fun (p : Pkt) => match p.stage with | .engineQ _ => p.die == d | _ => false
  let c := c.dropAll inQueue Dr.blockDisabled false
  let live := (c.ctxsOf d).filter fun k => k.2.st != .draining
  let c := live.foldl (fun c k => c.ctxFault d (k.1 / 128) (k.1 % 128) Cause.disabled) c
  c.wfld d R.dreStatus 0 1 (b2n (c.ctxsOf d).isEmpty)

/-- Host endpoint block: every host link of the die is held down. -/
def Chip.disableHost (c : Chip) (d : Nat) : Chip :=
  (List.range 4).foldl (fun c h => (c.linksOf (4 * d + h)).foldl (fun c l => c.resetLink (4 * d + h) l) c) c

/-- Span block (R422): the neighbours of the die's ports go down. -/
def Chip.disableSpan (c : Chip) (d : Nat) : Chip := ((List.range 64).map fun l => d * 64 + l).foldl (fun c l => c.neighDown l) c

/-- What clearing the enable of block `b` on die `d` does beyond stopping it (R61, R65, R173, R225, R302, R422). Log 46 (DEDUCED). -/
def Chip.afterDisable (c : Chip) (d b : Nat) : Chip :=
  match b with
  | 4 => (c.stopOwner d).setTb fun t => { t with learnQ := tput [] t.learnQ d [] }
  | 6 => c.disableSched d
  | 8 => c.disableMac d
  | 9 => c.stopOwner d
  | 11 => (c.stopOwner d).disableEngine d
  | 12 => c.disableHost d
  | 16 => c.disableSpan d
  | _ => c

/-- Discards a die's Spillway content (R65). -/
def Chip.spillDiscard (c : Chip) (d : Nat) : Chip :=
  c.dropAll (fun p => p.holds.any fun h => h.die == d && isSpill h.pool) Dr.blockDisabled true

/-- Clears an enable field. -/
def Chip.clearEnable (c : Chip) (d b : Nat) : Chip := c.wfld d ⟨b, 0⟩ 0 1 0

/-- Follows a change of block `b`'s enable field, from `was` (R532): a check that refuses leaves the block disabled and is
reported. -/
def Chip.enableChange (c : Chip) (d b : Nat) (was : Bool) : Chip :=
  let now := c.bit d ⟨b, 0⟩ 0
  if was == now then c
  else if !now then c.afterDisable d b
  else
    match c.enableCheck d b with
    | some (cls, cause) => (c.clearEnable d b).raise cls d { block := b, cause := cause }
    | none => c.afterEnable d b

/-- A write of a block's control register (R532): RWD fields first, against the state before the write, then the enable;
for the buffer block the Spillway's enable too (R65). Conditions of the guarantee are watched (R501). -/
def Chip.ctrlWrite (c : Chip) (m : Master) (d b : Nat) (value : Reg32) : Chip :=
  c.watchGuarantee d fun c =>
    let was := c.bit d ⟨b, 0⟩ 0
    let spill := b == 5 && c.bit d R.bufCtrl 2
    let c := (c.writeStored m d ⟨b, 0⟩ value).enableChange d b was
    if spill && !c.bit d R.bufCtrl 2 then c.spillDiscard d else c

end Sys2Proof.Machine
end

