-- ==== Sys2Proof/Machine/Cfg.lean ====
section
/-! DEFINITION. The configuration check (R542–R549). -/

namespace Sys2Proof.Machine

/-- Offsets of the registers of an array, by its index dimensions. -/
def dimOffsets : List (Nat × Nat) → List Nat
  | [] => [0]
  | (n, st) :: ds => (List.range n).flatMap fun i => (dimOffsets ds).map fun o => o + i * st

/-- The covered registers of a block, in rising offset, with the masks of their RWD bits (R542). -/
def coveredRegs (b : Nat) : Tab Nat :=
  ((blockRegs b).filter fun r => r.rwd != 0).foldr (fun r t =>
    (dimOffsets r.dims).foldr (fun o t => tput 0 t (r.off + o) r.rwd) t) []

/-- The gate of the block that a BAR4 offset lies in is open. -/
def Chip.gateOfBar4 (c : Chip) (off : Nat) : Bool :=
  decide (0x20000000 ≤ off) || c.gateOpen (off / 0x04000000) (off % 0x04000000 / 0x00100000)

/-- A sweep passes: the words of every block with an open gate are taken as it finds them; those of the others stay as the sweeps
before their gates closed found them (R480). -/
def Chip.sweep (c : Chip) : Chip :=
  let kept := c.cfg.swept.filter fun e => !c.gateOfBar4 e.1
  { c with cfg := { c.cfg with
    swept := kept.foldl (fun t e => tput 0#32 t e.1 e.2) (c.regs.filter fun e => c.gateOfBar4 e.1) } }

/-- A register's word in the check stream: the stored one, in a gated block the last swept. -/
def Chip.streamWord (c : Chip) (d : Nat) (a : RegAddr) : Nat :=
  if c.gateOpen d a.blk then c.rd d a else (tget 0#32 c.cfg.swept (bar4 d a) ^^^ BitVec.ofNat 32 (regReset d a)).toNat

/-- The check stream of a block of a die: 8 bytes per covered register, its BAR4 offset and its masked value (R543). -/
def Chip.blockStream (c : Chip) (d b : Nat) : Bytes :=
  (coveredRegs b).flatMap fun r =>
    toBE 4 (bar4 d ⟨b, r.1⟩) ++ toBE 4 (c.streamWord d ⟨b, r.1⟩ &&& r.2)

/-- The stretch of part 0 to 7 (a die) or 8 (the package block). -/
def Chip.stretch (c : Chip) (p : Nat) : Bytes :=
  if p < 8 then (List.range 20).flatMap (c.blockStream p)
  else [32, 33, 34].flatMap (c.blockStream 0)

/-- The parts of the stream in order: the populated dies, then the package block. -/
def Chip.stretches (c : Chip) : List Nat := c.allDies ++ [8]

/-- The partial of every stretch, and the result over the whole stream (R543). -/
def Chip.sweepParts (c : Chip) : List Nat := c.stretches.map fun p => (crc64 (c.stretch p)).toNat
def Chip.sweepResult (c : Chip) : Nat := (crc64 (c.stretches.flatMap c.stretch)).toNat

/-- Takes the present contents as the reference (R546). Profiles that the image gives the dies differently (R95) are thus
part of the reference, and only a later change of them is a mismatch. Logs 41 (DESIGN CHOICE), 75 (DESIGN CHOICE). -/
def Chip.cfgTake (c : Chip) : Chip :=
  let c := c.sweep
  { c with cfg := { c.cfg with
    busy := false, waitNext := false, valid := false, raised := false,
    now := c.sweepResult, ref := c.sweepResult, refParts := c.sweepParts } }

/-- Compares a complete sweep with the reference (R544, R545). Log 41 (DESIGN CHOICE). -/
def Chip.cfgCompare (c : Chip) : Chip :=
  let parts := c.sweepParts
  let diff := (List.range parts.length).filter fun i => parts.getD i 0 != c.cfg.refParts.getD i 0
  let dies := maskOf (diff.filter fun i => decide (i < c.dies))
  let pkg := diff.contains c.dies
  let mis := c.sweepResult != c.cfg.ref || !diff.isEmpty
  let c := { c with cfg := { c.cfg with
    now := c.sweepResult, valid := true, mismatch := mis, mismatchDies := dies, pkgMismatch := pkg } }
  if !mis then { c with cfg := { c.cfg with raised := false } }
  else if c.cfg.hold || c.cfg.raised then c
  else
    let low := ((List.range c.dies).find? fun d => bitN dies d).getD 0
    ({ c with cfg := { c.cfg with raised := true } }).raise Cls.cfgCrcMismatch low
      { block := 0x25, unit := dies + (if pkg then 256 else 0), value := c.cfg.now % 2 ^ 32 }

/-- Length of a sweep in ns (R544). -/
def sweepNs : Nat := 2000000

/-- CFG_CRC_SWEEP (R544): a sweep ends, one in every 2 ms. A sweep whose partial from some die has not reached die 0 is incomplete and is
not compared. A sweep that started after a commit was written is the new reference. Logs 12 (DEDUCED), 41 (DESIGN CHOICE). -/
def cfgCrcSweep (c : Chip) : Chip :=
  if !c.alive || decide (c.steady / sweepNs ≤ c.cfg.slot) then c
  else
    let c := c.sweep
    let c := { c with cfg := { c.cfg with slot := c.steady / sweepNs } }
    let missing := maskOf (c.allDies.filter fun d => !c.reach d 0)
    let c := { c with cfg := { c.cfg with sweeps := wrapAdd 32 c.cfg.sweeps 1, incompleteDies := missing } }
    let started := c.cfg.waitNext
    let c := { c with cfg := { c.cfg with waitNext := false } }
    if missing ≠ 0 then c
    else if c.cfg.busy && !started then c.cfgTake
    else if c.cfg.refParts.isEmpty then { c with cfg := { c.cfg with now := c.sweepResult } }
    else c.cfgCompare

/-- Writes hold of PKG_CFG_CRC_CTRL (R548): setting it starts a hold, clearing it ends the current one. -/
def Chip.cfgHold (c : Chip) (h : Bool) : Chip :=
  { c with cfg := { c.cfg with
    hold := h, holdLong := c.cfg.holdLong && h, holdAt := if c.cfg.hold then c.cfg.holdAt else c.steady } }

/-- A write of PKG_CFG_CRC_CTRL (R546): hold as written; commit starts a commit unless one runs. The sweep under way
started before the write and is not taken. -/
def cfgCrcCommit (value : Reg32) (c : Chip) : Chip :=
  let c := c.cfgHold (value.getLsbD 0)
  if value.getLsbD 1 && !c.cfg.busy then { c with cfg := { c.cfg with busy := true, waitNext := true } } else c

/-- CFG_CRC_HOLD_LONG (R548): hold has been set for 1 s; raised once per hold. Log 12 (DEDUCED). -/
def cfgCrcHoldLong (c : Chip) : Chip :=
  if c.alive && c.cfg.hold && !c.cfg.holdLong && decide (c.cfg.holdAt + 1000000000 ≤ c.steady) then
    ({ c with cfg := { c.cfg with holdLong := true } }).raise Cls.cfgCrcHoldLong 0 { block := 0x25 }
  else c

end Sys2Proof.Machine
end

