-- ==== Sys2Proof/Machine/RegOps.lean ====
section
/-! DEFINITION. What writes of registers do beyond storing (spec/21): selections and their snapshots (R537), soft resets
(R494), the step of the time base (R470), the mode preset (R64, R65), and the one dispatch `Chip.regWrite` of a 32-bit write
to BAR4. -/

namespace Sys2Proof.Machine

/-! ### Selections (R537) -/

/-- Stores a number in consecutive registers, low half first. -/
def Chip.snap64 (c : Chip) (d : Nat) (a : RegAddr) (v : Nat) : Chip :=
  (c.wr d a (v % 2 ^ 32)).wr d ⟨a.blk, a.off + 4⟩ (v / 2 ^ 32)

/-- CLS_CNT_SEL: a counter pair, or a ternary hit counter (R123, R124). A pair whose codeword is uncorrectable reads all
ones (R506). -/
def clsCntSel (d : Nat) (value : Reg32) (memErr : ScrubOutcome) (c : Chip) : Chip :=
  let v := value.toNat
  let i := bitsN v 0 20
  let clear := bitN v 30
  if bitN v 31 then
    let k := d * 2 ^ 17 + i
    let n := if i < 2 ^ 17 then tget 0 c.tb.hits k else 0
    let c := (c.snap64 d R.clsCntSnapPktsLo n).snap64 d R.clsCntSnapBytesLo 0
    if clear && decide (i < 2 ^ 17) then c.setTb fun t => { t with hits := tput 0 t.hits k 0 } else c
  else
    let k := d * 2 ^ 20 + i
    let c := if c.tb.badCtrs.contains k then c
      else (c.setTb fun t => if memErr == .uncorrectable then { t with badCtrs := t.badCtrs ++ [k] } else t).readCheck d false memErr
        { block := 2, addr := i * 16 }
    let bad := c.tb.badCtrs.contains k
    let (p, n) := if bad then (2 ^ 64 - 1, 2 ^ 64 - 1) else tget (0, 0) c.tb.ctrs k
    let c := (c.snap64 d R.clsCntSnapPktsLo p).snap64 d R.clsCntSnapBytesLo n
    if clear then
      c.setTb fun t => { t with ctrs := tput (0, 0) t.ctrs k (0, 0), badCtrs := t.badCtrs.filter (· != k) }
    else c

/-- BUF_OCC_SEL: a destination's cells on the die, all and on-die. -/
def bufOccSel (d : Nat) (value : Reg32) (c : Chip) : Chip :=
  let dest := bitsN value.toNat 0 12
  let inst := value.getLsbD 12
  let all := c.poolUsed d (ofDest inst dest)
  let on_ := c.poolUsed d fun q => isTenant q && ofDest inst dest q
  (c.wr d R.bufOccSnapTotal all).wr d R.bufOccSnapOndie on_

/-- BUF_DROP_SEL: a drop counter of R217. -/
def bufDropSel (d : Nat) (value : Reg32) (c : Chip) : Chip :=
  let v := value.toNat
  let k := ((d * 256 + bitsN v 0 8) * 2 + bitsN v 20 1) * 4096 + bitsN v 8 12
  let c := c.wr d R.bufDropSnap (tget 0 c.tb.drops k)
  if bitN v 30 then c.setTb fun t => { t with drops := tput 0 t.drops k 0 } else c

/-- A signed number saturated to 32 bits, as a register value. -/
def sat32 (x : Int) : Nat := (BitVec.ofInt 32 (max (-2147483648) (min 2147483647 x))).toNat

/-- SCH_SHP_SEL: a shaper's rate, burst with overhead, credit in bytes. Log 20 (DESIGN CHOICE). -/
def schShpSel (d : Nat) (value : Reg32) (c : Chip) : Chip :=
  let s := c.shaper (d * 131072 + bitsN value.toNat 0 17)
  let c := (c.wr d R.schShpSnapRate s.rate).wr d R.schShpSnapBurst (s.burst % 2 ^ 24 + s.overhead % 64 * 2 ^ 24)
  c.wr d R.schShpSnapCredit (sat32 (s.credit / (creditByte : Int)))

/-- WEI_CNT_SEL: a policer's three colour counters (R214). -/
def weiCntSel (d : Nat) (value : Reg32) (c : Chip) : Chip :=
  let k := d * 131072 + bitsN value.toNat 0 17
  let q := tget Policer.none c.qs.policers k
  let c := ((c.snap64 d R.weiCntGreenLo q.green).snap64 d R.weiCntYellowLo q.yellow).snap64 d R.weiCntRedLo q.red
  if value.getLsbD 30 then
    c.setQs fun s => { s with policers := tput Policer.none s.policers k { q with green := 0, yellow := 0, red := 0 } }
  else c

/-- MAC_CNT_SEL: a port's MAC counter; numbers 19 to 31 read zero. -/
def macCntSel (d : Nat) (value : Reg32) (c : Chip) : Chip :=
  let v := value.toNat
  let k := (d * 64 + bitsN v 0 6) * 32 + bitsN v 8 5
  let c := c.snap64 d R.macCntSnapLo (tget 0 c.tb.macCtr k)
  if bitN v 30 then c.setTb fun t => { t with macCtr := tput 0 t.macCtr k 0 } else c

/-- CIP_SLOT_SEL: a key slot's counters (R272). -/
def cipSlotSel (d : Nat) (value : Reg32) (c : Chip) : Chip :=
  let k := d * 65536 + bitsN value.toNat 0 16
  let (a, r) := tget (0, 0) c.cp.keyCtr k
  let c := (c.wr d R.cipSlotAuthfail a).wr d R.cipSlotReplay r
  if value.getLsbD 30 then c.setCp fun s => { s with keyCtr := tput (0, 0) s.keyCtr k (0, 0) } else c

/-- State code of a context in DRE_CTX_SNAP_STATE: 1 ready, 2 interlocked, 3 paused, 4 waiting for a slot. Log 20 (DESIGN CHOICE). -/
def Chip.ctxCode (c : Chip) (k : Ctx) : Nat :=
  match k.st with
  | .ready => if k.yielding || k.interlocked (tget 0 c.dre.cstore k.pc) then 2 else 1
  | .paused _ => 3
  | .waitSlot => 4
  | .ending _ _ _ => 2
  | .draining => 2

/-- DRE_CTX_SEL: a context's state, kind, next word, words issued. Log 20 (DESIGN CHOICE). -/
def dreCtxSel (d : Nat) (value : Reg32) (c : Chip) : Chip :=
  match c.ctx d (bitsN value.toNat 0 6) (bitsN value.toNat 6 7) with
  | none => (c.wr d R.dreCtxSnapState 0).wr d R.dreCtxSnapWords 0
  | some k =>
    (c.wr d R.dreCtxSnapState (c.ctxCode k + b2n k.job * 8 + k.pc % 2 ^ 15 * 16)).wr d R.dreCtxSnapWords (min k.words (2 ^ 32 - 1))

/-! ### The time base (R470) -/

/-- Adds a step to every absolute time that schedule state holds, in 2⁻¹⁶ ns. Log 11 (DESIGN CHOICE). -/
def Chip.shiftTimes (c : Chip) (n : Nat) : Chip :=
  let c := c.setDp fun s => { s with
    pkts := s.pkts.map fun p =>
      let p := { p with shift := p.shift + n }
      match p.stage with
      | .held t => { p with stage := .held (t + n) }
      | _ => p
    tx := s.tx.map fun e => (e.1, e.2.map fun x => { x with start := x.start + n, stop := x.stop + n })
    pauses := s.pauses.map fun e => (e.1, e.2.map fun i => ⟨i.from_ + n, i.until_ + n⟩) }
  let c := c.setQs fun s => { s with
    shapers := s.shapers.map fun e => (e.1, { e.2 with last := e.2.last + n, slot := e.2.slot.map (· + n) })
    policers := s.policers.map fun e => (e.1, { e.2 with last := e.2.last + n }) }
  let c := c.setDre fun s => { s with
    ctxs := s.ctxs.map fun e => (e.1, e.2.map fun k =>
      match k.st with
      | .paused t => { k with st := .paused (t + n) }
      | _ => k) }
  { c with commit := { c.commit with tsw := c.commit.tsw + n } }

/-- CLK_TB_STEP: a write of CLK_TB_STEP_HI applies the step; 0, or bit 31 set, is ignored. Learn events are held until
4 µs after it. -/
def clkTbStep (value : Reg32) (c : Chip) : Chip :=
  let n := c.clk.stepLo + value.toNat * 2 ^ 32
  if n = 0 ∨ value.getLsbD 31 then c
  else
    let c := c.shiftTimes (n * 65536)
    let c := { c with clk := { c.clk with tb := c.clk.tb + n * tbPerNs } }
    { c with clk := { c.clk with learnHold := c.steady + 4000 } }

/-! ### Soft resets (R494) -/

/-- PWR_SOFT_RST: each bit written 1 starts the soft reset of its block, if disabled and with its gate open; else
soft_refused. The epoch bit is ignored. Log 15 (DESIGN CHOICE). -/
def pwrSoftRst (d : Nat) (value : Reg32) (c : Chip) : Chip :=
  (List.range 17).foldl (fun c b =>
    if !value.getLsbD b || b == 3 then c
    else if c.blockDisabled d b && c.gateOpen d b then c.wfld d R.pwrSoftRst b 1 1
    else c.wfld d R.pwrSoftFlags 0 1 1) c

/-- A register's word after a soft reset of its block: RW and RWD fields at reset, counters and sticky flags clear, RO
fields as they stand, and SEC fields, which no command changes once boot has completed (R529). Log 15 (DESIGN CHOICE). -/
def Chip.softWord (c : Chip) (d : Nat) (a : RegAddr) : Nat :=
  match findReg a.blk a.off with
  | none => c.rd d a
  | some r =>
    let kept := r.ro ||| (if c.booted then r.sec else 0)
    (c.rd d a &&& kept) ||| (regReset d a &&& ((r.rw ||| r.rwd) - ((r.rw ||| r.rwd) &&& kept)))

/-- The cipher units of a die that wait for a core are discarded with the pool's turns: an ESP packet is dropped, a job ends with
ABORTED, an engine's operation gets a status that is a free value. Log 15 (DESIGN CHOICE). -/
def Chip.discardUnits (c : Chip) (d : Nat) : Chip :=
  let c := c.disableCipher d
  let c := ((tget [] c.cp.units d).filter fun u => !u.running).foldl (fun c u =>
    match u.kind with
    | .esp _ => c.delUnit d u.id
    | .tls e x => let v := c.drawn 256; c.draw.answerUnit d u e x v
    | .xts e x => let v := c.drawn 256; c.draw.answerUnit d u e x v
    | .job f i _ => (c.stopJob d f i St.aborted).delUnit d u.id) c
  c.setCp fun s => { s with turns := tput (0, 0) s.turns d (0, 0) }

/-- Transient state of a block that a soft reset discards. Log 15 (DESIGN CHOICE). -/
def Chip.discardTransient (c : Chip) (d b : Nat) : Chip :=
  let mine := fun (p : Pkt) => p.die == d
  match b with
  | 1 => c.dropAll (fun p => mine p && (p.stage == .arrived || p.stage == .scan)) Dr.blockDisabled false
  | 4 => c.setTb fun t => { t with learnQ := tput [] t.learnQ d [], fcache := tput [] t.fcache d [] }
  | 5 => (c.dropAll (fun p => mine p && p.stage == .queued) Dr.blockDisabled true).setQs fun s => { s with staged := tput 0 s.staged d 0 }
  | 6 => c.setQs fun s => { s with
      scheds := tdrop (fun k => if k < 512 then decide (k / 64 = d) else decide ((k - 512) / 512 = d)) s.scheds
      epDrr := tdrop (fun k => decide (k / 4 = d)) s.epDrr }
  | 8 => c.setDp fun s => { s with
      pauses := tdrop (fun k => decide (k / 1024 = d)) s.pauses, xoff := s.xoff.filter fun k => decide (k / 1024 ≠ d) }
  | 9 => c.discardUnits d
  | 12 => { c with tags := tdrop (fun k => decide (k / 131072 = d)) c.tags }
  | 13 => c.setDma d { c.dma d with xlate := [] }
  | 14 => { c with chans := c.chans.map fun e => if c.fnDie e.1 = d then (e.1, e.2.discard []) else e }
  | 15 => ((c.chans.map Prod.fst).filter fun f => c.fnDie f == d).foldl (fun c f => (c.endTransfers f St.aborted).2) c
  | 16 => if d = 0 then c.setBarrier fun b => { b with wave := none, past := [] } else c
  | _ => c

/-- Counters of a block that lie outside its registers. Log 15 (DESIGN CHOICE). -/
def Chip.clearCounters (c : Chip) (d b : Nat) : Chip :=
  match b with
  | 2 => c.setTb fun t => { t with
      ctrs := tdrop (fun k => decide (k / 2 ^ 20 = d)) t.ctrs, hits := tdrop (fun k => decide (k / 2 ^ 17 = d)) t.hits
      badCtrs := t.badCtrs.filter fun k => decide (k / 2 ^ 20 ≠ d) }
  | 5 => c.setTb fun t => { t with drops := tdrop (fun k => decide (k / 2 ^ 21 = d)) t.drops }
  | 7 => c.setQs fun s => { s with
      policers := s.policers.map fun e => if e.1 / 131072 = d then (e.1, { e.2 with green := 0, yellow := 0, red := 0 }) else e }
  | 8 => c.setTb fun t => { t with macCtr := tdrop (fun k => decide (k / 2048 = d)) t.macCtr }
  | 9 => c.setCp fun s => { s with keyCtr := tdrop (fun k => decide (k / 65536 = d)) s.keyCtr }
  | 11 => c.setDre fun s => { s with dreWords := tput 0 s.dreWords d 0, dreStarts := tput 0 s.dreStarts d 0 }
  | _ => c

/-- The registers of a block after its soft reset. -/
def Chip.softRegs (c : Chip) (d b : Nat) : Chip :=
  let base := bar4 d ⟨b, 0⟩
  let mine := (c.regs.map Prod.fst).filter fun k => decide (base ≤ k) && decide (k < base + 0x100000)
  mine.foldl (fun c k => c.wr d ⟨b, k - base⟩ (c.softWord d ⟨b, k - base⟩)) c

/-- SOFT_RESET_DONE (R494): the block's registers are at reset but for what it keeps, and its bit reads 0 again; shapers follow
names that go with them (R206). A block whose gate has closed meanwhile has no clock for it (R478). Log 15 (DESIGN CHOICE). -/
def softResetDone (die block : Nat) (c : Chip) : Chip :=
  if c.alive && c.hasDie die && decide (block < 17) && c.gateOpen die block && c.bit die R.pwrSoftRst block then
    let c := (c.discardTransient die block).clearCounters die block
    let c := if block = 6 then c.reshape die fun c => c.softRegs die block else c.softRegs die block
    c.wfld die R.pwrSoftRst block 1 0
  else c

/-! ### The mode preset (R62–R66) -/

/-- PKG_TENANT_MODE: a change into or out of Reach clears the flow tables and flow caches (R65). A change to Crypt while a die runs
MACsec on more lanes than that takes (R62) is refused as the MACsec block's enable would be. Log 53 (DESIGN CHOICE). -/
def pkgTenantMode (m : Master) (value : Reg32) (c : Chip) : Chip :=
  let old := c.mode
  let c' := c.writeStored m 0 R.pkgTenantMode value
  match c'.allDies.find? fun d => old != 1 && c'.en d 10 && c'.macsecOver d with
  | some d => c.raise Cls.cipCfgInvalid d { block := 10 }
  | none => if (old == 3) == (c'.mode == 3) then c' else c'.flowClear

/-! ### Other registers whose writes do more than store -/

/-- FLT_VRING_CONS of a die (R518, R525): a consumer beyond the producer is ignored and sets log_lap. -/
def fltVringCons (d : Nat) (value : Reg32) (c : Chip) : Chip :=
  match c.verdOf d with
  | none => c
  | some v =>
    if diff32 v.prod value.toNat ≤ diff32 v.prod v.cons then c.setVerd d { v with cons := value.toNat }
    else c.wfld 0 R.fltLogStatus 1 1 1

/-- PWR_STATUS (R484, R489): main_lost is cleared by 1, flt_cause by 0xF. -/
def pwrStatusWrite (value : Reg32) (c : Chip) : Chip :=
  { c with pwr := { c.pwr with
    mainLost := c.pwr.mainLost && !value.getLsbD 3
    fltCause := c.pwr.fltCause &&& (15 - bitsN value.toNat 8 4) } }

/-- A 32-bit write of `value` by master `m` to register `a` of die `d`, once nothing stands in its way (R531).
Log 17 (DESIGN CHOICE). -/
def Chip.regWrite (c : Chip) (m : Master) (d : Nat) (a : RegAddr) (value : Reg32) : Chip :=
  if a.off = 0 ∧ a.blk < 17 ∧ a.blk ≠ 3 then c.ctrlWrite m d a.blk value
  else if a = R.clsCntSel then clsCntSel d value .clean c
  else if a = R.bufOccSel then bufOccSel d value c
  else if a = R.bufDropSel then bufDropSel d value c
  else if a = R.schShpSel then schShpSel d value c
  else if a = R.weiCntSel then weiCntSel d value c
  else if a = R.macCntSel then macCntSel d value c
  else if a = R.cipSlotSel then cipSlotSel d value c
  else if a = R.dreCtxSel then dreCtxSel d value c
  else if a = R.dreCtxKill then dreCtxKill d value c
  else if a = R.clkGate then clkGate d value c
  else if a = R.clkTbRate then (if d = 0 then clkTbRate value c else c)
  else if a = R.clkTbStepLo then (if d = 0 then { c with clk := { c.clk with stepLo := value.toNat } } else c)
  else if a = R.clkTbStepHi then (if d = 0 then clkTbStep value c else c)
  else if a = R.pwrSoftRst then pwrSoftRst d value c
  else if a = R.fltPin then fltPinRelease c value
  else if a = R.fltClassSel then fltClassSel d value c
  else if a = R.fltCulRetrain then fltCulRetrain d value c
  else if a = R.fltLogCons then (if d = 0 then fltLogCons value c else c)
  else if a = R.fltLogStatus then (if d = 0 then c.writeStored m d a value else c)
  else if a = R.fltVringCons then fltVringCons d value c
  else if a = R.fltScrubCtrl then c.watchGuarantee d fun c => c.writeStored m d a value
  else if a = R.spnBarrierCtrl then (if d = 0 then barrierCancel value c else c)
  else if a = R.pkgCfgCrcCtrl then cfgCrcCommit value c
  else if a = R.pkgTenantMode then pkgTenantMode m value c
  else if a = R.pwrStatus then pwrStatusWrite value c
  else if a.blk = 6 then c.reshape d fun c => c.writeStored m d a value
  else c.writeStored m d a value

end Sys2Proof.Machine
end

