-- ==== Sys2Proof/Machine/RegRead.lean ====
section
/-! DEFINITION. Reads of registers (spec/21): what RO fields show of the state, reads that clear or latch, and accesses of
every size and master (R530, R531, R384). -/

namespace Sys2Proof.Machine

/-! ### What read-only fields show -/

/-- Code of a boot state in TET_BOOT_STATUS. Log 34 (DESIGN CHOICE). -/
def bootCode : BootState → Nat
  | .start => 0
  | .waitRefclk => 1
  | .waitPower => 2
  | .reading => 3
  | .verified => 4
  | .loading => 5
  | .enabling => 6
  | .done => 7
  | .failed => 8
  | .recovery => 9

/-- Code of an epoch slot's state. -/
def slotCode : SlotSt → Nat
  | .free => 0
  | .open_ => 1
  | .current => 2
  | .draining => 3
  | .sweeping => 4

/-- Code of a Windsock stage. -/
def stageCode : Stage → Nat
  | .starting => 0
  | .armed => 1
  | .locked => 2
  | .tripped => 3

/-- EPC_STATUS. -/
def Chip.epcStatusView (c : Chip) : Nat :=
  c.curEpoch + b2n (c.commit.phase != .closed) * 2 ^ 16 + (if c.commit.phase = .closed then 0 else c.commit.slot) * 2 ^ 17
    + b2n (c.commit.phase == .undoing || c.rl.slots.any fun s => s.st == .sweeping) * 2 ^ 19
    + maskOf ((List.range 4).filter fun s => (c.slot s).st != .free) * 2 ^ 20

/-- CLK_STATUS of a die. Log 27 (DESIGN CHOICE). -/
def Chip.clkStatusView (c : Chip) (d : Nat) : Nat :=
  let k := c.clk
  stageCode k.stage + 4 * b2n k.refclkOk + 8 * b2n k.pllLocked + 16 * b2n (d == 0 && k.mgmtOnPilot) + 32 * b2n k.settled
    + 64 * b2n k.pilotFailed + (if d = 0 then k.trim else 0) * 2 ^ 8 + k.tripCause * 2 ^ 16 + k.tripDie * 2 ^ 19 + k.tripDomain * 2 ^ 22

/-- FLT_GUARANTEE of a die. -/
def Chip.guaranteeView (c : Chip) (d : Nat) : Nat :=
  let g := c.guarantee d
  maskOf ((List.range 4).filter fun i => g.getD i false) + 16 * b2n ((g.take 3).all id)

/-- SPN_BARRIER_CTRL.state: 4 coordinator collecting, 3 echoed, 2 waiting in a wave, 1 group set, 0 idle. -/
def Chip.barrierState (c : Chip) : Nat :=
  let b := c.sp.barrier
  match b.wave with
  | some w => if w.parent.isNone then 4 else if w.echoed then 3 else 2
  | none => if b.group.isSome then 1 else 0

/-- HEP_TAGS of an endpoint: tags outstanding, tags quarantined or held. -/
def Chip.tagsView (c : Chip) (port : Nat) : Nat :=
  let mine := c.tags.filter fun e => e.1 / 32768 == port
  let n := fun (q : TagSt → Bool) => (mine.filter fun e => q e.2.st).length
  n (· == .outstanding) % 4096 + n (fun s => s == .quarantined || s == .held) % 4096 * 2 ^ 12

/-- MAC_PORT_STATUS's pause bits: tx_paused, pfc_held. -/
def Chip.pauseView (c : Chip) (lane : Nat) : Nat :=
  let on_ := fun q => (pauseAt (c.pausesOf lane q) c.now).isSome
  b2n (on_ 8) * 32 + maskOf ((List.range 8).filter on_) * 64

/-- Code of an instance's state. -/
def instCode : InstState → Nat
  | .free => 0
  | .active => 1
  | .frozen => 2
  | .resetting => 3

/-- The per-instance registers, by the word of their 0x20-byte group. Log 21 (DESIGN CHOICE). -/
def Chip.instView (c : Chip) (d i w : Nat) (stored : Nat) : Nat :=
  let n := d * 512 + i
  let x := c.inst n
  let live := x.st != .free
  match w with
  | 0 => if live then
      instCode x.st + 4 * b2n x.tracking.isSome + 8 * b2n x.orphaned + 16 * x.vectors + x.entryVer % 256 * 2 ^ 8
        + x.port % 4 * 2 ^ 16 + x.pf * 2 ^ 18
    else 0
  | 1 => if live then x.vf else 0
  | 2 => c.keygen n
  | 3 => if live then x.keyBase % 65536 + x.keyCount * 2 ^ 16 else 0
  | 4 => if live then tablePages x.leaves else 0
  | 5 => if live then x.quota else 0
  | _ => stored

/-- Bit k of word w: class 32w + k has a non-zero count on some die. -/
def Chip.errSummary (c : Chip) (w : Nat) : Nat :=
  maskOf ((List.range 32).filter fun k => c.allDies.any fun d => (c.cls d (32 * w + k)).count != 0)

/-- PKG_ERR_SEV. -/
def Chip.errSev (c : Chip) : Nat :=
  maskOf ((List.range 3).filter fun s => c.faults.classes.any fun e => e.2.count != 0 && sevOf (e.1 % 256) == s)

/-- PKG_CFG_CRC_STATUS, over its stored write_while_enabled. -/
def Chip.cfgStatusView (c : Chip) (stored : Nat) : Nat :=
  let k := c.cfg
  (stored &&& 0x20) ||| (b2n k.valid + 2 * b2n k.mismatch + 4 * b2n k.busy + 8 * b2n k.holdLong + 16 * b2n k.pkgMismatch
    + k.mismatchDies * 2 ^ 8 + k.incompleteDies * 2 ^ 16)

/-- PKG_TENANT_MODE.mode_applied: dies whose affected blocks (R64) are all enabled. -/
def Chip.modeApplied (c : Chip) : Nat :=
  maskOf (c.allDies.filter fun d => c.en d 4 && c.en d 9 && c.en d 11 && c.bit d R.bufCtrl 2)

/-- Bits of word `w` of a node record that are fields (R76); the rest are reserved and read 0. -/
def nodeFields (w : Nat) : Nat :=
  match w with
  | 0 => 0xFF1F7FFF
  | 2 => 0x07FFFFFF
  | 3 => 0xFFFF
  | 4 => 0xFF77
  | _ => if w = 1 then 0xFFFFFFFF else if w < 13 then 0x3FFFFF else 0

/-- A word of the parse graph's window, `off` from the first node record: node records of 64 bytes, then from 0x1_0000
transitions of 16 bytes (R76). -/
def Chip.graphWord (c : Chip) (off : Nat) : Nat :=
  if off < 0x10000 then bitsN (tget 0 c.dp.nodes (off / 64)) (off % 64 * 8) 32 &&& nodeFields (off % 64 / 4)
  else
    let t := tget 0 c.dp.trans ((off - 0x10000) / 16)
    match off % 16 / 4 with
    | 0 => bitsN t 0 32
    | 1 => bitsN t 32 32
    | 2 => bitsN t 64 8
    | _ => 0

/-- What a die block's register reads beyond its stored word. -/
def Chip.dieView (c : Chip) (d : Nat) (a : RegAddr) (v : Nat) : Nat :=
  match a.blk with
  | 0 => if 0x10000 ≤ a.off then c.graphWord (a.off - 0x10000) else v
  | 3 =>
    if a = R.epcStatus then c.epcStatusView
    else if 0x10 ≤ a.off ∧ a.off < 0x20 then
      let s := c.slot ((a.off - 0x10) / 4)
      s.epoch + slotCode s.st * 2 ^ 16
    else if 0x20 ≤ a.off ∧ a.off < 0x30 then c.inflight d ((a.off - 0x20) / 4)
    else if 0x40 ≤ a.off ∧ a.off < 0x60 then
      if a.off % 8 = 0 then tget 0 c.rl.epcPkts (d * 4 + (a.off - 0x40) / 8) % 2 ^ 32 else tget 0 c.sp.latch (bar4 d a)
    else v
  | 4 =>
    let count := fun (q : LpmE → Bool) => (c.rl.lpm.filter q).length
    if a = R.tblGen then tget 0 c.tb.gens (2 * d) % 65536 + tget 0 c.tb.gens (2 * d + 1) % 65536 * 65536
    else if a = R.tblMacUsed then ((c.macTab d).filter fun e => e.2.isSome).length
    else if a = R.tblFlowUsed then ((c.flowTab d).filter fun e => e.2.isSome).length
    else if a = R.tblLpm4Used then count fun e => !e.v6
    else if a = R.tblLpm6Used then count fun e => e.v6
    else v
  | 5 =>
    if a = R.bufPoolTenant then c.poolSize d (.tenant false 0 0)
    else if a = R.bufSpillUsed then c.poolUsed d isSpill
    else v
  | 8 => if 0x1000 ≤ a.off ∧ a.off % 0x40 = 0x14 then v ||| c.pauseView (d * 64 + (a.off - 0x1000) / 0x40) else v
  | 9 => if a = R.cipPoolUsed then (((tget [] c.cp.units d).filter CUnit.running).map CUnit.entries).sum else v
  | 11 =>
    let n := fun job => ((c.ctxsOf d).filter fun k => k.2.job == job).length
    if a = R.dreStatus then b2n (if c.en d 11 then (c.ctxsOf d).isEmpty else c.bit d R.dreStatus 0)
    else if a = R.dreCtxUse then n false + n true * 2 ^ 14
    else if a = R.dreWordsLo then tget 0 c.dre.dreWords d % 2 ^ 32
    else if a = R.dreStartsLo then tget 0 c.dre.dreStarts d % 2 ^ 32
    else if a = R.dreWordsHi ∨ a = R.dreStartsHi then tget 0 c.sp.latch (bar4 d a)
    else v
  | 12 => if 0x100 ≤ a.off ∧ a.off % 0x40 = 8 then c.tagsView (4 * d + (a.off - 0x100) / 0x40) else v
  | 13 =>
    if a = R.insXltFree then 393216 - c.quotaGiven d
    else if 0x1000 ≤ a.off then c.instView d ((a.off - 0x1000) / 0x20) (a.off % 0x20 / 4) v
    else v
  | 15 => if a = R.dmaStageUsed then c.staging d none else v
  | 16 =>
    if 0x100 ≤ a.off ∧ a.off < 0x200 then
      let n := c.neigh (64 * d + (a.off - 0x100) / 4)
      (v &&& 8) + neighCode n.st + (if n.st = .down then 0 else n.version % 16 * 2 ^ 4) + n.device % 2 ^ 14 * 2 ^ 8
    else if a = R.spnBarrierCtrl then (if d = 0 then c.barrierState * 2 ^ 8 else 0) else v
  | 17 =>
    if a = R.clkStatus then c.clkStatusView d
    else if 0x10 ≤ a.off ∧ a.off < 0x2C then
      let (n, f) := divider ((a.off - 0x10) / 4)
      n + f * 32
    else if 0x100 ≤ a.off ∧ d ≠ 0 then 0
    else if a = R.clkTbNsLo then c.ns % 2 ^ 32
    else if a = R.clkTbNsHi then c.clk.tbLatchHi
    else if a = R.clkTbFrac then c.clk.tbLatchFrac
    else v
  | 19 =>
    let verd := fun (f : Verd → Nat) => ((c.verdOf d).map f).getD 0
    if a = R.fltGuarantee then c.guaranteeView d
    else if a = R.fltPin then b2n c.faultN + 2 * b2n (!c.faults.held.isEmpty)
    else if a = R.fltVringProd then verd Verd.prod
    else if a = R.fltVringCons then verd Verd.cons
    else if 0x100 ≤ a.off ∧ a.off < 0x114 ∧ d ≠ 0 then 0
    else if a = R.fltLogProd then c.faults.prod
    else if a = R.fltLogCons then c.faults.cons
    else if a = R.fltLogStatus then (v &&& 2) + b2n c.faults.ring.isSome
    else if a = R.fltLogSeq then c.faults.seq
    else v
  | _ => v

/-- What a package register reads beyond its stored word; fuse fields come from the fuse side. -/
def Chip.pkgView (c : Chip) (r : Root) (a : RegAddr) (v : Nat) : Nat :=
  let key := fun w => beAt (sm2Public (scalarOf r.fuses.identitySeed labelId)) (4 * w) 4
  match a.blk with
  | 32 =>
    if a = R.pkgId then 0x8800 + c.dies + c.dies * 2 ^ 16 + Config.revision.toNat * 2 ^ 20
    else if a = R.pkgDieMap then 2 ^ c.dies - 1
    else if a = R.pkgTenantMode then v + c.modeApplied * 2 ^ 16
    else if a = R.pkgGateSummary then
      maskOf (c.allDies.filter fun d => c.fld d R.clkGate 0 17 != 0x1FFFF) + maskOf (c.allDies.filter fun d => c.bit d R.clkGateFlags 0) * 256
    else if a = R.pkgCfgCrcCtrl then b2n c.cfg.hold + 2 * b2n c.cfg.busy
    else if a = R.pkgCfgCrcStatus then c.cfgStatusView v
    else if a = R.pkgCfgCrcRefLo then c.cfg.ref % 2 ^ 32
    else if a = R.pkgCfgCrcRefHi then c.cfg.refLatch
    else if a = R.pkgCfgCrcNowLo then c.cfg.now % 2 ^ 32
    else if a = R.pkgCfgCrcNowHi then c.cfg.nowLatch
    else if a = R.pkgCfgCrcSweeps then c.cfg.sweeps
    else if 0x200 ≤ a.off ∧ a.off < 0x220 then c.errSummary ((a.off - 0x200) / 4)
    else if a = R.pkgErrSev then c.errSev
    else v
  | 33 =>
    let b := c.boot
    if a = R.tetBootStatus then
      bootCode b.state + b2n b.slotB * 16 + b.failCode * 2 ^ 8 + b.failClass * 2 ^ 16 + b.failDie * 2 ^ 24
    else if a = R.tetImageInfo then b.format % 16 + b.secVersion % 128 * 16 + b.buildId % 65536 * 65536
    else if a = R.tetImageId then b.digest / 2 ^ 224
    else if a = R.tetBootTime then min b.bootMs 65535
    else if a = R.tetStraps then b.bootSel.toNat + b.rcvPort.toNat * 4 + b.smbAddr.toNat * 16
    else if a = R.tetFuseStatus then
      r.arbCounter + b2n r.locked * 2 ^ 7 + r.fuses.dieCount.toNat * 2 ^ 8 + b2n r.armed * 2 ^ 10 + b2n r.blow.isSome * 2 ^ 11
        + (match r.result with | .ok => 0 | .busy => 1 | .notArmed => 2 | .verifyFailed => 3) * 2 ^ 12
    else if 0x40 ≤ a.off ∧ a.off < 0x60 then bitsN r.fuses.rootKeyHash (32 * (7 - (a.off - 0x40) / 4)) 32
    else if 0x80 ≤ a.off ∧ a.off < 0xC0 then key ((a.off - 0x80) / 4)
    else v
  | 34 =>
    let p := c.pwr
    if a = R.pwrStatus then
      b2n p.psEn + 2 * b2n p.psPg + 4 * b2n p.psFlt + 8 * b2n p.mainLost + 16 * b2n p.stale + p.fltCause * 2 ^ 8 + p.fltDie * 2 ^ 12
    else if a = R.pwrVbus then p.vbus
    else if a = R.pwrIbus then p.ibus
    else if a = R.pwrPower then p.power
    else if a = R.pwrResetCause then b2n p.auxPor + 2 * b2n p.pkgRst + 4 * b2n p.mainLostBefore + 8 * b2n p.tripBefore
    else v
  | _ => v

/-- A register's whole word as the part shows it. Log 21 (DESIGN CHOICE). -/
def State.regView (s : State) (d : Nat) (a : RegAddr) : Nat :=
  let v := s.chip.rd d a
  if a.blk < 20 then s.chip.dieView d a v else s.chip.pkgView s.root a v

/-! ### Reads that change state -/

/-- The registers whose read latches the halves above them (R125, R543; CLK_TB_NS_LO; DRE_WORDS_LO, DRE_STARTS_LO). -/
def Chip.readLatch (c : Chip) (d : Nat) (a : RegAddr) : Chip :=
  let keep := fun (v : Nat) => c.setSp fun s => { s with latch := tput 0 s.latch (bar4 d ⟨a.blk, a.off + 4⟩) (v / 2 ^ 32) }
  if a.blk = 3 ∧ 0x40 ≤ a.off ∧ a.off < 0x60 ∧ a.off % 8 = 0 then keep (tget 0 c.rl.epcPkts (d * 4 + (a.off - 0x40) / 8))
  else if a = R.dreWordsLo then keep (tget 0 c.dre.dreWords d)
  else if a = R.dreStartsLo then keep (tget 0 c.dre.dreStarts d)
  else if a = R.clkTbNsLo ∧ d = 0 then
    { c with clk := { c.clk with tbLatchHi := c.ns / 2 ^ 32, tbLatchFrac := c.now % 65536 } }
  else if a = R.pkgCfgCrcRefLo then { c with cfg := { c.cfg with refLatch := c.cfg.ref / 2 ^ 32 } }
  else if a = R.pkgCfgCrcNowLo then { c with cfg := { c.cfg with nowLatch := c.cfg.now / 2 ^ 32 } }
  else c

/-- A 32-bit read of a register by a master that reaches it (R528, R537): its value, and the state with RC fields cleared
and halves latched. -/
def State.regRead (s : State) (m : Master) (d : Nat) (a : RegAddr) : Nat × State :=
  match findReg a.blk a.off with
  | none => (0, s)
  | some r =>
    let v := (applyRead r m (BitVec.ofNat 32 (s.regView d a))).toNat
    let s := if r.rc = 0 ∨ m = .tenant then s
      else s.onChip fun c => c.wr d a ((c.rdw d a &&& ~~~ BitVec.ofNat 32 r.rc).toNat)
    (v, s.onChip fun c => c.readLatch d a)

/-! ### Doorbell pages (R384) -/

/-- CHN_STATUS. The steward's version is the one a restart chose last, 0 before the first (R435). Log 21 (DESIGN CHOICE). -/
def Chip.chnStatus (c : Chip) (f : Nat) : Nat :=
  let h := c.chan f
  let ver := if f = stewardFn then h.ver else (c.inst f).entryVer
  h.dsHalt + h.cqHalt * 2 ^ 8 + ver % 256 * 2 ^ 16 + min (cacheSlots h.cache) 8 * 2 ^ 24 + inProgress h % 16 * 2 ^ 28

/-- What a register of a doorbell page reads: offsets 0x000 to 0x07F, and on the steward's page its setup; nothing while the gate
of the die's channel block is closed (R478). -/
def Chip.pageRead (c : Chip) (f off : Nat) : Nat :=
  let h := c.chan f
  if !c.gateOpen (c.fnDie f) 14 then 0 else
  let low := fun (v : Nat) => v % 2 ^ 32
  let high := fun (v : Nat) => v / 2 ^ 32
  match off with
  | 0x00 => h.dsP
  | 0x04 => h.dsC
  | 0x08 => h.cqP
  | 0x0C => h.cqC
  | 0x20 => c.chnStatus f
  | 0x24 => h.dsK + h.cqK * 2 ^ 8
  | 0x40 => h.modCfg
  | 0x44 => h.modTime
  | 0x48 => b2n h.armed + 2 * b2n h.pending
  | 0x4C => h.stash.length + b2n h.full * 128
  | _ =>
    if f ≠ stewardFn then 0
    else match off with
      | 0x100 => low h.dsBase
      | 0x104 => high h.dsBase
      | 0x108 => low h.cqBase
      | 0x10C => high h.cqBase
      | 0x110 => low h.shadow
      | 0x114 => high h.shadow
      | 0x118 => h.dsK + h.cqK * 2 ^ 8 + h.verNew * 2 ^ 16
      | 0x11C => 0x0201
      | _ => 0

/-- Writes a field of the steward's setup: only while both rings are halted (R390). -/
def stwSetup (off : Nat) (v : Nat) (c : Chip) : Chip :=
  let h := c.chan stewardFn
  let lo := fun (old : Nat) => old / 2 ^ 32 * 2 ^ 32 + v
  let hi := fun (old : Nat) => old % 2 ^ 32 + v * 2 ^ 32
  if h.dsHalt = 0 ∨ h.cqHalt = 0 then c
  else
    c.setChan stewardFn (match off with
      | 0x100 => { h with dsBase := lo h.dsBase }
      | 0x104 => { h with dsBase := hi h.dsBase }
      | 0x108 => { h with cqBase := lo h.cqBase }
      | 0x10C => { h with cqBase := hi h.cqBase }
      | 0x110 => { h with shadow := lo h.shadow }
      | 0x114 => { h with shadow := hi h.shadow }
      | 0x118 => { h with dsK := bitsN v 0 5, cqK := bitsN v 8 5, verNew := bitsN v 16 8 }
      | _ => h)

/-- A 32-bit write to a doorbell page; while the instance is Resetting every one is ignored (R387). -/
def pageWrite (f off : Nat) (value : Reg32) (c : Chip) : Chip :=
  if !c.bellOk f then c
  else match off with
    | 0x00 => chnDsProd f value c
    | 0x0C => chnCqCons f value c
    | 0x10 => chnDsRestart f value c
    | 0x14 => chnCqRestart f value c
    | 0x18 => chnInvalidate f value c
    | 0x1C => chnAbort f value c
    | 0x40 => (c.setChan f { c.chan f with modCfg := value.toNat &&& 0x1FFFFFFF }).modCheck f
    | 0x44 => (c.setChan f { c.chan f with modTime := value.toNat &&& 0xFFFF }).modCheck f
    | 0x48 => dmaModArm f value c
    | _ => if f = stewardFn then stwSetup off value.toNat c else c

/-! ### Where an access goes -/

/-- What a master's offset names. Offsets below 2³⁰ are BAR4's for the Tether and the steward; the steward's PF BAR0 lies
at 2³⁰; a tenant's are instance × 4,096 + page offset, and from 2²⁹ the BAR0 of other PFs at 2²⁹ + PF × 2²⁶; recovery BAR0 lies
at 2³³, the Expansion ROM window of a PF at 2³⁴ + PF × 2²⁴, the configuration space of a function at 2³⁶ + key × 4,096, and
its BAR2 at 2³⁷ + key × 2²⁰; the Tether makes no PCI Express requests. Log 9 (DESIGN CHOICE). -/
inductive Place where
  | bar4 (off : Nat)
  | page (f off : Nat)
  /-- The read-only view of a VF's page in its PF's BAR0; `pf` is port × 2 + link, `page` counts from 0. -/
  | pfView (pf page off : Nat)
  | recovery (off : Nat)
  | rom (pf off : Nat)
  | config (k off : Nat)
  | vectors (k off : Nat)
  | nowhere
deriving DecidableEq, Repr

/-- Offset in a PF's BAR0, 64 MiB. Log 9 (DESIGN CHOICE). -/
def bar0Place (pf off : Nat) : Place := if off < 0x04000000 then .pfView pf (off / 4096) (off % 4096) else .nowhere

/-- Where an offset of a host leads, above what only its own functions hold. Log 9 (DESIGN CHOICE). -/
def hostPlace (off : Nat) : Place :=
  if 0x2000000000 ≤ off then .vectors ((off - 0x2000000000) / 0x100000) (off % 0x100000)
  else if 0x1000000000 ≤ off then .config ((off - 0x1000000000) / 4096) (off % 4096)
  else if 0x400000000 ≤ off then .rom ((off - 0x400000000) / 0x1000000) (off % 0x1000000)
  else .recovery (off - 0x200000000)

/-- Where an offset of a master leads. Log 9 (DESIGN CHOICE). -/
def Chip.placeOf (c : Chip) (m : Master) (off : Nat) : Place :=
  match m with
  | .tether => if off < 0x40000000 then .bar4 off else .nowhere
  | .steward =>
    if 0x200000000 ≤ off then hostPlace off
    else if off < 0x40000000 then .bar4 off
    else if off - 0x40000000 < 4096 then .page stewardFn (off - 0x40000000)
    else bar0Place c.stwPf (off - 0x40000000)
  | .tenant =>
    if 0x200000000 ≤ off then hostPlace off
    else if off < 4096 * 4096 then .page (off / 4096) (off % 4096)
    else if 0x20000000 ≤ off then bar0Place ((off - 0x20000000) / 0x04000000) ((off - 0x20000000) % 0x04000000)
    else .nowhere

/-- The function whose memory a place lies in, for a master on PCI Express. -/
def Chip.placeFn (c : Chip) (m : Master) : Place → Option Nat
  | .bar4 _ => if m = .steward then some c.stwPf else none
  | .page f _ => if f = stewardFn ∨ ((c.inst f).st ≠ .free ∧ (c.inst f).orphaned = false) then some (c.fnPci f) else none
  | .pfView pf _ _ => if c.isRcv pf then none else some pf
  | .recovery _ => some (c.boot.rcvPort.toNat * 2)
  | .rom pf _ => some pf
  | .vectors k _ => if c.isRcv k then none else some k
  | _ => none

/-- The function that answers a memory request there as an Unsupported Request (R334, R335). -/
def Chip.refusedBy (c : Chip) (m : Master) (p : Place) : Option Nat := (c.placeFn m p).filter fun k => c.memAnswer k == some false

/-- The function of a place answers memory requests there. -/
def Chip.served (c : Chip) (k : Nat) : Bool := c.memAnswer k == some true

/-- Function that answers a write to the doorbell page of `f` with an Unsupported Request (R334); none where the page answers. -/
def Chip.bellRefused (c : Chip) (f : Nat) : Option Nat :=
  if c.pageOk f then none else c.refusedBy (if f = stewardFn then .steward else .tenant) (.page f 0)

/-- A row that names a doorbell of function `f` at page offset `off`: an Unsupported Request where the function takes no memory
request (R334), the doorbell's effect otherwise. Log 9 (DESIGN CHOICE). -/
def doorbell (f off : Nat) (g : Chip → Chip) (c : Chip) : Chip :=
  match c.bellRefused f with
  | some k => c.unsupported k off
  | none => g c

/-- A function of the normal part answers there: the recovery function has neither BAR2 nor doorbell pages (R339). -/
def Chip.servedPf (c : Chip) (k : Nat) : Bool := c.served k && !c.isRcv k

/-- Host port that a function's page is reached through. -/
def Chip.pagePort (c : Chip) (f : Nat) : Nat := if f = stewardFn then c.stwPort else (c.inst f).port

/-- Die and register that a BAR4 offset names; none where the offset is reserved (order 1 of R531). Log 9 (DESIGN CHOICE). -/
def namedBar4 (off : Nat) : Option (Nat × RegAddr) := (decodeBar4 off).filter fun x => (findReg x.2.blk x.2.off).isSome

/-- A 32-bit access to BAR4 by a master that has register space (R531): the value read, 0 for a write. Log 9 (DESIGN CHOICE). -/
def bar4Access (m : Master) (off : Nat) (value : Option Reg32) (s : State) : Nat × State :=
  match namedBar4 off with
  | none => (0, s)
  | some (d, a) =>
    match s.chip.path m d a.blk with
    | .clear =>
      match value with
      | some v => (0, s.onChip fun c => c.regWrite m d a v)
      | none => s.regRead m d a
    | .unreachable => (0, s.onChip fun c => c.accessFail d)
    | .absent => (0, s)
    | .gated => (0, s)

/-- A write of TET_FUSE_CTRL: the arming word, or an operation with key 0 (R460). -/
def fuseCtrl (version : Nat) (value : Reg32) (r : Root) : Root :=
  if value.toNat = 1 then advanceCounter version r
  else if value.toNat = 2 then debugLock r
  else fuseArm value r

/-- A 32-bit write to BAR4; TET_FUSE_CTRL acts on the fuse block. Log 16 (DEDUCED). -/
def bar4Store (m : Master) (off : Nat) (v : Reg32) (s : State) : State :=
  if off = 0x20000000 + 0x100000 + 0x20 then s.onRoot (fuseCtrl s.chip.boot.secVersion v) else (bar4Access m off (some v) s).2

/-- A 32-bit write to the recovery function's BAR0 (R457): address, length, a word of the buffer while no operation runs; a
command starts one. -/
def rcvStore (off : Nat) (v : Reg32) (r : Root) : Root :=
  if off = 8 then
    let op := bitsN v.toNat 0 2
    if op = 0 then r else rcvStart op (BitVec.ofNat 28 r.rcvAddr) (BitVec.ofNat 16 r.rcvLen) [] r
  else if r.rcvOp.isSome then r
  else if off = 0 then { r with rcvAddr := bitsN v.toNat 0 28 }
  else if off = 4 then { r with rcvLen := bitsN v.toNat 0 16 }
  else if 0x8000 ≤ off ∧ off < 0x10000 then { r with rcvBuf := twriteN 0#8 r.rcvBuf (off - 0x8000) (toLE 4 v.toNat) }
  else r

/-- The Expansion ROM window of a PF holds an offset (R323): the PF answers there, its Expansion ROM BAR is enabled and
its die's window is that large. -/
def Chip.romOk (c : Chip) (pf off : Nat) : Bool :=
  let k := c.romLog2 pf
  c.served pf && k != 0 && decide (off < 2 ^ k) && bitN (c.cfgRead pf 0x30) 0

/-- An access is of one aligned doubleword. -/
def isWord (size o : Nat) : Bool := size == 4 && o % 4 == 0

/-- An access is of one aligned pair of doublewords. -/
def isPair (size o : Nat) : Bool := size == 8 && o % 8 == 0

/-- A write of `size` bytes of a doubleword of configuration space: bytes not written keep their values, status bits among
them stay. -/
def Chip.cfgBytes (c : Chip) (k off size v : Nat) : Chip :=
  let o := off / 4 * 4
  let once := if o = 0x104 ∨ o = 0x110 then 2 ^ 32 - 1 else cfgClear o
  let old := c.cfgRead k o &&& ((2 ^ 32 - 1) ^^^ once)
  c.cfgWrite k o (setBitsN old (8 * (off % 4)) (8 * size) v)

/-- A configuration request of a host (R338): `f` runs where the function answers. -/
def Chip.cfgRequest (c : Chip) (k off : Nat) (f : Chip → Chip) : Chip :=
  match c.cfgAnswer k with
  | .silent => c
  | .retry => c.emit (.retry off)
  | .absent => c.emit (.unsupported off)
  | .here => f c

/-- A write of `size` bytes by master `m` (R530, R384): 32-bit aligned anywhere, 64-bit aligned in BAR4 as two, the lower
address first; any other is ignored and counted in BAD_ACCESS. Log 9 (DESIGN CHOICE). -/
def hostStore (m : Master) (off size : Nat) (value : BitVec 64) (s : State) : State :=
  let low : Reg32 := value.setWidth 32
  let high : Reg32 := (value >>> 32).setWidth 32
  match s.chip.refusedBy m (s.chip.placeOf m off) with
  | some k => s.onChip fun c => c.unsupported k off
  | none =>
    match s.chip.placeOf m off with
    | .bar4 o =>
      if !s.chip.masterOk m then s
      else if isWord size o then bar4Store m o low s
      else if isPair size o then bar4Store m (o + 4) high (bar4Store m o low s)
      else s.onChip fun c => c.badAccess c.stwPort
    | .page f o =>
      if !s.chip.pageOk f then s
      else if isWord size o then s.onChip (pageWrite f o low)
      else s.onChip fun c => c.badAccess (c.pagePort f)
    | .pfView pf _ o => if s.chip.servedPf pf && !isWord size o then s.onChip fun c => c.badAccess (pf / 2) else s
    | .recovery o => if s.chip.served (s.chip.boot.rcvPort.toNat * 2) && isWord size o then s.onRoot (rcvStore o low) else s
    | .rom pf o => if s.chip.romOk pf o then s.onChip fun c => c.badAccess (pf / 2) else s
    | .config k o =>
      if o % 4 + size ≤ 4 then s.onChip fun c => c.cfgRequest k off fun c => c.cfgBytes k o size (bitsN value.toNat 0 (8 * size)) else s
    | .vectors k o =>
      if !s.chip.servedPf k then s
      else if isWord size o then s.onChip fun c => c.vecWrite k o low.toNat
      else if isPair size o then s.onChip fun c => (c.vecWrite k o low.toNat).vecWrite k (o + 4) high.toNat
      else s
    | .nowhere => s

/-- What the view of a VF's page in its PF's BAR0 reads (R322, R384): offsets 0x000 to 0x027 of the page of the VF's
instance. -/
def Chip.viewRead (c : Chip) (pf page off : Nat) : Nat :=
  if page = 0 ∨ 0x28 ≤ off ∨ c.totalVfs (pf / 2) (pf % 2) < page then 0
  else match c.instOfVf (pf / 2) (pf % 2) (page - 1) with
    | some i => c.pageRead i off
    | none => 0

/-- The recovery registers (R457). -/
def State.recoveryRead (s : State) (off : Nat) : Nat :=
  let r := s.root
  match off with
  | 0 => r.rcvAddr
  | 4 => r.rcvLen
  | 12 => b2n r.rcvOp.isSome + r.rcvResult * 2 + s.chip.boot.failCode * 2 ^ 8 + r.nvmLog2 * 2 ^ 16 + r.eraseLog2 * 2 ^ 20
  | _ => if 0x8000 ≤ off ∧ off < 0x10000 then leNat (treadN 0#8 r.rcvBuf (off - 0x8000) 4) else 0

/-- A read of two doublewords, the lower address first. -/
def readPair (f : Nat → State → Nat × State) (o : Nat) (s : State) : Nat × State :=
  let a := f o s
  let b := f (o + 4) a.2
  (a.1 + b.1 * 2 ^ 32, b.2)

/-- A read of `size` bytes by master `m` that is answered with data: the value and the state after it; none where nothing
answers. Reads of a size or alignment that the place does not take read zero and, where R384 or R530 says so, are counted in
BAD_ACCESS. Log 9 (DESIGN CHOICE). -/
def hostLoad (m : Master) (off size : Nat) (s : State) : Option (Nat × State) :=
  match s.chip.placeOf m off with
  | .bar4 o =>
    if !s.chip.masterOk m then none
    else if isWord size o then some (bar4Access m o none s)
    else if isPair size o then some (readPair (fun o s => bar4Access m o none s) o s)
    else some (0, s.onChip fun c => c.badAccess c.stwPort)
  | .page f o =>
    if !s.chip.pageOk f then none
    else if isWord size o then some (s.chip.pageRead f o, s)
    else some (0, s.onChip fun c => c.badAccess (c.pagePort f))
  | .pfView pf page o =>
    if !s.chip.servedPf pf then none
    else if isWord size o then some (s.chip.viewRead pf page o, s)
    else some (0, s.onChip fun c => c.badAccess (pf / 2))
  | .recovery o =>
    if s.chip.served (s.chip.boot.rcvPort.toNat * 2) then some (if isWord size o then s.recoveryRead o else 0, s) else none
  | .rom pf o => if s.chip.romOk pf o then some (leAt s.chip.boot.option o (min size 8), s) else none
  | .config k o =>
    if s.chip.cfgAnswer k = .here then
      some (if o % 4 + size ≤ 4 then bitsN (s.chip.cfgRead k (o / 4 * 4)) (8 * (o % 4)) (8 * size) else 0, s)
    else none
  | .vectors k o =>
    if !s.chip.servedPf k then none
    else if isWord size o then some (s.chip.vecRead k o, s)
    else if isPair size o then some (s.chip.vecRead k o + s.chip.vecRead k (o + 4) * 2 ^ 32, s)
    else some (0, s)
  | .nowhere => none

/-- What answers a read without data: Unsupported Request or Retry Status (R334, R338), or nothing. -/
def Chip.noData (c : Chip) (m : Master) (off : Nat) : Chip :=
  match c.placeOf m off with
  | .config k _ => c.cfgRequest k off id
  | p => match c.refusedBy m p with
    | some k => c.unsupported k off true
    | none => c

/-- COUNTER_READ_CLEAR and every other read of a host, the Tether or a debug instruction: the value goes out with the attributes of
its request (R328). -/
def counterRead (m : Master) (off size attr : Nat) (s : State) : State :=
  match (s.chip.refusedBy m (s.chip.placeOf m off)).isSome, hostLoad m off size s with
  | false, some (v, t) => t.onChip fun c => c.emit (.regRead off v attr)
  | _, _ => s.onChip fun c => c.noData m off

end Sys2Proof.Machine
end

