-- ==== Sys2Proof/Machine/Boot.lean ====
section
/-! DEFINITION. Boot from the image in the NVM (spec/17 R445–R457, spec/10 R303–R306, R71): the steps of R455, each ended by
one BOOT_STEP_COMPLETE, with the checks of R453. -/

namespace Sys2Proof.Machine

/-! ### The image in the NVM (R447–R449) -/

/-- NVM bytes. Log 1 (DESIGN CHOICE). -/
def Root.nvmRead (r : Root) (a n : Nat) : Bytes := treadN 0xFF#8 r.nvm a n

/-- First byte and size of a slot. -/
def Root.slotBase (r : Root) (slotB : Bool) : Nat := if slotB then r.nvmSize / 2 else 0
def Root.slotSize (r : Root) : Nat := r.nvmSize / 2 - 65536

/-- Bytes of the image in a slot. -/
def Root.img (r : Root) (slotB : Bool) (a n : Nat) : Bytes := r.nvmRead (r.slotBase slotB + a) n
def Root.imgBe (r : Root) (slotB : Bool) (a n : Nat) : Nat := beNat (r.img slotB a n)

/-- The section table. -/
def Root.sectionTable (r : Root) (slotB : Bool) : List Section :=
  (List.range (r.imgBe slotB 12 2)).map fun j =>
    let o := 192 + 48 * j
    ⟨r.imgBe slotB o 2, r.imgBe slotB (o + 2) 2, r.imgBe slotB (o + 4) 4, r.imgBe slotB (o + 8) 4, r.imgBe slotB (o + 16) 32⟩

/-- A section lies before another. -/
def Section.before (a b : Section) : Bool := decide (a.offset + a.length ≤ b.offset)

/-- The section types that an image format knows (R449, R439). -/
def knownType (format t : Nat) : Bool := decide (1 ≤ t) && decide (t ≤ (if format = 2 then 10 else 11))

/-- Check 8 (R453); the automaton is at most 16 MiB (R134, R449). -/
def sectionsOk (format length : Nat) (l : List Section) : Bool :=
  l.all (fun s => decide (s.offset % 64 = 0) && decide (192 + 48 * l.length ≤ s.offset) && decide (s.offset + s.length ≤ length) &&
    (knownType format s.typ || s.flags % 2 == 1) && (s.typ != 3 || (decide (4 ≤ s.length) && decide (s.length ≤ 4 + 2 ^ 24)))) &&
    [1, 2, 6, 9, 10].all (fun t => l.any fun s => s.typ == t) &&
    l.Pairwise fun a b => a.typ ≠ b.typ ∧ (a.before b || b.before a)

/-- Contents of the section of a type; none where the image has no such section. Log 33 (DESIGN CHOICE). -/
def Root.sect (r : Root) (b : Boot) (t : Nat) : Option Bytes :=
  if knownType b.format t then (b.sections.find? fun s => s.typ == t).map fun s => r.img b.slotB s.offset s.length else none

/-- Contents of a section, empty where it is absent. -/
def Root.sectOr (r : Root) (b : Boot) (t : Nat) : Bytes := (r.sect b t).getD []

/-! ### Checks 1 to 11 (R453) -/

/-- A fuse field of `n` bytes and its CRC (R458). -/
def crcOk (n v crc : Nat) : Bool := (v == 0 && crc == 0) || (crc32c (toLE n v)).toNat == crc

/-- The fuses sense valid and the die count is programmed (check 2). Log 29 (DESIGN CHOICE). -/
def Fuses.valid (f : Fuses) : Bool :=
  crcOk 32 f.rootKeyHash f.rootKeyCrc && crcOk 32 f.identitySeed f.identityCrc && crcOk 32 f.kekSeed f.kekCrc &&
    crcOk 32 f.patchSeed f.patchCrc && f.dieCount == f.dieCountDup && f.dieCount != 0#2

/-- Check 3: the NVM answers SFDP with a size of 32 to 256 MiB (R446). -/
def Root.nvmOk (r : Root) : Bool := r.nvmPresent && decide (5 ≤ r.nvmLog2) && decide (r.nvmLog2 ≤ 8)

/-- Every byte of a string is zero. -/
def allZero (b : Bytes) : Bool := b.all (· == 0#8)

/-- Checks 4 to 8, on an image for a part of `dies` dies: the failure code, or none. Log 38 (PRESUMED). -/
def Root.headerFails (r : Root) (slotB : Bool) (dies : Nat) : Option Nat :=
  let be := r.imgBe slotB
  let n := be 12 2
  let hash := sm3 (r.img slotB 64 64) % 2 ^ 256
  if be 0 4 ≠ 0x4C525849 ∨ r.slotSize < be 8 4 ∨ n = 0 ∨ 32 < n ∨ 64 < be 16 4 then some Fail.headerInvalid
  else if !(allZero (r.img slotB 6 2) && allZero (r.img slotB 15 1) && allZero (r.img slotB 28 36)) then some Fail.headerInvalid
  else if be 4 2 ≠ 2 ∧ be 4 2 ≠ 3 then some Fail.formatVersion
  else if be 14 1 ≠ dies then some Fail.dieCount
  else if r.fuses.rootKeyHash = 0 ∨ hash ≠ r.fuses.rootKeyHash then some Fail.rootKeyMismatch
  else if !sectionsOk (be 4 2) (be 8 4) (r.sectionTable slotB) then some Fail.sectionInvalid
  else none

/-- D, the digest of the signed message (R452). -/
def Root.imageDigest (r : Root) (slotB : Bool) : Nat :=
  sm3 (r.img slotB 0 64 ++ r.img slotB 192 (r.imgBe slotB 8 4 - 192)) % 2 ^ 256

/-- Checks 9 to 11: the failure code, or none. -/
def Root.imageFails (r : Root) (slotB : Bool) : Option Nat :=
  if !sm2Verify (r.img slotB 64 64) (r.img slotB 128 64) (r.imageDigest slotB) then some Fail.signatureInvalid
  else if (r.sectionTable slotB).any fun s => sm3 (r.img slotB s.offset s.length) % 2 ^ 256 != s.digest then some Fail.sectionDigest
  else if r.imgBe slotB 16 4 < r.arbCounter then some Fail.rollback
  else none

/-! ### Loading: stops at the first configuration error (R454, R457) -/

/-- The part as loaded so far, and the class and die of the configuration error that stopped it. -/
abbrev Load := Chip × Option (Nat × Nat)

/-- Goes on unless an error has stopped the loading. -/
def andThen (l : Load) (f : Chip → Load) : Load :=
  match l.2 with
  | some _ => l
  | none => f l.1

/-- Loads one item after another. -/
def loadEach {α : Type} (xs : List α) (f : Chip → α → Load) (c : Chip) : Load := xs.foldl (fun l x => andThen l fun c => f c x) (c, none)

/-- Stops with a class on die 0 if `bad`. -/
def stopIf (bad : Bool) (cls : Nat) (c : Chip) : Load := (c, if bad then some (cls, 0) else none)

/-! ### Step 6: configuration records (R450) -/

/-- A configuration record: target, offset, value. -/
structure CfgRec where
  target : Nat
  off : Nat
  value : Nat
deriving DecidableEq, Repr

/-- The records of the section. -/
def cfgRecs (b : Bytes) : List CfgRec :=
  (List.range (beAt b 0 4)).map fun i =>
    let o := 4 + 12 * i
    ⟨byteAt b o, beAt b (o + 4) 4, beAt b (o + 8) 4⟩

/-- The register that a record names; none where its offset is reserved. -/
def CfgRec.reg (x : CfgRec) : Option RegAddr :=
  if x.off % 4 ≠ 0 then none
  else
    let a : RegAddr := if x.target = 0x10 then ⟨32 + x.off / 0x100000, x.off % 0x100000⟩ else ⟨x.off / 0x100000, x.off % 0x100000⟩
    let inRange := if x.target = 0x10 then a.blk < 35 else a.blk < 20
    if inRange ∧ (findReg a.blk a.off).isSome then some a else none

/-- The dies that a record is for; the package block counts as die 0. -/
def CfgRec.dies (c : Chip) (x : CfgRec) : List Nat :=
  if x.target = 0x0F then c.allDies else if x.target = 0x10 then [0] else if x.target < c.dies then [x.target] else []

/-- A record is a configuration error (R450). Log 33 (DESIGN CHOICE). -/
def CfgRec.bad (c : Chip) (x : CfgRec) : Bool :=
  match x.reg with
  | none => true
  | some a =>
    (x.dies c).isEmpty ||
      ((List.range 4).any fun h => a == R.hepEpCfg h && (x.dies c).any fun d => bitN x.value 0 != bitN c.boot.bifurcation (4 * d + h)) ||
      a == R.pkgTenantMode || (a.blk == 16 && (match findReg a.blk a.off with | some r => r.sec != 0 | none => false))

/-- The value of a record with the enable fields masked (R450). Log 33 (DESIGN CHOICE). -/
def CfgRec.masked (x : CfgRec) (a : RegAddr) : Reg32 :=
  let v := x.value
  let v := if a.off = 0 ∧ a.blk < 17 ∧ a.blk ≠ 3 then setBitN v 0 false else v
  BitVec.ofNat 32 (if a = R.bufCtrl then setBitN v 2 false else v)

/-- A write by the Tether (R531). -/
def Chip.tetherWrite (c : Chip) (d : Nat) (a : RegAddr) (v : Reg32) : Chip :=
  match c.path .tether d a.blk with
  | .clear => c.regWrite .tether d a v
  | .unreachable => c.accessFail d
  | .absent => c
  | .gated => c

/-- Writes a record's register on every die it is for. Log 33 (DESIGN CHOICE). -/
def Chip.cfgRecord (c : Chip) (x : CfgRec) : Load :=
  if x.bad c then (c, some (Cls.tetRecordInvalid, if x.target < c.dies then x.target else 0))
  else
    match x.reg with
    | some a => ((x.dies c).foldl (fun c d => c.tetherWrite d a (x.masked a)) c, none)
    | none => (c, none)

/-- What the records do to the fuse block: a record may write TET_FUSE_CTRL as any master may (R460). -/
def Root.cfgRecords (r : Root) (c : Chip) (xs : List CfgRec) : Root :=
  (xs.takeWhile fun x => !x.bad c).foldl (fun r x => if x.reg = some R.tetFuseCtrl then fuseCtrl c.boot.secVersion (BitVec.ofNat 32 x.value) r else r) r

/-- The span identity section (R415), on every die. -/
def Chip.spanIdentity (c : Chip) (b : Bytes) : Chip :=
  c.allDies.foldl (fun c d =>
    let c := (c.wr d R.spnDomain (beAt b 0 4)).wr d R.spnDevice (beAt b 4 2 % 2 ^ 14)
    (c.wr d R.spnBaseMacLo (beAt b 8 6 % 2 ^ 32 / 512 * 512)).wr d R.spnBaseMacHi (beAt b 8 6 / 2 ^ 32)) c

/-- A format 2 image set a bit of SPN_PORT_EN (R439). -/
def Chip.spanPortsSet (c : Chip) : Bool := c.allDies.any fun d => c.rd d R.spnPortEnLo != 0 || c.rd d R.spnPortEnHi != 0

/-- Step 6: records, steward designation, span identity, mode preset. Log 33 (DESIGN CHOICE). -/
def Chip.loadConfig (c : Chip) (r : Root) : Load :=
  let sect := r.sect c.boot
  andThen (loadEach (cfgRecs ((sect 1).getD [])) (fun c x => c.cfgRecord x) c) fun c =>
    let s := (sect 10).getD []
    let c := (c.wfld 0 R.pkgSteward 0 5 (byteAt s 0 % 32)).wfld 0 R.pkgSteward 5 1 (byteAt s 1 % 2)
    let c := match sect 11 with | some b => c.spanIdentity b | none => c
    let c := c.wfld 0 R.pkgTenantMode 0 2 (byteAt ((sect 5).getD [0]) 0 % 4)
    stopIf (c.boot.format == 2 && c.spanPortsSet) Cls.spnCfgInvalid c

/-! ### Step 7: graph, automaton, microcode, tables, option image, certificates -/

/-- First 32 bits of an SM3 digest. -/
def digestId (b : Bytes) : Nat := sm3 b % 2 ^ 256 / 2 ^ 224

/-- The parse graph section (R71, R76, R77). -/
def Chip.loadGraph (c : Chip) (g : Bytes) : Load :=
  let n := beAt g 0 2
  let node := fun (k : Nat) => leAt g (64 + 64 * k) 64
  let trans := fun (k : Nat) => leAt g (64 + 64 * n + 16 * k) 16
  if n = 0 ∨ 256 < n then (c, some (Cls.parseGraphInvalid, 0))
  else if (List.range n).any fun k => !Node.valid n (node k) ((List.range 16).map fun j => trans (16 * k + j)) then
    (c, some (Cls.parseGraphInvalid, 0))
  else
    let nodes := (List.range n).foldl (fun t k => tput 0 t k (node k)) []
    let ts := (List.range (16 * n)).foldl (fun t k => tput 0 t k (trans k)) []
    let c := c.setDp fun s => { s with nodes := nodes, trans := ts }
    let c := c.allDies.foldl (fun c d => (c.wr d R.pgrGraphInfo n).wr d R.pgrGraphId (digestId g)) c
    match c.allDies.find? fun d => (c.parserCheck d).isSome with
    | some d => (c, some (Cls.parseGraphInvalid, d))
    | none => (c, none)

/-- The pattern automaton section (R127). More than 65,536 patterns (R134) are a configuration error, for which the spec
names no class: TET_TABLE_LOAD_FAIL. Log 75 (DESIGN CHOICE). -/
def Chip.loadAutomaton (c : Chip) (a : Option Bytes) : Load :=
  match a with
  | none => (c, none)
  | some b =>
    if 65536 < beAt b 0 4 then (c, some (Cls.tetTableLoadFail, 0))
    else
    let c := c.setDp fun s => { s with automaton := if beAt b 0 4 = 0 then [] else b.drop 4 }
    (c.allDies.foldl (fun c d => (c.wr d R.hgtAutomatonInfo (beAt b 0 4)).wr d R.hgtAutomatonId (digestId (b.drop 4))) c, none)

/-- Control store and entry table while microcode and patches are put together. -/
structure Micro where
  words : Tab Nat
  entries : Tab Nat
deriving DecidableEq, Repr

/-- Words of a microcode section (R449): 0 means 32,768. -/
def microCount (b : Bytes) : Nat := if beAt b 2 2 = 0 then 32768 else beAt b 2 2

/-- The microcode section's words (least significant byte first, R286) and entry table. -/
def microOf (b : Bytes) : Micro :=
  let n := microCount b
  ⟨(List.range n).foldl (fun t k => tput 0 t k (leAt b (4 + 24 * k) 24)) [],
    (List.range 256).foldl (fun t k => tput 0 t k (beAt b (4 + 24 * n + 2 * k) 2 % 2 ^ 15)) []⟩

/-- A patch record of the section (R305), cut at its length. -/
def patchLength (b : Bytes) : Nat := 104 + beAt b 8 4

/-- The patch records, end to end. -/
def patchRecs : Nat → Bytes → List Bytes
  | 0, _ => []
  | n + 1, b => if b.isEmpty then [] else slice b 0 (patchLength b) :: patchRecs n (b.drop (patchLength b))

/-- A hunk of a patch: target, address, values. -/
structure Hunk where
  table : Bool
  addr : Nat
  vals : List Nat
deriving DecidableEq, Repr

/-- The hunks of a plaintext; none where one does not fit in it or in its target (R306). -/
def hunksOf : Nat → Bytes → Option (List Hunk)
  | 0, _ => some []
  | n + 1, b =>
    if b.isEmpty then some []
    else
      let t := beAt b 0 2
      let k := beAt b 2 2
      let table := decide (2 ^ 15 ≤ t)
      let size := if table then 2 else 24
      if b.length < 4 + size * k ∨ (if table then 256 else 32768) < t % 2 ^ 15 + k then none
      else
        let vals := (List.range k).map fun i => if table then beAt b (4 + 2 * i) 2 % 2 ^ 15 else leAt b (4 + 24 * i) 24
        (hunksOf n (b.drop (4 + size * k))).map fun l => ⟨table, t % 2 ^ 15, vals⟩ :: l

/-- The patch key (R305). -/
def patchKey (seed : Nat) : Bytes := toBE 16 (kdf seed [0x4C, 0x52, 0x58, 0x20, 0x50, 0x41, 0x54, 0x43, 0x48] % 2 ^ 256 / 2 ^ 128)

/-- The check of a patch record (R304, R306): its hunks, or the class that refuses it. -/
def patchCheck (seed : Nat) (signer b : Bytes) : List Hunk ⊕ Nat :=
  let n := beAt b 8 4
  if beAt b 0 4 ≠ 0x4C504348 ∨ n % 4 ≠ 0 ∨ 1048576 < n then .inr Cls.drePatchInvalid
  else if beAt b 4 2 ≠ 5 then .inr Cls.dreAbiMismatch
  else if !sm2Verify signer (slice b (40 + n) 64) (sm3 (slice b 0 (40 + n)) % 2 ^ 256) then .inr Cls.drePatchInvalid
  else
    let (plain, ok) := opened 3 (patchKey seed) (slice b 12 12) (slice b 0 24) (slice b 24 n) (slice b (24 + n) 16)
    if !ok then .inr Cls.drePatchInvalid
    else match hunksOf plain.length plain with
      | some l => .inl l
      | none => .inr Cls.drePatchInvalid

/-- Writes a hunk. -/
def Micro.hunk (m : Micro) (h : Hunk) : Micro :=
  if h.table then { m with entries := twriteN 0 m.entries h.addr h.vals } else { m with words := twriteN 0 m.words h.addr h.vals }

/-- Loads control store and entry table into every die (R303, R306, R307). Log 33 (DESIGN CHOICE). -/
def Chip.loadMicro (c : Chip) (m : Micro) (count patches : Nat) : Chip :=
  let bytes := (List.range count).flatMap (fun k => toLE 24 (tget 0 m.words k)) ++ (List.range 256).flatMap fun k => toBE 2 (tget 0 m.entries k)
  let c := c.setDre fun s => { s with cstore := m.words }
  c.allDies.foldl (fun c d =>
    let c := c.wr d R.dreCsInfo (count % 2 ^ 16 + 5 * 2 ^ 16 + min patches 255 * 2 ^ 24)
    let c := c.wr d R.dreCsId (digestId bytes)
    (List.range 256).foldl (fun c k => c.wr d (R.dreEntry k) (tget 0 m.entries k)) c) c

/-- Microcode and patches: every patch is checked before any is written. Log 33 (DESIGN CHOICE). -/
def Chip.loadMicrocode (c : Chip) (seed : Nat) (signer b patches : Bytes) : Load :=
  if beAt b 0 2 ≠ 5 then (c, some (Cls.dreAbiMismatch, 0))
  else
    let checked := (patchRecs patches.length patches).map (patchCheck seed signer)
    match checked.findSome? fun x => match x with | .inr cls => some cls | .inl _ => none with
    | some cls => (c, some (cls, 0))
    | none =>
      let hunks := checked.flatMap fun x => match x with | .inl l => l | .inr _ => []
      (c.loadMicro (hunks.foldl Micro.hunk (microOf b)) (microCount b) checked.length, none)

/-- The items of the initial tables section (R451): kind and the entry, RULE_CHANGE or GROUP_UPDATE, whose bytes from 8 on
are the body. -/
def tableItems : Nat → Bytes → List (Nat × Bytes)
  | 0, _ => []
  | n + 1, b =>
    if b.isEmpty then []
    else
      let l := beAt b 2 2
      let typ := if byteAt b 0 = 1 then 0x43#8 else 0x44#8
      (byteAt b 0, BitVec.ofNat 8 (min 63 (ceilDiv (8 + l) 32)) :: typ :: (List.replicate 6 0#8 ++ slice b 4 l)) :: tableItems n (b.drop (4 + l))

/-- Applies a QoS object of the initial tables at once. -/
def Chip.bootQos (c : Chip) (q : QosChange) : Chip :=
  match q with
  | .policer .. => c.switchQos q
  | .shaper n _ _ _ => c.applyQos (n / 131072) c.now q
  | .inst .. => c

/-- Applies one item of the initial tables, with no birth or death mark; a body of the wrong size would complete with
ENTRY_SIZE (R451). -/
def Chip.tableItem (c : Chip) (kind : Nat) (b : Bytes) : Load :=
  let bad : Load := (c, some (Cls.tetTableLoadFail, 0))
  if (entryRefused b stewardFn 2).isSome then bad
  else if kind = 1 then
    if Chg.op b ≠ 1 ∨ (c.chgFails b).isSome then bad
    else match Chg.qos b with
      | some q => (c.bootQos q, none)
      | none => match c.chgInsert b 0 with
        | some c => (c.remark fun m => m.sweep 0, none)
        | none => bad
  else if kind = 2 then
    if (c.groupFails b).isSome then bad
    else (c.setRl fun r => { r with groups := tput [] r.groups (groupKey b) (groupMembers b) }, none)
  else bad

/-- The option image (R323): one larger than the window of a die is a configuration error. Log 33 (DESIGN CHOICE). -/
def Chip.loadOption (c : Chip) (b : Bytes) : Load :=
  let small := fun (d : Nat) => let k := c.fld d R.hepRomCfg 0 5; k != 0 && decide (2 ^ k < b.length)
  match c.allDies.find? small with
  | some d => (c, some (Cls.hepCfgInvalid, d))
  | none =>
    let c := { c with boot := { c.boot with option := b } }
    (c.allDies.foldl (fun c d => c.wfld d R.hepRomCfg 8 15 (ceilDiv b.length 1024)) c, none)

/-- The certificates of the identity section. -/
def certsOf : Nat → Bytes → List Bytes
  | 0, _ => []
  | n + 1, b => slice b 4 (beAt b 0 4) :: certsOf n (b.drop (4 + beAt b 0 4))

/-- The device identity public key (R462). -/
def Root.idKey (r : Root) : Bytes := slice (sm2Public (scalarOf r.fuses.identitySeed labelId)) 0 64

/-- The leaf certificate of the certificate area (R447, R463); none where it holds none for the identity key. -/
def Root.leafCert (r : Root) : Option Bytes :=
  let a := r.nvmSize - 65536
  let n := beNat (r.nvmRead (a + 4) 4)
  let cert := r.nvmRead (a + 8) n
  if beNat (r.nvmRead a 4) = 0x4C434552 ∧ 1 ≤ n ∧ n ≤ 65528 ∧ Config.certHasKey cert r.idKey = true then some cert else none

/-- SPDM slot 0 (R463). -/
def Chip.loadChain (c : Chip) (r : Root) (b : Bytes) : Chip :=
  match r.leafCert with
  | some leaf => { c with boot := { c.boot with certPresent := true, chain := leaf :: certsOf (byteAt b 0) (b.drop 4) } }
  | none => c.raise Cls.tetCertAbsent 0 { block := 0x22 }

/-- Step 7. Log 33 (DESIGN CHOICE). -/
def Chip.loadMemories (c : Chip) (r : Root) : Load :=
  let b := c.boot
  andThen (c.loadGraph (r.sectOr b 2)) fun c =>
    andThen (andThen (c.loadAutomaton (r.sect b 3)) fun c =>
        c.loadMicrocode r.fuses.patchSeed (r.img b.slotB 64 64) (r.sectOr b 6) (r.sectOr b 7)) fun c =>
      let t := r.sectOr b 4
      andThen (loadEach (tableItems t.length t) (fun c x => c.tableItem x.1 x.2) c) fun c =>
        andThen (c.loadOption (r.sectOr b 8)) fun c => (c.loadChain r (r.sectOr b 9), none)

/-! ### Step 8: enabling (R455) -/

/-- What the Tether enables, in order: block numbers, and 100 for the Spillway. Log 32 (DEDUCED). -/
def enableOrder : List Nat := [4, 0, 1, 2, 5, 100, 6, 7, 9, 10, 11, 13, 15, 14, 16, 12, 8]

/-- Enables one block on one die. A check that refuses is a configuration error. Log 32 (DEDUCED). -/
def Chip.enableOne (c : Chip) (b d : Nat) : Load :=
  if b = 100 then (c.tetherWrite d R.bufCtrl (BitVec.ofNat 32 (setBitN (c.rd d R.bufCtrl) 2 true)), none)
  else
    let a : RegAddr := ⟨b, 0⟩
    match c.enableCheck d b with
    | some (cls, _) => (c, some (cls, d))
    | none => (c.tetherWrite d a (BitVec.ofNat 32 (setBitN (c.rd d a) 0 true)), none)

/-- Step 8: the reference of the configuration check, then every block on every die before the next. Log 32 (DEDUCED). -/
def Chip.enableAll (c : Chip) : Load := loadEach enableOrder (fun c b => loadEach c.allDies (fun c d => c.enableOne b d) c) c.cfgTake

/-! ### Step 9 (R455) -/

/-- DONE: key generations drawn (R347), the steward's channel not started, links of a die with its host endpoints disabled
down. Log 26 (DESIGN CHOICE). -/
def Chip.bootDone (c : Chip) : Chip :=
  let n := 512 * c.dies
  let gens := (List.range n).filterMap fun i =>
    let g := Config.free (c.free + i) % 2 ^ 32
    if g = 0 then none else some (i, g)
  let ms := Config.free (c.free + n) % 2 ^ 16
  let c := { c with free := c.free + n + 1, keygens := gens }
  let c := c.setChan stewardFn { Chan.none with verNew := 2 }
  let c := (c.allDies.filter fun d => !c.en d 12).foldl (fun c d => (List.range 4).foldl (fun c h =>
    (c.setHostLink (4 * d + h) 0 0 0 false false).setHostLink (4 * d + h) 1 0 0 false false) c) c
  { c with boot := { c.boot with state := .done, step := 10, bootMs := ms } }

/-! ### The steps -/

/-- Moves to the next step. Log 34 (DESIGN CHOICE). -/
def Chip.nextStep (c : Chip) (st : BootState) : Chip := { c with boot := { c.boot with step := c.boot.step + 1, state := st } }

/-- The cause byte of a configuration error's record: that of the scheduling block's check for FLUME_LAT_BELOW_MIN (R56). -/
def Chip.loadCause (c : Chip) (cls die : Nat) : Nat :=
  if cls = Cls.flumeLatBelowMin then ((c.schedCheck die).map Prod.snd).getD 0 else 0

/-- Ends a boot step with the load: on, or a configuration error, whose class is raised (R454). Log 34 (DESIGN CHOICE). -/
def Chip.endLoad (l : Load) (st : BootState) : Chip :=
  match l.2 with
  | none => l.1.nextStep st
  | some (cls, die) => (l.1.raise cls die { block := 0x22, cause := l.1.loadCause cls die }).bootFail Fail.configError cls die

/-- Step 2 (R453 checks 1 and 2, R457, R469): the root PLLs are locked; every die's time base starts from 0; a part without its
supplies shows WAIT_POWER from then on (R456). A PLL that does not lock ends the boot with HARDWARE (R454).
Logs 26 (DESIGN CHOICE), 34 (DESIGN CHOICE). -/
def Chip.bootStep2 (c : Chip) (r : Root) (hwFail : Option Nat) : Chip :=
  match hwFail.filter c.hasDie with
  | some d => c.bootFail Fail.hardware 0 d
  | none =>
  if c.clk.stage != .locked then c
  else
    let c := { c with clk := { c.clk with tb := 0, tbRun := true } }
    if c.boot.bootSel = 0b11#2 then c.bootFail Fail.strapInvalid 0 0
    else if !r.fuses.valid then c.bootFail Fail.fuseInvalid 0 0
    else if c.boot.bootSel = 0b10#2 then c.bootFail Fail.recoverySelected 0 0
    else c.nextStep (if c.pwr.psPg then .start else .waitPower)

/-- Step 3 (check 3, R454): main rails, HBM and Culvert training, the NVM. -/
def Chip.bootStep3 (c : Chip) (r : Root) (hwFail : Option Nat) : Chip :=
  if !c.pwr.psPg then { c with boot := { c.boot with state := .waitPower } }
  else
    match hwFail.filter c.hasDie with
    | some d => c.bootFail Fail.hardware 0 d
    | none => if !r.nvmOk then c.bootFail Fail.nvmAbsent 0 0 else c.nextStep .reading

/-- Step 4 (checks 4 to 8): host links may train from here on, as the header's bifurcation says. -/
def Chip.bootStep4 (c : Chip) (r : Root) : Chip :=
  match r.headerFails c.boot.slotB c.dies with
  | some code => c.bootFail code 0 0
  | none => ({ c with boot := { c.boot with bifurcation := r.imgBe c.boot.slotB 20 4 } }).nextStep .reading

/-- Step 5 (checks 9 to 11). -/
def Chip.bootStep5 (c : Chip) (r : Root) : Chip :=
  let b := c.boot.slotB
  match r.imageFails b with
  | some code => c.bootFail code 0 0
  | none =>
    ({ c with boot := { c.boot with
      format := r.imgBe b 4 2, secVersion := r.imgBe b 16 4, buildId := r.imgBe b 24 4
      digest := r.imageDigest b, sections := r.sectionTable b } }).nextStep .verified

/-- BOOT_STEP_COMPLETE (R455): the boot step under way ends. It needs what its row of R455 needs; without it the part waits
(R456). Log 34 (DESIGN CHOICE). -/
def bootStepComplete (hwFail : Option Nat) (s : State) : State :=
  let c := s.chip
  let r := s.root
  if !(c.pwr.aux && !c.pwr.inReset && c.tetherUp && c.booting) then s
  else
    match c.boot.step with
    | 1 => s.onChip fun c => c.nextStep c.boot.state
    | 2 => s.onChip fun c => c.bootStep2 r hwFail
    | 3 => s.onChip fun c => c.bootStep3 r hwFail
    | 4 => s.onChip fun c => c.bootStep4 r
    | 5 => s.onChip fun c => c.bootStep5 r
    | 6 => (s.onRoot fun r => r.cfgRecords c (cfgRecs (r.sectOr c.boot 1))).onChip fun c => Chip.endLoad (c.loadConfig r) .loading
    | 7 => s.onChip fun c => Chip.endLoad (c.loadMemories r) .enabling
    | 8 => s.onChip fun c => Chip.endLoad c.enableAll .enabling
    | _ => s.onChip fun c => c.bootDone

end Sys2Proof.Machine
end

