-- ==== Sys2Proof/Machine/BootRows.lean ====
section
/-! DEFINITION. Boot, fuses and recovery, row by row. -/

namespace Sys2Proof.Machine

/-- BOOT_STEP_COMPLETE (R455). -/
def execBootStepComplete (hwFail : Option Nat) (s : State) : Outcome :=
  .next (bootStepComplete hwFail s)

/-- FUSE_ARM (R460). -/
def execFuseArm (m : Master) (value : Reg32) (s : State) : Outcome :=
  .next (rootAccess m (fuseCtrl s.chip.boot.secVersion value) s)

/-- FUSE_ARM_EXPIRY (R460). -/
def execFuseArmExpiry (s : State) : Outcome :=
  .next (s.onRoot fuseArmExpiry)

/-- ADVANCE_COUNTER (R460). -/
def execAdvanceCounter (m : Master) (s : State) : Outcome :=
  .next (rootAccess m (advanceCounter s.chip.boot.secVersion) s)

/-- DEBUG_LOCK (R460). -/
def execDebugLock (m : Master) (s : State) : Outcome :=
  .next (rootAccess m debugLock s)

/-- FUSE_BLOW_DONE (R460). -/
def execFuseBlowDone (verified : Bool) (s : State) : Outcome :=
  .next (blowDone verified s)

/-- RCV_READ (R457). -/
def execRcvRead (addr : BitVec 28) (len : BitVec 16) (s : State) : Outcome :=
  .next (rcvCommand 1 addr len [] s)

/-- RCV_ERASE (R457). -/
def execRcvErase (addr : BitVec 28) (len : BitVec 16) (s : State) : Outcome :=
  .next (rcvCommand 2 addr len [] s)

/-- RCV_PROGRAM (R457). -/
def execRcvProgram (addr : BitVec 28) (len : BitVec 16) (data : Bytes) (s : State) : Outcome :=
  .next (rcvCommand 3 addr len data s)

/-- RCV_OP_DONE (R457). -/
def execRcvOpDone (nvmOk : Bool) (s : State) : Outcome :=
  .next (rcvDone nvmOk s)

end Sys2Proof.Machine
end

