-- ==== Sys2Proof/Machine/ChannelRows.lean ====
section
/-! DEFINITION. Channels, their entries and the DMA engines, row by row. -/

namespace Sys2Proof.Machine

/-- CHN_DS_PROD (R369). -/
def execChnDsProd (f : Nat) (value : Reg32) (s : State) : Outcome :=
  .next (s.onChip (doorbell f 0x00 (chnDsProd f value)))

/-- CHN_CQ_CONS (R369). -/
def execChnCqCons (f : Nat) (value : Reg32) (s : State) : Outcome :=
  .next (s.onChip (doorbell f 0x0C (chnCqCons f value)))

/-- CHN_DS_RESTART (R385). -/
def execChnDsRestart (f : Nat) (value : Reg32) (s : State) : Outcome :=
  .next (s.onChip (doorbell f 0x10 (chnDsRestart f value)))

/-- CHN_CQ_RESTART (R385). -/
def execChnCqRestart (f : Nat) (value : Reg32) (s : State) : Outcome :=
  .next (s.onChip (doorbell f 0x14 (chnCqRestart f value)))

/-- CHN_INVALIDATE (R378). -/
def execChnInvalidate (f : Nat) (value : Reg32) (s : State) : Outcome :=
  .next (s.onChip (doorbell f 0x18 (chnInvalidate f value)))

/-- CHN_ABORT (R402). -/
def execChnAbort (f : Nat) (value : Reg32) (s : State) : Outcome :=
  .next (s.onChip (doorbell f 0x1C (chnAbort f value)))

/-- ENTRY_FETCH (R375). -/
def execEntryFetch (f : Nat) (s : State) : Outcome :=
  .next (s.onChip (entryFetch f))

/-- ENTRY_START (R376). -/
def execEntryStart (f : Nat) (s : State) : Outcome :=
  .next (s.onChip (entryStart f))

/-- PAD (R374). -/
def execPad (f : Nat) (s : State) : Outcome :=
  .next (s.onChip (padEntry f))

/-- NOP (R379). -/
def execNop (f : Nat) (s : State) : Outcome :=
  .next (s.onChip (nopEntry f))

/-- TX_SEND (R380). -/
def execTxSend (f : Nat) (s : State) : Outcome :=
  .next (s.onChip (txSend f))

/-- RX_POST (R381). -/
def execRxPost (f : Nat) (s : State) : Outcome :=
  .next (s.onChip (rxPost f))

/-- DMA_COPY (R382). -/
def execDmaCopy (f : Nat) (s : State) : Outcome :=
  .next (s.onChip (dmaCopy f))

/-- STORAGE_CMD (R383). -/
def execStorageCmd (f : Nat) (s : State) : Outcome :=
  .next (s.onChip (storageCmd f))

/-- SHADOW_WRITE (R389). -/
def execShadowWrite (f : Nat) (s : State) : Outcome :=
  .next (s.onChip (shadowWrite f))

/-- BURST_ISSUE (R392). -/
def execBurstIssue (die : Nat) (write : Bool) (cells : CellRead) (s : State) : Outcome :=
  .next (s.onChip (burstIssue die write cells))

/-- READ_COMPLETION (R331). -/
def execReadCompletion (port link tag : Nat) (status : CplStatus) (byteCount : Nat) (data : Bytes) (s : State) : Outcome :=
  .next (s.onChip (readCompletion port link tag status byteCount data))

/-- READ_TIMEOUT (R330). -/
def execReadTimeout (port link tag : Nat) (s : State) : Outcome :=
  .next (s.onChip (readTimeout port link tag))

/-- TAG_HOLD_EXPIRY (R331). -/
def execTagHoldExpiry (port link tag : Nat) (s : State) : Outcome :=
  .next (s.onChip (tagHoldExpiry port link tag))

/-- TRANSFER_END (R396). -/
def execTransferEnd (die xfer : Nat) (s : State) : Outcome :=
  .next (s.onChip (transferEnd die xfer))

/-- DMA_MOD_ARM (R413). -/
def execDmaModArm (f : Nat) (value : Reg32) (s : State) : Outcome :=
  .next (s.onChip (doorbell f 0x48 (dmaModArm f value)))

/-- MODERATION_TIMER (R413). -/
def execModerationTimer (f : Nat) (s : State) : Outcome :=
  .next (s.onChip (moderationTimer f))

end Sys2Proof.Machine
end

