-- ==== Sys2Proof/Machine/CipherRows.lean ====
section
/-! DEFINITION. Keys, associations and cipher work, row by row. -/

namespace Sys2Proof.Machine

/-- ASSOC_WRITE (R267). -/
def execAssocWrite (s : State) : Outcome :=
  .next (s.onChip (assocWrite))

/-- KEY_LOAD (R262). -/
def execKeyLoad (f : Nat) (s : State) : Outcome :=
  .next (s.onChip (keyLoad f s.root.fuses.kekSeed))

/-- KEY_CLEAR (R265). -/
def execKeyClear (f : Nat) (s : State) : Outcome :=
  .next (s.onChip (keyClear f))

/-- KEY_SLOT_SETTLED (R265). -/
def execKeySlotSettled (f : Nat) (s : State) : Outcome :=
  .next (s.onChip (keySlotSettled f))

/-- KEK_QUERY (R260). -/
def execKekQuery (f : Nat) (s : State) : Outcome :=
  .next (s.onChip (kekQuery f s.root.fuses.kekSeed s.root.fuses.identitySeed))

/-- CIPHER_JOB (R275). -/
def execCipherJob (f : Nat) (s : State) : Outcome :=
  .next (s.onChip (cipherJob f))

/-- CIPHER_UNIT_DISPATCH (R248). -/
def execCipherUnitDispatch (die unit : Nat) (slotErr : ScrubOutcome) (cells : CellRead) (s : State) : Outcome :=
  .next (s.onChip (cipherUnitDispatch die unit slotErr cells))

/-- CIPHER_UNIT_COMPLETE (R249). -/
def execCipherUnitComplete (die unit : Nat) (s : State) : Outcome :=
  .next (s.onChip (cipherUnitComplete die unit))

end Sys2Proof.Machine
end

