-- ==== Sys2Proof/Machine/EngineRows.lean ====
section
/-! DEFINITION. The Ditchrider engines, row by row. -/

namespace Sys2Proof.Machine

/-- ENGINE_CONTEXT_START (R282). -/
def execEngineContextStart (die engine : Nat) (job : Option Nat) (s : State) : Outcome :=
  .next (s.onChip (engineContextStart die engine job))

/-- MICROWORD_ISSUE (R279). -/
def execMicrowordIssue (die engine ctx : Nat) (csErr : ScrubOutcome) (mismatch : Bool) (s : State) : Outcome :=
  .next (s.onChip (microwordIssue die engine ctx csErr mismatch))

/-- TS_READ_ACTION (R293). -/
def execTsReadAction (die engine ctx : Nat) (memErr : ScrubOutcome) (s : State) : Outcome :=
  .next (s.onChip (tsReadAction die engine ctx memErr))

/-- TS_COUNTER_ADD (R293). -/
def execTsCounterAdd (die engine ctx : Nat) (s : State) : Outcome :=
  .next (s.onChip (tsCounterAdd die engine ctx))

/-- TS_MAC_LOOKUP (R293). -/
def execTsMacLookup (die engine ctx : Nat) (memErr : ScrubOutcome) (bad : Bool) (s : State) : Outcome :=
  .next (s.onChip (tsMacLookup die engine ctx memErr bad))

/-- HB_STATE_READ (R293). -/
def execHbStateRead (die engine ctx : Nat) (memErr : ScrubOutcome) (s : State) : Outcome :=
  .next (s.onChip (hbStateRead die engine ctx memErr))

/-- HB_ATOMIC_ADD (R293). -/
def execHbAtomicAdd (die engine ctx : Nat) (memErr : ScrubOutcome) (s : State) : Outcome :=
  .next (s.onChip (hbAtomicAdd die engine ctx memErr))

/-- HB_STATE_WRITE (R293). -/
def execHbStateWrite (die engine ctx : Nat) (s : State) : Outcome :=
  .next (s.onChip (hbStateWrite die engine ctx))

/-- HB_FLOW_LOOKUP (R293). -/
def execHbFlowLookup (die engine ctx : Nat) (memErr : ScrubOutcome) (bad : Bool) (s : State) : Outcome :=
  .next (s.onChip (hbFlowLookup die engine ctx memErr bad))

/-- HB_FLOW_INSERT (R162). -/
def execHbFlowInsert (die engine ctx : Nat) (memErr : ScrubOutcome) (s : State) : Outcome :=
  .next (s.onChip (hbFlowInsert die engine ctx memErr))

/-- HB_FLOW_DELETE (R293). -/
def execHbFlowDelete (die engine ctx : Nat) (memErr : ScrubOutcome) (s : State) : Outcome :=
  .next (s.onChip (hbFlowDelete die engine ctx memErr))

/-- HB_FLOW_REWRITE (R293). -/
def execHbFlowRewrite (die engine ctx : Nat) (memErr : ScrubOutcome) (s : State) : Outcome :=
  .next (s.onChip (hbFlowRewrite die engine ctx memErr))

/-- PB_READ (R293). -/
def execPbRead (die engine ctx : Nat) (cells : CellRead) (s : State) : Outcome :=
  .next (s.onChip (pbRead die engine ctx cells))

/-- PB_WRITE (R293). -/
def execPbWrite (die engine ctx : Nat) (s : State) : Outcome :=
  .next (s.onChip (pbWrite die engine ctx))

/-- PB_SET_LENGTH (R293). -/
def execPbSetLength (die engine ctx : Nat) (s : State) : Outcome :=
  .next (s.onChip (pbSetLength die engine ctx))

/-- PB_PREPEND (R293). -/
def execPbPrepend (die engine ctx : Nat) (s : State) : Outcome :=
  .next (s.onChip (pbPrepend die engine ctx))

/-- PB_REMOVE (R293). -/
def execPbRemove (die engine ctx : Nat) (s : State) : Outcome :=
  .next (s.onChip (pbRemove die engine ctx))

/-- PB_ALLOCATE (R293). -/
def execPbAllocate (die engine ctx : Nat) (s : State) : Outcome :=
  .next (s.onChip (pbAllocate die engine ctx))

/-- HASH_H1_H2 (R293). -/
def execHashH1H2 (die engine ctx : Nat) (s : State) : Outcome :=
  .next (s.onChip (hashH1H2 die engine ctx))

/-- HASH_SYMMETRIC (R293). -/
def execHashSymmetric (die engine ctx : Nat) (s : State) : Outcome :=
  .next (s.onChip (hashSymmetric die engine ctx))

/-- HASH_CRC (R293). -/
def execHashCrc (die engine ctx : Nat) (s : State) : Outcome :=
  .next (s.onChip (hashCrc die engine ctx))

/-- CIPHER_TLS_RECORD (R295). -/
def execCipherTlsRecord (die engine ctx : Nat) (s : State) : Outcome :=
  .next (s.onChip (cipherTlsRecord die engine ctx))

/-- CIPHER_XTS_UNIT (R295). -/
def execCipherXtsUnit (die engine ctx : Nat) (s : State) : Outcome :=
  .next (s.onChip (cipherXtsUnit die engine ctx))

/-- DMA_POST (R295). -/
def execDmaPost (die engine ctx : Nat) (s : State) : Outcome :=
  .next (s.onChip (dmaPost die engine ctx))

/-- PORT_OP_COMPLETE (R297). -/
def execPortOpComplete (die engine ctx : Nat) (port : EnginePort) (s : State) : Outcome :=
  .next (s.onChip (portOpComplete die engine ctx port))

/-- ENGINE_PAUSE_END (R286). -/
def execEnginePauseEnd (die engine ctx : Nat) (s : State) : Outcome :=
  .next (s.onChip (enginePauseEnd die engine ctx))

/-- REINJECT (R299). -/
def execReinject (die engine ctx : Nat) (s : State) : Outcome :=
  .next (s.onChip (reinject die engine ctx))

/-- REINJECT_SLOT (R41). -/
def execReinjectSlot (die : Nat) (memErr : Option (Nat × ScrubOutcome)) (s : State) : Outcome :=
  .next (s.onChip (reinjectSlot die memErr))

/-- ENQUEUE (R299). -/
def execEnqueue (die engine ctx : Nat) (s : State) : Outcome :=
  .next (s.onChip (enqueue die engine ctx))

/-- DROP (R299). -/
def execDrop (die engine ctx : Nat) (s : State) : Outcome :=
  .next (s.onChip (drop die engine ctx))

/-- COMPLETE (R299). -/
def execComplete (die engine ctx : Nat) (s : State) : Outcome :=
  .next (s.onChip (complete die engine ctx))

/-- ENGINE_BLOCK_IDLE (R302). -/
def execEngineBlockIdle (die : Nat) (s : State) : Outcome :=
  .next (s.onChip (engineBlockIdle die))

/-- DRE_CTX_KILL (R301). -/
def execDreCtxKill (m : Master) (die : Nat) (value : Reg32) (s : State) : Outcome :=
  .next (busAccess m die 11 (dreCtxKill die value) s)

end Sys2Proof.Machine
end

