-- ==== Sys2Proof/Machine/EpochRows.lean ====
section
/-! DEFINITION. Rule epochs, the commit, groups and QoS, row by row. -/

namespace Sys2Proof.Machine

/-- COMMIT_OPEN (R107). -/
def execCommitOpen (s : State) : Outcome :=
  .next (s.onChip (commitOpen))

/-- RULE_CHANGE (R110). -/
def execRuleChange (s : State) : Outcome :=
  .next (s.onChip (ruleChange))

/-- COMMIT_CLOSE (R113). -/
def execCommitClose (s : State) : Outcome :=
  .next (s.onChip (commitClose))

/-- COMMIT_ABORT (R111). -/
def execCommitAbort (s : State) : Outcome :=
  .next (s.onChip (commitAbort))

/-- CHANGES_CONFIRMED (R113). -/
def execChangesConfirmed (s : State) : Outcome :=
  .next (s.onChip (changesConfirmedWave))

/-- DIE_CONFIRM_TIMEOUT (R110). -/
def execDieConfirmTimeout (s : State) : Outcome :=
  .next (s.onChip (dieConfirmTimeout))

/-- COMMIT_UNDO_DONE (R111). -/
def execCommitUndoDone (s : State) : Outcome :=
  .next (s.onChip (commitUndoDoneWave))

/-- EPOCH_SWITCH (R113). -/
def execEpochSwitch (s : State) : Outcome :=
  .next (s.onChip (epochSwitch))

/-- QOS_APPLY (R196). -/
def execQosApply (die : Nat) (s : State) : Outcome :=
  .next (s.onChip (qosApply die))

/-- EPOCH_RETIRE (R116). -/
def execEpochRetire (s : State) : Outcome :=
  .next (s.onChip (epochRetire))

/-- RETIREMENT_SWEEP_DONE (R117). -/
def execRetirementSweepDone (s : State) : Outcome :=
  .next (s.onChip (retirementSweepDone))

/-- EPOCH_STALL (R120). -/
def execEpochStall (slot elapsedMs : Nat) (s : State) : Outcome :=
  .next (s.onChip (epochStall slot elapsedMs))

/-- GROUP_UPDATE (R144). -/
def execGroupUpdate (s : State) : Outcome :=
  .next (s.onChip (groupUpdate))

/-- GROUP_UPDATE_CONFIRMED (R145). -/
def execGroupUpdateConfirmed (s : State) : Outcome :=
  .next (s.onChip (groupUpdateConfirmed))

end Sys2Proof.Machine
end

