-- ==== Sys2Proof/Machine/Reports.lean ====
section
/-! DEFINITION. The steward's entries that set up the error log ring (R517) and verdict records (R524). -/

namespace Sys2Proof.Machine

/-- A ring of 2^k slots of `slot` bytes is aligned to its size, at most to 4 KiB (R346). -/
def ringAligned (addr slot k : Nat) : Bool := addr % min 4096 (slot * 2 ^ k) == 0

/-- LOG_SETUP (R517). -/
def logSetup (c : Chip) : Chip :=
  runEntry stewardFn 0x68 (fun e c =>
    let b := e.bytes
    let k := byteAt b 16
    let base := leAt b 8 8
    if k < 6 ∨ 16 < k ∨ !ringAligned base 32 k then c.endWith stewardFn e St.ringInvalid
    else
      let c := { c with faults := { c.faults with
        ring := some ⟨base, k, leAt b 18 2⟩, prod := 0, cons := 0, unsignalled := false } }
      c.endWith stewardFn e St.ok) c

/-- LOG_STOP (R517): records that still wait are lost (R519). -/
def logStop (c : Chip) : Chip :=
  runEntry stewardFn 0x69 (fun e c =>
    ({ c.logDiscard with faults := { c.logDiscard.faults with ring := none } }).endWith stewardFn e St.ok) c

/-- The setup that a VERDICT_SETUP asks for, in a chosen version. -/
def verdOfEntry (b : Bytes) (version : Nat) : Verd where
  dropsOnly := byteAt b 9 == 1
  collector := byteAt b 10 == 1
  k := byteAt b 11
  n := leAt b 12 4
  budget := leAt b 16 4
  version := version
  base := leAt b 24 8
  port := leAt b 32 2
  dmac := beAt b 34 6
  smac := beAt b 40 6
  counter := 0
  window := 0
  used := 0
  frameSeq := 0
  lost := 0
  delivered := false
  prod := 0
  cons := 0

/-- What refuses a VERDICT_SETUP (R436, R524). -/
def Chip.verdictFails (c : Chip) (b : Bytes) : Option Nat :=
  let n := leAt b 12 4
  let budget := leAt b 16 4
  let version := min (byteAt b 21) 2
  if !c.hasDie (byteAt b 8) then some St.indexRange
  else if 1 < byteAt b 9 ∨ 1 < byteAt b 10 ∨ n = 0 ∨ 2 ^ 24 < n ∨ budget = 0 ∨ 64000 < budget then some St.badAction
  else if version < 1 ∨ version < byteAt b 20 then some St.versionUnsupported
  else if byteAt b 10 = 1 then (if c.isPort (leAt b 32 2) then none else some St.indexRange)
  else if byteAt b 11 < 6 ∨ 20 < byteAt b 11 ∨ !ringAligned (leAt b 24 8) 64 (byteAt b 11) then some St.ringInvalid
  else none

/-- Puts another setup of a die into force, or none: drops are counted anew (R522), records that wait keep their slots. -/
def Chip.newVerd (c : Chip) (d : Nat) (v : Option Verd) : Chip :=
  (c.verdOld d).setSp fun s => { s with verd := tput none s.verd d v, dropCount := tput 0 s.dropCount d 0 }

/-- VERDICT_SETUP (R524): the chosen version in detail byte 20. -/
def verdictSetup (c : Chip) : Chip :=
  runEntry stewardFn 0x6A (fun e c =>
    let version := min (byteAt e.bytes 21) 2
    match c.verdictFails e.bytes with
    | some st => c.endWith stewardFn e st
    | none => (c.newVerd (byteAt e.bytes 8) (some (verdOfEntry e.bytes version))).endWith stewardFn e St.ok 0 0 (toLE 1 version)) c

/-- VERDICT_STOP (R524). -/
def verdictStop (c : Chip) : Chip :=
  runEntry stewardFn 0x6B (fun e c =>
    (c.newVerd (byteAt e.bytes 8) none).endWith stewardFn e St.ok) c

end Sys2Proof.Machine
end

