-- ==== Sys2Proof/Machine/FaultRows.lean ====
section
/-! DEFINITION. Faults, the configuration check, reports, row by row. -/

namespace Sys2Proof.Machine

/-- CULVERT_LINK_FAIL (R507). -/
def execCulvertLinkFail (die port : Nat) (s : State) : Outcome :=
  .next (s.onChip (culvertLinkFail die port))

/-- CULVERT_RETRAIN_DONE (R507). -/
def execCulvertRetrainDone (die port : Nat) (ok : Bool) (s : State) : Outcome :=
  .next (s.onChip (culvertRetrainDone die port ok))

/-- HBM_SCRUB_VISIT (R503). -/
def execHbmScrubVisit (die : Nat) (found : ScrubOutcome) (wrote overrun : Bool) (s : State) : Outcome :=
  .next (s.onChip (scrubVisit true die found overrun))

/-- SRAM_SCRUB_VISIT (R503). -/
def execSramScrubVisit (die : Nat) (found : ScrubOutcome) (wrote overrun : Bool) (s : State) : Outcome :=
  .next (s.onChip (scrubVisit false die found overrun))

/-- CFG_CRC_SWEEP (R544). -/
def execCfgCrcSweep (s : State) : Outcome :=
  .next (s.onChip (cfgCrcSweep))

/-- CFG_CRC_HOLD_LONG (R548). -/
def execCfgCrcHoldLong (s : State) : Outcome :=
  .next (s.onChip (cfgCrcHoldLong))

/-- LOG_MESSAGE (R520). -/
def execLogMessage (s : State) : Outcome :=
  .next (s.onChip (logMessage))

/-- LOG_SETUP (R517). -/
def execLogSetup (s : State) : Outcome :=
  .next (s.onChip (logSetup))

/-- LOG_STOP (R517). -/
def execLogStop (s : State) : Outcome :=
  .next (s.onChip (logStop))

/-- VERDICT_SETUP (R524). -/
def execVerdictSetup (s : State) : Outcome :=
  .next (s.onChip (verdictSetup))

/-- VERDICT_STOP (R524). -/
def execVerdictStop (s : State) : Outcome :=
  .next (s.onChip (verdictStop))

/-- TET_WATCHDOG (R509). -/
def execTetWatchdog (s : State) : Outcome :=
  .next (s.onChip (tetWatchdog))

/-- FLT_CUL_RETRAIN (R507). -/
def execFltCulRetrain (m : Master) (die : Nat) (value : Reg32) (s : State) : Outcome :=
  .next (busAccess m die 19 (fltCulRetrain die value) s)

/-- CFG_CRC_COMMIT (R546). -/
def execCfgCrcCommit (m : Master) (value : Reg32) (s : State) : Outcome :=
  .next (busAccess m 0 32 (cfgCrcCommit value) s)

/-- FLT_PIN_RELEASE (R515). -/
def execFltPinRelease (m : Master) (die : Nat) (value : Reg32) (s : State) : Outcome :=
  .next (busAccess m die 19 (fun c => fltPinRelease c value) s)

/-- FLT_CLASS_SEL (R513). -/
def execFltClassSel (m : Master) (die : Nat) (value : Reg32) (s : State) : Outcome :=
  .next (busAccess m die 19 (fltClassSel die value) s)

/-- FLT_LOG_CONS (R518). -/
def execFltLogCons (m : Master) (value : Reg32) (s : State) : Outcome :=
  .next (busAccess m 0 19 (fltLogCons value) s)

end Sys2Proof.Machine
end

