-- ==== Sys2Proof/Machine/Delivery.lean ====
section
/-! DEFINITION. Receive delivery (R399, R400). -/

namespace Sys2Proof.Machine

/-- What each of a packet's buffers takes, in order (R399): its address and its part of the bytes. -/
def bufParts : List RxBuf → Bytes → List (Nat × Bytes)
  | [], _ => []
  | b :: bs, data => if data.isEmpty then [] else (b.addr, data.take b.len) :: bufParts bs (data.drop b.len)

/-- RX_DELIVERY (R399, R395): a packet in an instance's window, none granted to the instance before it being left there or on its way,
becomes a transfer of its die's write engine. Its cells are read as `cells` says (R504). -/
def rxDelivery (id : Nat) (cells : CellRead) (c : Chip) : Chip :=
  match c.pkt id with
  | none => c
  | some p =>
    let i := p.dst
    let before := fun (q : Pkt) => q.dstInst && q.dst == i && decide (q.granted < p.granted) && (q.stage == .window || q.stage == .crossDest (i / 512))
    if p.stage != .window || !p.dstInst || !c.on (i / 512) 15 || c.dp.pkts.any before then c
    else
      let (p, c) := c.readPkt p false cells
      let x := Xfer.fresh i 0 [] (.rx id) []
      (c.move p .writing).addXfer (i / 512) { x with total := p.bytes.length, outs := bufParts p.bufs p.bytes, bad := p.badAt }

end Sys2Proof.Machine
end

