-- ==== Sys2Proof/Machine/FrameRows.lean ====
section
/-! DEFINITION. Frames and packets, row by row: arrival, walk, lookups, queues, departure, ports. -/

namespace Sys2Proof.Machine

/-- FRAME_ARRIVAL (R54). -/
def execFrameArrival (lane phase : Nat) (bytes : Bytes) (slotErr : ScrubOutcome) (s : State) : Outcome :=
  .next (s.onChip (frameArrival lane phase bytes slotErr))

/-- OVERSIZE_DETECTED (R226). -/
def execOversizeDetected (lane : Nat) (s : State) : Outcome :=
  .next (s.onChip (oversizeDetected lane))

/-- FRAME_END (R230). -/
def execFrameEnd (lane : Nat) (fcsOk reasmErr : Bool) (fecCorrected fecUncorrected : Nat) (s : State) : Outcome :=
  .next (s.onChip (frameEnd lane fcsOk reasmErr fecCorrected fecUncorrected))

/-- RX_STOP (R231). -/
def execRxStop (lane received suspended : Nat) (s : State) : Outcome :=
  .next (s.onChip (rxStopSpan lane received suspended))

/-- WALK_BEGIN (R75). -/
def execWalkBegin (pkt : Nat) (memErr : Option (Nat × ScrubOutcome)) (s : State) : Outcome :=
  .next (s.onChip (walkBegin pkt memErr))

/-- SCAN_RESULT_READY (R132). -/
def execScanResultReady (pkt : Nat) (memErr : ScrubOutcome) (s : State) : Outcome :=
  .next (s.onChip (scanResultReady pkt memErr))

/-- INGRESS_STAGE (R88). -/
def execIngressStage (pkt : Nat) (bad : List Lookup) (memErr : List (TabRead × ScrubOutcome)) (s : State) : Outcome :=
  .next (s.onChip (ingressStage pkt bad memErr))

/-- CULVERT_ARRIVAL (R26). -/
def execCulvertArrival (pkt replays : Nat) (cells : CellRead) (s : State) : Outcome :=
  .next (s.onChip (culvertArrival pkt replays cells))

/-- FLOW_LOOKUP_RESULT (R161). -/
def execFlowLookupResult (pkt : Nat) (memErr : ScrubOutcome) (bad : Bool) (s : State) : Outcome :=
  .next (s.onChip (flowLookupResult pkt memErr bad))

/-- FLOW_REREAD_RESULT (R151). -/
def execFlowRereadResult (pkt : Nat) (memErr : ScrubOutcome) (bad : Bool) (s : State) : Outcome :=
  .next (s.onChip (flowRereadResult pkt memErr bad))

/-- SPILLWAY_READBACK (R195). -/
def execSpillwayReadback (pkt : Nat) (cells : CellRead) (s : State) : Outcome :=
  .next (s.onChip (spillwayReadback pkt cells))

/-- GRANT (R197). -/
def execGrant (inst : Bool) (dest : Nat) (s : State) : Outcome :=
  .next (s.onChip (grant inst dest))

/-- TENANT_FRAME_START (R200). -/
def execTenantFrameStart (lane : Nat) (slotErr : ScrubOutcome) (cells : CellRead) (s : State) : Outcome :=
  .next (s.onChip (tenantFrameStart lane cells slotErr))

/-- THROUGH_DEPARTURE (R54). -/
def execThroughDeparture (pkt : Nat) (slotErr : ScrubOutcome) (cells : CellRead) (s : State) : Outcome :=
  .next (s.onChip (throughDeparture pkt cells slotErr))

/-- TRANSMIT_COMPLETE (R521). -/
def execTransmitComplete (lane : Nat) (s : State) : Outcome :=
  .next (s.onChip (transmitComplete lane))

/-- RX_DELIVERY (R399). -/
def execRxDelivery (pkt : Nat) (cells : CellRead) (s : State) : Outcome :=
  .next (s.onChip (rxDelivery pkt cells))

/-- PAUSE_RECEIVED (R234). -/
def execPauseReceived (lane : Nat) (frame : Bytes) (s : State) : Outcome :=
  .next (s.onChip (pauseReceived lane frame))

/-- PAUSE_EXPIRY (R234). -/
def execPauseExpiry (lane : Nat) (prio : Option Nat) (s : State) : Outcome :=
  .next (s.onChip (pauseExpiry lane prio))

/-- PAUSE_RESEND (R236). -/
def execPauseResend (lane : Nat) (prio : Option Nat) (s : State) : Outcome :=
  .next (s.onChip (pauseResend lane prio))

/-- PREEMPT_VERIFY (R237). -/
def execPreemptVerify (lane : Nat) (s : State) : Outcome :=
  .next (s.onChip (preemptVerify lane))

/-- VERIFY_TIMEOUT (R237). -/
def execVerifyTimeout (lane : Nat) (s : State) : Outcome :=
  .next (s.onChip (verifyTimeout lane))

/-- LINK_STATE_CHANGE (R223). -/
def execLinkStateChange (lane : Nat) (up localFault remoteFault anDone : Bool) (s : State) : Outcome :=
  .next (s.onChip (linkStateChangeSpan lane up localFault remoteFault anDone))

/-- SHAPER_REFILL (R205). -/
def execShaperRefill (die idx : Nat) (late : Bool) (s : State) : Outcome :=
  .next (s.onChip (shaperRefill die idx late))

end Sys2Proof.Machine
end

