-- ==== Sys2Proof/Machine/HostRows.lean ====
section
/-! DEFINITION. PCI Express functions and host links, row by row. -/

namespace Sys2Proof.Machine

/-- BUS_MASTER_ENABLE_CLEAR (R332). -/
def execBusMasterEnableClear (fn : FnId) (s : State) : Outcome :=
  .next (s.onChip (busMasterEnableClear fn))

/-- BUS_MASTER_ENABLE_SET (R333). -/
def execBusMasterEnableSet (fn : FnId) (s : State) : Outcome :=
  .next (s.onChip (busMasterEnableSet fn))

/-- D3HOT_ENTRY (R334). -/
def execD3hotEntry (fn : FnId) (s : State) : Outcome :=
  .next (s.onChip (d3hotEntry fn))

/-- D0_RETURN (R334). -/
def execD0Return (fn : FnId) (s : State) : Outcome :=
  .next (s.onChip (d0Return fn))

/-- INITIATE_FLR (R335). -/
def execInitiateFlr (fn : FnId) (s : State) : Outcome :=
  .next (s.onChip (initiateFlr fn))

/-- PERST_RELEASE (R493). -/
def execPerstRelease (port : Nat) (s : State) : Outcome :=
  .next (s.onChip (perstRelease port))

/-- HOST_LINK_CHANGE (R312). -/
def execHostLinkChange (port link : Nat) (up : Bool) (speed width : Nat) (flit : Bool) (s : State) : Outcome :=
  .next (s.onChip (hostLinkChange port link up speed width flit))

/-- VF_ENABLE_CLEAR (R318). -/
def execVfEnableClear (port link : Nat) (s : State) : Outcome :=
  .next (s.onChip (vfEnableClear port link))

/-- NUMVFS_WRITE (R318). -/
def execNumvfsWrite (port link value : Nat) (s : State) : Outcome :=
  .next (s.onChip (numvfsWrite port link value))

/-- MSIX_UNMASK (R325). -/
def execMsixUnmask (fn : FnId) (vector : Option Nat) (s : State) : Outcome :=
  .next (s.onChip (msixUnmask fn vector))

/-- VF_ENABLE_SET (R318). -/
def execVfEnableSet (port link : Nat) (s : State) : Outcome :=
  .next (s.onChip (vfEnableSet port link))

/-- CONVENTIONAL_RESET (R337). -/
def execConventionalReset (port link : Nat) (cause : LinkResetCause) (s : State) : Outcome :=
  .next (conventionalResetAll port link cause s)

end Sys2Proof.Machine
end

