-- ==== Sys2Proof/Machine/InstanceRows.lean ====
section
/-! DEFINITION. Instances, translation, dirty tracking, migration, row by row. -/

namespace Sys2Proof.Machine

/-- INSTANCE_CREATE (R346). -/
def execInstanceCreate (s : State) : Outcome :=
  .next (s.onChip (instanceCreate))

/-- INSTANCE_DESTROY (R348). -/
def execInstanceDestroy (s : State) : Outcome :=
  .next (s.onChip (instanceDestroy))

/-- INSTANCE_RESET (R360). -/
def execInstanceReset (s : State) : Outcome :=
  .next (s.onChip (instanceReset))

/-- INSTANCE_RESET_DONE (R360). -/
def execInstanceResetDone (i : Nat) (s : State) : Outcome :=
  .next (s.onChip (instanceResetDone i))

/-- MAP_SET (R354). -/
def execMapSet (s : State) : Outcome :=
  .next (s.onChip (mapSet))

/-- MAP_CLEAR (R354). -/
def execMapClear (s : State) : Outcome :=
  .next (s.onChip (mapClear))

/-- MAP_SETTLED (R355). -/
def execMapSettled (s : State) : Outcome :=
  .next (s.onChip (mapSettled))

/-- DIRTY_START (R361). -/
def execDirtyStart (s : State) : Outcome :=
  .next (s.onChip (dirtyStart))

/-- DIRTY_SYNC (R362). -/
def execDirtySync (s : State) : Outcome :=
  .next (s.onChip (dirtySync))

/-- DIRTY_STOP (R361). -/
def execDirtyStop (s : State) : Outcome :=
  .next (s.onChip (dirtyStop))

/-- FREEZE (R363). -/
def execFreeze (s : State) : Outcome :=
  .next (s.onChip (freeze))

/-- FREEZE_DRAINED (R363). -/
def execFreezeDrained (i : Nat) (s : State) : Outcome :=
  .next (s.onChip (freezeDrained i))

/-- THAW (R363). -/
def execThaw (s : State) : Outcome :=
  .next (s.onChip (thaw))

/-- SAVE (R364). -/
def execSave (s : State) : Outcome :=
  .next (s.onChip (save s.root.fuses.kekSeed))

/-- RESTORE (R366). -/
def execRestore (s : State) : Outcome :=
  .next (s.onChip (restore s.root.fuses.kekSeed))

end Sys2Proof.Machine
end

