-- ==== Sys2Proof/Machine/PowerRows.lean ====
section
/-! DEFINITION. Clocks, supplies and resets, row by row. -/

namespace Sys2Proof.Machine

/-- GATE_FORCE_TIMEOUT (R479). -/
def execGateForceTimeout (die block : Nat) (s : State) : Outcome :=
  .next (s.onChip (gateForceTimeout die block))

/-- SOFT_RESET_DONE (R494). -/
def execSoftResetDone (die block : Nat) (s : State) : Outcome :=
  .next (s.onChip (softResetDone die block))

/-- PILOT_ARMED (R472). -/
def execPilotArmed (s : State) : Outcome :=
  .next (s.onChip (pilotArmed))

/-- REFCLK_QUALIFIED (R472). -/
def execRefclkQualified (s : State) : Outcome :=
  .next (s.onChip (refclkQualified))

/-- PLL_LOCK_ALL (R472). -/
def execPllLockAll (s : State) : Outcome :=
  .next (s.onChip (pllLockAll))

/-- PLL_LOCK_TIMEOUT (R473). -/
def execPllLockTimeout (die : Nat) (s : State) : Outcome :=
  .next (s.onChip (pllLockTimeout die))

/-- PILOT_TRIM_TICK (R471). -/
def execPilotTrimTick (cmp : PilotCompare) (s : State) : Outcome :=
  .next (s.onChip (pilotTrimTick cmp))

/-- REFCLK_LOST (R474). -/
def execRefclkLost (s : State) : Outcome :=
  .next (s.onChip (refclkLost))

/-- PLL_UNLOCKED (R474). -/
def execPllUnlocked (die : Nat) (s : State) : Outcome :=
  .next (s.onChip (pllUnlocked die))

/-- DOMAIN_COUNT_WINDOW (R474). -/
def execDomainCountWindow (die domain edges : Nat) (s : State) : Outcome :=
  .next (s.onChip (domainCountWindow die domain edges))

/-- REFCLK_FREQ_WINDOW (R474). -/
def execRefclkFreqWindow (edges : Nat) (s : State) : Outcome :=
  .next (s.onChip (refclkFreqWindow edges))

/-- PILOT_EDGE_TIMEOUT (R476). -/
def execPilotEdgeTimeout (s : State) : Outcome :=
  .next (s.onChip (pilotEdgeTimeout))

/-- PS_EN_CHANGE (R483). -/
def execPsEnChange (level : Bool) (s : State) : Outcome :=
  .next (s.onChip (psEnChange level))

/-- PS_PG_RISE (R487). -/
def execPsPgRise (s : State) : Outcome :=
  .next (s.onChip (psPgRise))

/-- PS_PG_FALL (R489). -/
def execPsPgFall (die : Nat) (s : State) : Outcome :=
  .next (s.onChip (psPgFall die))

/-- POWER_STAGE_FAULT (R484). -/
def execPowerStageFault (cause : StageFault) (die rail : Nat) (s : State) : Outcome :=
  .next (s.onChip (powerStageFault cause die rail))

/-- TELEMETRY_UPDATE (R485). -/
def execTelemetryUpdate (vbus ibus power : BitVec 16) (rails : List (BitVec 8)) (s : State) : Outcome :=
  .next (s.onChip (telemetryUpdate vbus ibus power rails))

/-- TELEMETRY_TIMEOUT (R485). -/
def execTelemetryTimeout (s : State) : Outcome :=
  .next (s.onChip (telemetryTimeout))

/-- SENSOR_UPDATE (R561). -/
def execSensorUpdate (die : Nat) (readings : List Int) (s : State) : Outcome :=
  .next (s.onChip (sensorUpdate die readings))

/-- REFCLK_STOP_BEFORE_LOCK (R473). -/
def execRefclkStopBeforeLock (s : State) : Outcome :=
  .next (s.onChip (refclkStopBeforeLock))

/-- STANDBY_RAILS_CHANGE (R481). -/
def execStandbyRailsChange (up : Bool) (s : State) : Outcome :=
  .next (s.onChip (standbyRailsChange up))

/-- PS_FLT_FALL (R484). -/
def execPsFltFall (s : State) : Outcome :=
  .next (s.onChip (psFltFall))

/-- AUX_POWER_ON (R487). -/
def execAuxPowerOn (s : State) : Outcome :=
  .next (auxPowerOn s)

/-- AUX_POWER_LOSS (R490). -/
def execAuxPowerLoss (s : State) : Outcome :=
  .next (auxPowerLoss s)

/-- PKG_RST_ASSERT (R492). -/
def execPkgRstAssert (s : State) : Outcome :=
  .next (pkgRstAssert s)

/-- PKG_RST_RELEASE (R455). -/
def execPkgRstRelease (bootSel rcvPort smbAddr : BitVec 2) (s : State) : Outcome :=
  .next (pkgRstRelease bootSel rcvPort smbAddr s)

end Sys2Proof.Machine
end

