-- ==== Sys2Proof/Machine/RegisterRows.lean ====
section
/-! DEFINITION. Accesses to register space, row by row. -/

namespace Sys2Proof.Machine

/-- REGISTER_WRITE (R531). -/
def execRegisterWrite (m : Master) (offset size : Nat) (value : BitVec 64) (s : State) : Outcome :=
  .next (hostStore m offset size value s)

/-- BLOCK_ENABLE (R532). -/
def execBlockEnable (m : Master) (die block : Nat) (value : Reg32) (s : State) : Outcome :=
  .next (if value.getLsbD 0 && decide (block < 17) && block != 3 then busAccess m die block (fun c => c.ctrlWrite m die block value) s else s)

/-- BLOCK_DISABLE (R532). -/
def execBlockDisable (m : Master) (die block : Nat) (value : Reg32) (s : State) : Outcome :=
  .next (if !value.getLsbD 0 && decide (block < 17) && block != 3 then busAccess m die block (fun c => c.ctrlWrite m die block value) s else s)

/-- SPILL_DISABLE (R65). -/
def execSpillDisable (m : Master) (die : Nat) (value : Reg32) (s : State) : Outcome :=
  .next (if value.getLsbD 2 then s else busAccess m die 5 (fun c => c.ctrlWrite m die 5 value) s)

/-- PKG_TENANT_MODE (R65). -/
def execPkgTenantMode (m : Master) (value : Reg32) (s : State) : Outcome :=
  .next (busAccess m 0 32 (pkgTenantMode m value) s)

/-- COUNTER_READ_CLEAR (R537). -/
def execCounterReadClear (m : Master) (offset size attr : Nat) (s : State) : Outcome :=
  .next (counterRead m offset size attr s)

/-- CLS_CNT_SEL (R537). -/
def execClsCntSel (m : Master) (die : Nat) (value : Reg32) (memErr : ScrubOutcome) (s : State) : Outcome :=
  .next (busAccess m die 2 (clsCntSel die value memErr) s)

/-- BUF_OCC_SEL (R537). -/
def execBufOccSel (m : Master) (die : Nat) (value : Reg32) (s : State) : Outcome :=
  .next (busAccess m die 5 (bufOccSel die value) s)

/-- BUF_DROP_SEL (R537). -/
def execBufDropSel (m : Master) (die : Nat) (value : Reg32) (s : State) : Outcome :=
  .next (busAccess m die 5 (bufDropSel die value) s)

/-- SCH_SHP_SEL (R537). -/
def execSchShpSel (m : Master) (die : Nat) (value : Reg32) (s : State) : Outcome :=
  .next (busAccess m die 6 (schShpSel die value) s)

/-- WEI_CNT_SEL (R537). -/
def execWeiCntSel (m : Master) (die : Nat) (value : Reg32) (s : State) : Outcome :=
  .next (busAccess m die 7 (weiCntSel die value) s)

/-- MAC_CNT_SEL (R537). -/
def execMacCntSel (m : Master) (die : Nat) (value : Reg32) (s : State) : Outcome :=
  .next (busAccess m die 8 (macCntSel die value) s)

/-- CIP_SLOT_SEL (R537). -/
def execCipSlotSel (m : Master) (die : Nat) (value : Reg32) (s : State) : Outcome :=
  .next (busAccess m die 9 (cipSlotSel die value) s)

/-- DRE_CTX_SEL (R537). -/
def execDreCtxSel (m : Master) (die : Nat) (value : Reg32) (s : State) : Outcome :=
  .next (busAccess m die 11 (dreCtxSel die value) s)

/-- CLK_GATE (R478). -/
def execClkGate (m : Master) (die : Nat) (value : Reg32) (s : State) : Outcome :=
  .next (busAccess m die 17 (clkGate die value) s)

/-- PWR_SOFT_RST (R494). -/
def execPwrSoftRst (m : Master) (die : Nat) (value : Reg32) (s : State) : Outcome :=
  .next (busAccess m die 18 (pwrSoftRst die value) s)

/-- CLK_TB_RATE (R470). -/
def execClkTbRate (m : Master) (value : Reg32) (s : State) : Outcome :=
  .next (busAccess m 0 17 (clkTbRate value) s)

/-- CLK_TB_STEP (R470). -/
def execClkTbStep (m : Master) (value : Reg32) (s : State) : Outcome :=
  .next (busAccess m 0 17 (clkTbStep value) s)

end Sys2Proof.Machine
end

