-- ==== Sys2Proof/Machine/SpanRows.lean ====
section
/-! DEFINITION. The span, row by row. -/

namespace Sys2Proof.Machine

/-- HELLO_TIMER (R419). -/
def execHelloTimer (die : Nat) (s : State) : Outcome :=
  .next (s.onChip (helloTimer die))

/-- HELLO (R422). -/
def execHello (lane : Nat) (frame : Bytes) (s : State) : Outcome :=
  .next (s.onChip (hello lane frame))

/-- NEIGHBOUR_HOLD_EXPIRY (R422). -/
def execNeighbourHoldExpiry (lane : Nat) (s : State) : Outcome :=
  .next (s.onChip (neighbourHoldExpiry lane))

/-- PUBLISH (R425). -/
def execPublish (lane : Nat) (frame : Bytes) (s : State) : Outcome :=
  .next (s.onChip (publish lane frame))

/-- PUB_ACK (R424). -/
def execPubAck (lane : Nat) (frame : Bytes) (s : State) : Outcome :=
  .next (s.onChip (pubAck lane frame))

/-- PUBLISH_RESEND (R424). -/
def execPublishResend (lane : Nat) (s : State) : Outcome :=
  .next (s.onChip (publishResend lane))

/-- SPAN_BARRIER_GROUP (R427). -/
def execSpanBarrierGroup (s : State) : Outcome :=
  .next (s.onChip (spanBarrierGroup))

/-- SPAN_NEIGHBOURS (R432). -/
def execSpanNeighbours (s : State) : Outcome :=
  .next (s.onChip (spanNeighbours))

/-- SPAN_REPUBLISH (R426). -/
def execSpanRepublish (s : State) : Outcome :=
  .next (s.onChip (spanRepublish))

/-- BARRIER_START (R428). -/
def execBarrierStart (s : State) : Outcome :=
  .next (s.onChip (barrierStart))

/-- BARRIER_PREPARE (R428). -/
def execBarrierPrepare (lane : Nat) (frame : Bytes) (s : State) : Outcome :=
  .next (s.onChip (barrierPrepare lane frame))

/-- BARRIER_ECHO (R428). -/
def execBarrierEcho (lane : Nat) (frame : Bytes) (s : State) : Outcome :=
  .next (s.onChip (barrierEcho lane frame))

/-- BARRIER_GO (R429). -/
def execBarrierGo (lane : Nat) (frame : Bytes) (s : State) : Outcome :=
  .next (s.onChip (barrierGo lane frame))

/-- BARRIER_ABORT (R429). -/
def execBarrierAbort (lane : Nat) (frame : Bytes) (s : State) : Outcome :=
  .next (s.onChip (barrierAbort lane frame))

/-- BARRIER_TIMEOUT (R428). -/
def execBarrierTimeout (s : State) : Outcome :=
  .next (s.onChip (barrierTimeout))

/-- SPN_BARRIER_STALL (R430). -/
def execSpnBarrierStall (s : State) : Outcome :=
  .next (s.onChip (spnBarrierStall))

/-- WAVE_MEMORY_EXPIRY (R428). -/
def execWaveMemoryExpiry (coord id : Nat) (s : State) : Outcome :=
  .next (s.onChip (waveMemoryExpiry coord id))

/-- BARRIER_CANCEL (R430). -/
def execBarrierCancel (m : Master) (value : Reg32) (s : State) : Outcome :=
  .next (busAccess m 0 16 (barrierCancel value) s)

end Sys2Proof.Machine
end

