-- ==== Sys2Proof/Machine/TableRows.lean ====
section
/-! DEFINITION. Learning, ageing and table entries, row by row. -/

namespace Sys2Proof.Machine

/-- LEARN_ORIGINATE (R167). -/
def execLearnOriginate (die : Nat) (s : State) : Outcome :=
  .next (s.onChip (learnOriginate die))

/-- LEARN_NOTICE (R169). -/
def execLearnNotice (die : Nat) (s : State) : Outcome :=
  .next (s.onChip (learnNotice die))

/-- LEARN_REPLICA_FAIL (R171). -/
def execLearnReplicaFail (die : Nat) (s : State) : Outcome :=
  .next (s.onChip (learnReplicaFail die))

/-- LEARN_WITHDRAWAL (R171). -/
def execLearnWithdrawal (die : Nat) (s : State) : Outcome :=
  .next (s.onChip (learnWithdrawal die))

/-- HIT_NOTICE (R177). -/
def execHitNotice (die : Nat) (s : State) : Outcome :=
  .next (s.onChip (hitNotice die))

/-- CLEAR_NOTICE (R177). -/
def execClearNotice (die : Nat) (s : State) : Outcome :=
  .next (s.onChip (clearNotice die))

/-- SWEEPER_VISIT (R174). -/
def execSweeperVisit (die : Nat) (table : ExactTable) (bucket : Nat) (s : State) : Outcome :=
  .next (s.onChip (sweeperVisit die table bucket))

/-- MAC_REMOVAL (R180). -/
def execMacRemoval (die : Nat) (s : State) : Outcome :=
  .next (s.onChip (macRemoval die))

/-- FLOW_WRITE (R182). -/
def execFlowWrite (memErr : ScrubOutcome) (s : State) : Outcome :=
  .next (s.onChip (flowWrite memErr))

/-- FLOW_DELETE (R182). -/
def execFlowDelete (memErr : ScrubOutcome) (s : State) : Outcome :=
  .next (s.onChip (flowDelete memErr))

/-- MAC_FLUSH (R183). -/
def execMacFlush (s : State) : Outcome :=
  .next (s.onChip (macFlush))

end Sys2Proof.Machine
end

