-- ==== Sys2Proof/Machine/Trust.lean ====
section
/-! DEFINITION. The management transports (spec/17): SPDM attestation (R464), the sideband (R465, R515), the DOE mailbox (R341)
and the test port (R461). Message codes are those of DSP0274, DSP0236, DSP0248 and IEEE 1149.1, which the spec names. -/

namespace Sys2Proof.Machine

/-- The sideband answers (R465, R496): AUX_3V3 good, PKG_RST_N released, the Tether and die 0's MGMT domain running.
Log 36 (PRESUMED). -/
def Chip.sbUp (c : Chip) : Bool := c.mgmtUp && c.tetherUp

/-- A sideband message is taken (R445, R465): it comes to the part's address with a good PEC. Log 36 (PRESUMED). -/
def Chip.sideband (c : Chip) (smb : Smb) : Bool := c.sbUp && smb.addr == 0x64#7 + c.boot.smbAddr.setWidth 7 && smb.pec

/-- Answers on a management transport. -/
def Chip.answer (c : Chip) (what : String) (data : Bytes) : Chip := c.emit (.response what data)

/-! ### Sideband (R465) -/

/-- SET_ENDPOINT_ID: the bus owner assigns the endpoint ID. -/
def setEndpointId (smb : Smb) (eid : Byte) (c : Chip) : Chip :=
  if c.sideband smb then ({ c with trust := { c.trust with eid := eid } }).answer "MCTP Set Endpoint ID" [0, eid] else c

/-- MCTP_CONTROL_DISCOVERY: endpoint ID, base version 1.3.1, the message types. Log 36 (PRESUMED). -/
def mctpDiscovery (smb : Smb) (what : MctpDiscovery) (c : Chip) : Chip :=
  if c.sideband smb then
    match what with
    | .endpointId => c.answer "MCTP Get Endpoint ID" [0, c.trust.eid]
    | .version => c.answer "MCTP Get Version Support" [0, 1, 0xF1, 0xF3, 0xF1, 0]
    | .messageTypes => c.answer "MCTP Get Message Type Support" [0, 4, 0x00, 0x01, 0x05, 0x7E]
  else c

/-- A GetSensorReading response of DSP0248: data size code, operational state, no events, the reading. Log 36 (PRESUMED). -/
def sensorReply (size state : Byte) (reading : Bytes) : Bytes := [0, size, state, 0, 0, 0, 0] ++ reading

/-- PLDM_SENSOR_READ (R485, R560): a temperature in °C by 16 × die + sensor, unavailable (2) while the main rails are off, or 128
VBUS, 129 current, 130 power; another number is an invalid sensor. Log 36 (PRESUMED). -/
def pldmSensorRead (smb : Smb) (sensor : Nat) (c : Chip) : Chip :=
  if !c.sideband smb then c
  else c.answer "PLDM GetSensorReading" (
    if sensor < 16 * c.dies then
      sensorReply 5 (if c.pwr.psPg && !c.pwr.mainDown then 0 else 2) (toLE 4 (BitVec.ofInt 32 (tget 0 c.pwr.sensors sensor)).toNat)
    else if sensor < 128 then [0x80]
    else match [c.pwr.vbus, c.pwr.ibus, c.pwr.power][sensor - 128]? with
      | some v => sensorReply 4 0 (toLE 4 v)
      | none => [0x80])

/-- Prefix of a vendor-defined message: Shuwick's identifier and the command. Log 36 (PRESUMED). -/
def vendorHead (cmd : Byte) : Bytes := toBE 2 (Config.vendorId % 2 ^ 16) ++ [cmd]

/-- VENDOR_BOOT_STATUS: command 0x01. Log 36 (PRESUMED). -/
def vendorBootStatus (smb : Smb) (s : State) : State :=
  if s.chip.sideband smb then
    let v := fun a => toBE 4 (s.regView 0 a)
    s.onChip fun c => c.answer "vendor" (vendorHead 1 ++ v R.tetBootStatus ++ v R.tetImageInfo)
  else s

/-- VENDOR_CLASS_READ (R515): command 0x02 returns a class's count, first and last records on a die and clears its mark.
Log 36 (PRESUMED). -/
def vendorClassRead (smb : Smb) (die cls : Nat) (c : Chip) : Chip :=
  if c.sideband smb && c.hasDie die && decide (cls < 256) then
    let k := c.cls die cls
    let recOf : Option ErrRec → Bytes := fun r => match r with | some r => r.bytes | none => List.replicate 32 0#8
    (c.setCls die cls { k with sbPending := false }).answer "vendor" (vendorHead 2 ++ toBE 4 k.count ++ recOf k.first ++ recOf k.last)
  else c

/-! ### DOE (R341) -/

/-- The steward PF's mailbox can be reached. -/
def Chip.doeUp (c : Chip) : Bool := c.fnThere (.pf c.stwPort c.stwLink) && c.tetherUp

/-- DOE_DISCOVERY: an object of more than 1,024 DW or of an unsupported protocol sets DOE Error; a Discovery object is
answered with the protocol at its index. Log 36 (PRESUMED). -/
def doeDiscovery (vendor objType lengthDw index : Nat) (c : Chip) : Chip :=
  if !c.doeUp || c.trust.doeError then c
  else if 1024 < lengthDw ∨ vendor ≠ 1 ∨ 1 < objType then { c with trust := { c.trust with doeError := true } }
  else if objType = 1 then c
  else
    let (v, t, next) := match index with
      | 0 => (1, 0, 1)
      | 1 => (1, 1, 0)
      | _ => (0xFFFF, 0, 0)
    c.answer "DOE Discovery" (toLE 2 v ++ toLE 1 t ++ toLE 1 next)

/-- DOE_ABORT: DOE Error is cleared. -/
def doeAbort (c : Chip) : Chip :=
  if c.doeUp then { c with trust := { c.trust with doeError := false } } else c

/-! ### SPDM (R464) -/

/-- The transport carries requests now. -/
def Chip.spdmUp (c : Chip) (via : SpdmVia) : Bool :=
  match via with
  | .doe => c.doeUp && !c.trust.doeError
  | .sideband smb => c.sideband smb

/-- The session of a transport. -/
def Chip.session (c : Chip) (via : SpdmVia) : Spdm :=
  match via with
  | .doe => c.trust.doe
  | .sideband _ => c.trust.sb

def Chip.setSession (c : Chip) (via : SpdmVia) (x : Spdm) : Chip :=
  match via with
  | .doe => { c with trust := { c.trust with doe := x } }
  | .sideband _ => { c with trust := { c.trust with sb := x } }

/-- The transcript a message pair belongs to. -/
inductive SpdmPart where
  | vca | certs | meas
deriving DecidableEq, Repr

/-- Messages appended to a transcript; the measurements transcript runs over consecutive GET_MEASUREMENTS only. Log 35 (PRESUMED). -/
def Spdm.note (x : Spdm) (p : SpdmPart) (m : Bytes) : Spdm :=
  match p with
  | .vca => { x with vca := x.vca ++ m, meas := [] }
  | .certs => { x with certs := x.certs ++ m, meas := [] }
  | .meas => { x with meas := x.meas ++ m }

/-- An SPDM 1.2 message: version, code, two parameters, the rest. -/
def spdmMsg (code p1 p2 : Nat) (rest : Bytes) : Bytes := 0x12 :: (toLE 1 code ++ toLE 1 p1 ++ toLE 1 p2 ++ rest)

/-- Answers a request with a response; both go into the session's transcript. -/
def Chip.spdmReply (c : Chip) (via : SpdmVia) (p : SpdmPart) (what : String) (req resp : Bytes) : Chip :=
  (c.setSession via ((c.session via).note p (req ++ resp))).answer what resp

/-- An SPDM ERROR of a code. Log 35 (PRESUMED). -/
def Chip.spdmError (c : Chip) (code : Nat) : Chip := c.answer "SPDM ERROR" (spdmMsg 0x7F code 0 [])

/-- The shared form of an SPDM request: ERROR Busy (0x03) before boot completes, Unspecified (0x05) after a boot failure,
UnexpectedRequest (0x04) out of DSP0274's order; else `f`. Log 35 (PRESUMED). -/
def spdm (via : SpdmVia) (order : Nat → Bool) (f : Chip → Chip) (c : Chip) : Chip :=
  if !c.spdmUp via then c
  else if c.boot.state == .failed || c.boot.state == .recovery then c.spdmError 0x05
  else if !c.booted then c.spdmError 0x03
  else if !order (c.session via).phase then c.spdmError 0x04
  else f c

/-- GET_VERSION: SPDM 1.2; the requester begins again. Log 35 (PRESUMED). -/
def spdmVersion (via : SpdmVia) (c : Chip) : Chip :=
  spdm via (fun _ => true) (fun c =>
    (c.setSession via { Spdm.none with phase := 1 }).spdmReply via .vca "SPDM VERSION" [0x10, 0x84, 0, 0] [0x10, 0x04, 0, 0, 0, 1, 0x00, 0x12]) c

/-- GET_CAPABILITIES: CERT_CAP, CHAL_CAP, MEAS_CAP with signatures; the response time and the sizes are the implementation's.
Log 35 (PRESUMED). -/
def spdmCapabilities (via : SpdmVia) (req : Bytes) (c : Chip) : Chip :=
  spdm via (fun n => n == 1) (fun c =>
    (c.setSession via { c.session via with phase := 3 }).spdmReply via .vca "SPDM CAPABILITIES" (spdmMsg 0xE1 0 0 req)
      (spdmMsg 0x61 0 0 ([0, BitVec.ofNat 8 (Config.spdmLimits 0), 0, 0] ++ toLE 4 0x16 ++ toLE 4 (Config.spdmLimits 1) ++ toLE 4 (Config.spdmLimits 2)))) c

/-- NEGOTIATE_ALGORITHMS: of what the request offers, the DMTF measurement format, BaseAsymAlgo SM2, BaseHashAlgo SM3; the measurement
hash SM3. Log 35 (PRESUMED). -/
def spdmAlgorithms (via : SpdmVia) (req : Bytes) (c : Chip) : Chip :=
  spdm via (fun n => n == 3) (fun c =>
    (c.setSession via { c.session via with phase := 7 }).spdmReply via .vca "SPDM ALGORITHMS" (spdmMsg 0xE3 0 0 req)
      (spdmMsg 0x63 0 0 (toLE 2 36 ++ toLE 1 (byteAt req 2 &&& 1) ++ [0] ++ toLE 4 0x80 ++ toLE 4 (leAt req 4 4 &&& 0x200) ++
        toLE 4 (leAt req 8 4 &&& 0x40) ++ List.replicate 16 0#8))) c

/-- The order every later request needs. -/
def spdmReady (n : Nat) : Bool := n == 7

/-- The certificate chain of slot 0 as DSP0274 carries it: length, root digest, certificates from the root to the leaf. -/
def Chip.spdmChain (c : Chip) : Bytes :=
  let certs := c.boot.chain.reverse
  let body := toBE 32 (sm3 (certs.headD []) % 2 ^ 256) ++ certs.flatten
  toLE 2 (4 + body.length) ++ [0, 0] ++ body

/-- Digest of the chain of slot 0. -/
def Chip.chainDigest (c : Chip) : Bytes := toBE 32 (sm3 c.spdmChain % 2 ^ 256)

/-- GET_DIGESTS: slot 0's digest, or an empty slot mask (R463). Log 35 (PRESUMED). -/
def spdmDigests (via : SpdmVia) (c : Chip) : Chip :=
  spdm via spdmReady (fun c => c.spdmReply via .certs "SPDM DIGESTS" (spdmMsg 0x81 0 0 [])
    (if c.boot.certPresent then spdmMsg 0x01 0 1 c.chainDigest else spdmMsg 0x01 0 0 [])) c

/-- GET_CERTIFICATE: a portion of slot 0's chain and the length that remains; another slot, an empty slot or an offset past
the chain is an InvalidRequest (0x01). Log 35 (PRESUMED). -/
def spdmCertificate (via : SpdmVia) (slot offset len : Nat) (c : Chip) : Chip :=
  spdm via spdmReady (fun c =>
    let chain := c.spdmChain
    if slot ≠ 0 ∨ c.boot.certPresent = false ∨ chain.length ≤ offset then c.spdmError 0x01
    else
      let part := (chain.drop offset).take len
      c.spdmReply via .certs "SPDM CERTIFICATE" (spdmMsg 0x82 slot 0 (toLE 2 offset ++ toLE 2 len))
        (spdmMsg 0x02 0 0 (toLE 2 part.length ++ toLE 2 (chain.length - offset - part.length) ++ part))) c

/-- The identity key's signature over a message (R462). -/
def identitySign (seed : Nat) (m : Bytes) : Bytes := slice (sm2Sign (scalarOf seed labelId) m) 0 64

/-- A drawn nonce of 32 bytes. -/
def Chip.nonce (c : Chip) : Bytes := toBE 32 (c.drawn (2 ^ 256))

/-- ASCII text. -/
def ascii (x : String) : Bytes := x.toList.map fun ch => BitVec.ofNat 8 ch.toNat

/-- An SPDM 1.2 signature by the identity key: over the 100-byte prefix with the context and the digest of the transcript.
Log 35 (PRESUMED). -/
def spdmSign (seed : Nat) (context : String) (m : Bytes) : Bytes :=
  let v := ascii "dmtf-spdm-v1.2.*"
  let ctx := ascii context
  identitySign seed (v ++ v ++ v ++ v ++ List.replicate (36 - ctx.length) 0#8 ++ ctx ++ toBE 32 (sm3 m % 2 ^ 256))

/-- A measurement: index, type, value. -/
structure Measurement where
  index : Nat
  typ : Nat
  value : Bytes
deriving DecidableEq, Repr

/-- The measurements of R464: the 8-byte raw bit stream, D, and one digest for each section with type 0x80 + its type. -/
def State.measurements (s : State) : List Measurement :=
  let b := s.chip.boot
  let raw := [BitVec.ofNat 8 s.root.arbCounter, BitVec.ofNat 8 (b2n s.root.locked), BitVec.ofNat 8 (b2n b.slotB), BitVec.ofNat 8 b.format]
  ⟨1, 0x80, raw ++ toBE 4 b.secVersion⟩ :: ⟨2, 0, toBE 32 b.digest⟩ ::
    b.sections.zipIdx.map fun x => ⟨3 + x.2, 0x80 + x.1.typ, toBE 32 x.1.digest⟩

/-- A measurement block of DSP0274: index, DMTF format, size, then value type, value size, value. Log 35 (PRESUMED). -/
def Measurement.bytes (m : Measurement) : Bytes :=
  toLE 1 m.index ++ [1] ++ toLE 2 (3 + m.value.length) ++ toLE 1 m.typ ++ toLE 2 m.value.length ++ m.value

/-- CHALLENGE: slot 0's chain digest, a fresh nonce and, when asked for, the digest of the measurement blocks, signed by the identity
key over the transcript; digests and certificates are then forgotten. Log 35 (PRESUMED). -/
def spdmChallenge (via : SpdmVia) (slot : Nat) (summary : Byte) (nonce : Bytes) (s : State) : State :=
  let blocks := s.measurements.flatMap Measurement.bytes
  s.onChip fun c => spdm via spdmReady (fun c =>
    if slot ≠ 0 ∨ c.boot.certPresent = false then c.spdmError 0x01
    else
      let x := c.session via
      let body := spdmMsg 0x03 0 1 (c.chainDigest ++ c.nonce ++ (if summary = 0 then [] else toBE 32 (sm3 blocks % 2 ^ 256)) ++ [0, 0])
      let m := x.vca ++ x.certs ++ spdmMsg 0x83 slot summary.toNat nonce ++ body
      (c.draw.setSession via { x with certs := [], meas := [] }).answer "SPDM CHALLENGE_AUTH"
        (body ++ spdmSign s.root.fuses.identitySeed "responder-challenge_auth signing" m)) c

/-- GET_MEASUREMENTS: index 0 the number of measurements, 255 all of them, else one, with a fresh nonce and, when asked, the identity
key's signature over the measurements transcript, which then starts anew; an index without measurement, and a signature for another
slot or an empty one, is an InvalidRequest (0x01). Log 35 (PRESUMED). -/
def spdmMeasurements (via : SpdmVia) (index : Nat) (signed : Bool) (nonce : Bytes) (slot : Nat) (s : State) : State :=
  let l := s.measurements.filter fun m => index == 255 || m.index == index
  s.onChip fun c => spdm via spdmReady (fun c =>
    if (index ≠ 0 ∧ l.isEmpty) ∨ (signed ∧ (slot ≠ 0 ∨ c.boot.certPresent = false)) then c.spdmError 0x01
    else
      let x := c.session via
      let blocks := l.flatMap Measurement.bytes
      let req := spdmMsg 0xE0 (b2n signed) index (if signed then nonce ++ toLE 1 slot else [])
      let body := spdmMsg 0x60 (if index = 0 then s.measurements.length else 0) 0
        (toLE 1 l.length ++ toLE 3 blocks.length ++ blocks ++ c.nonce ++ [0, 0])
      let c := c.draw
      if signed then
        (c.setSession via { x with meas := [] }).answer "SPDM MEASUREMENTS"
          (body ++ spdmSign s.root.fuses.identitySeed "responder-measurements signing" (x.vca ++ x.meas ++ req ++ body))
      else c.spdmReply via .meas "SPDM MEASUREMENTS" req body) c

/-! ### Test port (R461) -/

/-- The IDCODE word: stepping, part number by die count, manufacturer, 1. Log 37 (DESIGN CHOICE). -/
def Chip.idcode (c : Chip) : Nat :=
  let part := if c.dies = 8 then 0x8808 else if c.dies = 4 then 0x8804 else 0x8802
  1 + Config.manufacturerId % 2 ^ 11 * 2 + part * 2 ^ 12 + (Config.revision.toNat % 16) * 2 ^ 28

/-- Debug instructions reach register space: the logic side runs and the part is not DEBUG_LOCKed. Log 37 (DESIGN CHOICE). -/
def State.debugOk (s : State) : Bool := s.chip.mgmtUp && !s.root.locked

/-- BYPASS shifts out a 0. Log 37 (DESIGN CHOICE). -/
def testBypass (s : State) : State := s.onChip fun c => c.emit (.tdo "BYPASS" 0)

/-- A byte of a record memory: records of `n` bytes, held as numbers least significant byte first. -/
def recByte (n : Nat) (t : Tab Nat) (addr : Nat) : Nat := bitsN (tget 0 t (addr / n)) (8 * (addr % n)) 8

def setRecByte (n : Nat) (t : Tab Nat) (addr : Nat) (b : Byte) : Tab Nat :=
  tput 0 t (addr / n) (setBitsN (tget 0 t (addr / n)) (8 * (addr % n)) 8 b.toNat)

/-- What a debug instruction reads of an on-die memory of a die (R461). Log 37 (DESIGN CHOICE). -/
def Chip.debugRead (c : Chip) (d : Nat) (m : DebugMem) (addr : Nat) : Nat :=
  match m with
  | .nodes => recByte 64 c.dp.nodes addr
  | .transitions => recByte 16 c.dp.trans addr
  | .automaton => byteAt c.dp.automaton addr
  | .controlStore => recByte 24 c.dre.cstore addr
  | .templates => ((tget none c.rl.templ (addr / 128)).map fun x => byteAt x.bytes (addr % 128)).getD 0
  | .packets => (((c.pkt (addr / 65536)).filter fun p => p.die == d).map fun p => byteAt p.bytes (addr % 65536)).getD 0
  | .option => byteAt c.boot.option addr

/-- What a debug instruction writes of an on-die memory; a memory that every die holds alike is written on all of them.
Log 37 (DESIGN CHOICE). -/
def Chip.debugWrite (c : Chip) (d : Nat) (m : DebugMem) (addr : Nat) (b : Byte) : Chip :=
  match m with
  | .nodes => if addr < 256 * 64 then c.setDp fun s => { s with nodes := setRecByte 64 s.nodes addr b } else c
  | .transitions => if addr < 4096 * 16 then c.setDp fun s => { s with trans := setRecByte 16 s.trans addr b } else c
  | .automaton => c.setDp fun s => { s with automaton := s.automaton.set addr b }
  | .controlStore => if addr < 32768 * 24 then c.setDre fun s => { s with cstore := setRecByte 24 s.cstore addr b } else c
  | .templates => c.setRl fun s =>
    { s with templ := tmod none s.templ (addr / 128) fun o => o.map fun x => { x with bytes := x.bytes.set (addr % 128) b } }
  | .packets => match (c.pkt (addr / 65536)).filter fun p => p.die == d with
    | some p => c.setPkt { p with bytes := p.bytes.set (addr % 65536) b }
    | none => c
  | .option => { c with boot := { c.boot with option := c.boot.option.set addr b } }

/-- The debug instructions reach the memories of a die: it is there and has its rails. -/
def Chip.debugDie (c : Chip) (d : Nat) : Bool := c.alive && c.hasDie d && c.reach 0 d

/-- TEST_PORT_INSTRUCTION (R461). After DEBUG_LOCK every debug instruction acts as BYPASS. What the boundary register shows is a free
value. Log 37 (DESIGN CHOICE). -/
def testPort (i : TestInstr) (s : State) : State :=
  if !s.chip.pwr.aux then s
  else
    match i with
    | .bypass => testBypass s
    | .idcode => s.onChip fun c => c.emit (.tdo "IDCODE" c.idcode)
    | .samplePreload => s.onChip fun c => c.draw.emit (.tdo "SAMPLE/PRELOAD" (c.drawn (2 ^ 32)))
    | .extest => s.onChip fun c => c.draw.emit (.tdo "EXTEST" (c.drawn (2 ^ 32)))
    | .debugHalt => if s.debugOk then s.onChip fun c => { c with trust := { c.trust with halted := true } } else testBypass s
    | .debugRegRead off =>
      if s.debugOk then
        let (v, t) := bar4Access .tether (off / 4 * 4) none s
        t.onChip fun c => c.emit (.tdo "REG" v)
      else testBypass s
    | .debugRegWrite off value => if s.debugOk then bar4Store .tether (off / 4 * 4) value s else testBypass s
    | .debugMemRead d m addr =>
      if s.debugOk then s.onChip fun c => c.emit (.tdo "MEM" (if c.debugDie d then c.debugRead d m addr else 0)) else testBypass s
    | .debugMemWrite d m addr value =>
      if s.debugOk then s.onChip fun c => if c.debugDie d then c.debugWrite d m addr value else c else testBypass s

end Sys2Proof.Machine
end

