-- ==== Sys2Proof/Machine/TrustRows.lean ====
section
/-! DEFINITION. Management transports and the test port, row by row. -/

namespace Sys2Proof.Machine

/-- SET_ENDPOINT_ID (R465). -/
def execSetEndpointId (smb : Smb) (eid : Byte) (s : State) : Outcome :=
  .next (s.onChip (setEndpointId smb eid))

/-- PLDM_SENSOR_READ (R465). -/
def execPldmSensorRead (smb : Smb) (sensor : Nat) (s : State) : Outcome :=
  .next (s.onChip (pldmSensorRead smb sensor))

/-- VENDOR_CLASS_READ (R515). -/
def execVendorClassRead (smb : Smb) (die cls : Nat) (s : State) : Outcome :=
  .next (s.onChip (vendorClassRead smb die cls))

/-- GET_VERSION (R464). -/
def execGetVersion (via : SpdmVia) (s : State) : Outcome :=
  .next (s.onChip (spdmVersion via))

/-- GET_CAPABILITIES (R464). -/
def execGetCapabilities (via : SpdmVia) (req : Bytes) (s : State) : Outcome :=
  .next (s.onChip (spdmCapabilities via req))

/-- NEGOTIATE_ALGORITHMS (R464). -/
def execNegotiateAlgorithms (via : SpdmVia) (req : Bytes) (s : State) : Outcome :=
  .next (s.onChip (spdmAlgorithms via req))

/-- GET_DIGESTS (R464). -/
def execGetDigests (via : SpdmVia) (s : State) : Outcome :=
  .next (s.onChip (spdmDigests via))

/-- GET_CERTIFICATE (R464). -/
def execGetCertificate (via : SpdmVia) (slot offset len : Nat) (s : State) : Outcome :=
  .next (s.onChip (spdmCertificate via slot offset len))

/-- DOE_ABORT (R341). -/
def execDoeAbort (s : State) : Outcome :=
  .next (s.onChip (doeAbort))

/-- DOE_DISCOVERY (R341). -/
def execDoeDiscovery (vendor objType lengthDw index : Nat) (s : State) : Outcome :=
  .next (s.onChip (doeDiscovery vendor objType lengthDw index))

/-- MCTP_CONTROL_DISCOVERY (R465). -/
def execMctpControlDiscovery (smb : Smb) (what : MctpDiscovery) (s : State) : Outcome :=
  .next (s.onChip (mctpDiscovery smb what))

/-- VENDOR_BOOT_STATUS (R465). -/
def execVendorBootStatus (smb : Smb) (s : State) : Outcome :=
  .next (vendorBootStatus smb s)

/-- CHALLENGE (R464). -/
def execChallenge (via : SpdmVia) (slot : Nat) (summary : Byte) (nonce : Bytes) (s : State) : Outcome :=
  .next (spdmChallenge via slot summary nonce s)

/-- GET_MEASUREMENTS (R464). -/
def execGetMeasurements (via : SpdmVia) (index : Nat) (signed : Bool) (nonce : Bytes) (slot : Nat) (s : State) : Outcome :=
  .next (spdmMeasurements via index signed nonce slot s)

/-- TEST_PORT_INSTRUCTION (R461). -/
def execTestPortInstruction (instr : TestInstr) (s : State) : Outcome :=
  .next (testPort instr s)

end Sys2Proof.Machine
end

