-- ==== Sys2Proof/Machine/Dispatch.lean ====
section
/-! DEFINITION. The meaning of each command: one arm per constructor of `Instr`, in the order of the table. -/

namespace Sys2Proof.Machine

def exec (i : Instr) (s : State) : Host.Outcome State Fault Refusal :=
  match i with
  | .frameArrival lane phase bytes slotErr => Sys2Proof.Machine.execFrameArrival lane phase bytes slotErr s
  | .oversizeDetected lane => Sys2Proof.Machine.execOversizeDetected lane s
  | .frameEnd lane fcsOk reasmErr fecCorrected fecUncorrected => Sys2Proof.Machine.execFrameEnd lane fcsOk reasmErr fecCorrected fecUncorrected s
  | .rxStop lane received suspended => Sys2Proof.Machine.execRxStop lane received suspended s
  | .walkBegin pkt memErr => Sys2Proof.Machine.execWalkBegin pkt memErr s
  | .scanResultReady pkt memErr => Sys2Proof.Machine.execScanResultReady pkt memErr s
  | .ingressStage pkt bad memErr => Sys2Proof.Machine.execIngressStage pkt bad memErr s
  | .culvertArrival pkt replays cells => Sys2Proof.Machine.execCulvertArrival pkt replays cells s
  | .flowLookupResult pkt memErr bad => Sys2Proof.Machine.execFlowLookupResult pkt memErr bad s
  | .flowRereadResult pkt memErr bad => Sys2Proof.Machine.execFlowRereadResult pkt memErr bad s
  | .spillwayReadback pkt cells => Sys2Proof.Machine.execSpillwayReadback pkt cells s
  | .grant inst dest => Sys2Proof.Machine.execGrant inst dest s
  | .tenantFrameStart lane slotErr cells => Sys2Proof.Machine.execTenantFrameStart lane slotErr cells s
  | .throughDeparture pkt slotErr cells => Sys2Proof.Machine.execThroughDeparture pkt slotErr cells s
  | .transmitComplete lane => Sys2Proof.Machine.execTransmitComplete lane s
  | .rxDelivery pkt cells => Sys2Proof.Machine.execRxDelivery pkt cells s
  | .pauseReceived lane frame => Sys2Proof.Machine.execPauseReceived lane frame s
  | .pauseExpiry lane prio => Sys2Proof.Machine.execPauseExpiry lane prio s
  | .pauseResend lane prio => Sys2Proof.Machine.execPauseResend lane prio s
  | .preemptVerify lane => Sys2Proof.Machine.execPreemptVerify lane s
  | .verifyTimeout lane => Sys2Proof.Machine.execVerifyTimeout lane s
  | .linkStateChange lane up localFault remoteFault anDone => Sys2Proof.Machine.execLinkStateChange lane up localFault remoteFault anDone s
  | .culvertLinkFail die port => Sys2Proof.Machine.execCulvertLinkFail die port s
  | .fltCulRetrain m die value => Sys2Proof.Machine.execFltCulRetrain m die value s
  | .culvertRetrainDone die port ok => Sys2Proof.Machine.execCulvertRetrainDone die port ok s
  | .learnOriginate die => Sys2Proof.Machine.execLearnOriginate die s
  | .learnNotice die => Sys2Proof.Machine.execLearnNotice die s
  | .learnReplicaFail die => Sys2Proof.Machine.execLearnReplicaFail die s
  | .learnWithdrawal die => Sys2Proof.Machine.execLearnWithdrawal die s
  | .hitNotice die => Sys2Proof.Machine.execHitNotice die s
  | .clearNotice die => Sys2Proof.Machine.execClearNotice die s
  | .sweeperVisit die table bucket => Sys2Proof.Machine.execSweeperVisit die table bucket s
  | .macRemoval die => Sys2Proof.Machine.execMacRemoval die s
  | .commitOpen => Sys2Proof.Machine.execCommitOpen s
  | .ruleChange => Sys2Proof.Machine.execRuleChange s
  | .commitClose => Sys2Proof.Machine.execCommitClose s
  | .commitAbort => Sys2Proof.Machine.execCommitAbort s
  | .changesConfirmed => Sys2Proof.Machine.execChangesConfirmed s
  | .dieConfirmTimeout => Sys2Proof.Machine.execDieConfirmTimeout s
  | .commitUndoDone => Sys2Proof.Machine.execCommitUndoDone s
  | .epochSwitch => Sys2Proof.Machine.execEpochSwitch s
  | .qosApply die => Sys2Proof.Machine.execQosApply die s
  | .epochRetire => Sys2Proof.Machine.execEpochRetire s
  | .retirementSweepDone => Sys2Proof.Machine.execRetirementSweepDone s
  | .epochStall slot elapsedMs => Sys2Proof.Machine.execEpochStall slot elapsedMs s
  | .groupUpdate => Sys2Proof.Machine.execGroupUpdate s
  | .groupUpdateConfirmed => Sys2Proof.Machine.execGroupUpdateConfirmed s
  | .flowWrite memErr => Sys2Proof.Machine.execFlowWrite memErr s
  | .flowDelete memErr => Sys2Proof.Machine.execFlowDelete memErr s
  | .macFlush => Sys2Proof.Machine.execMacFlush s
  | .assocWrite => Sys2Proof.Machine.execAssocWrite s
  | .keyLoad f => Sys2Proof.Machine.execKeyLoad f s
  | .keyClear f => Sys2Proof.Machine.execKeyClear f s
  | .keySlotSettled f => Sys2Proof.Machine.execKeySlotSettled f s
  | .kekQuery f => Sys2Proof.Machine.execKekQuery f s
  | .cipherJob f => Sys2Proof.Machine.execCipherJob f s
  | .cipherUnitDispatch die unit slotErr cells => Sys2Proof.Machine.execCipherUnitDispatch die unit slotErr cells s
  | .cipherUnitComplete die unit => Sys2Proof.Machine.execCipherUnitComplete die unit s
  | .engineContextStart die engine job => Sys2Proof.Machine.execEngineContextStart die engine job s
  | .microwordIssue die engine ctx csErr mismatch => Sys2Proof.Machine.execMicrowordIssue die engine ctx csErr mismatch s
  | .tsReadAction die engine ctx memErr => Sys2Proof.Machine.execTsReadAction die engine ctx memErr s
  | .tsCounterAdd die engine ctx => Sys2Proof.Machine.execTsCounterAdd die engine ctx s
  | .tsMacLookup die engine ctx memErr bad => Sys2Proof.Machine.execTsMacLookup die engine ctx memErr bad s
  | .hbStateRead die engine ctx memErr => Sys2Proof.Machine.execHbStateRead die engine ctx memErr s
  | .hbStateWrite die engine ctx => Sys2Proof.Machine.execHbStateWrite die engine ctx s
  | .hbAtomicAdd die engine ctx memErr => Sys2Proof.Machine.execHbAtomicAdd die engine ctx memErr s
  | .hbFlowLookup die engine ctx memErr bad => Sys2Proof.Machine.execHbFlowLookup die engine ctx memErr bad s
  | .hbFlowInsert die engine ctx memErr => Sys2Proof.Machine.execHbFlowInsert die engine ctx memErr s
  | .hbFlowDelete die engine ctx memErr => Sys2Proof.Machine.execHbFlowDelete die engine ctx memErr s
  | .hbFlowRewrite die engine ctx memErr => Sys2Proof.Machine.execHbFlowRewrite die engine ctx memErr s
  | .pbRead die engine ctx cells => Sys2Proof.Machine.execPbRead die engine ctx cells s
  | .pbWrite die engine ctx => Sys2Proof.Machine.execPbWrite die engine ctx s
  | .pbSetLength die engine ctx => Sys2Proof.Machine.execPbSetLength die engine ctx s
  | .pbPrepend die engine ctx => Sys2Proof.Machine.execPbPrepend die engine ctx s
  | .pbRemove die engine ctx => Sys2Proof.Machine.execPbRemove die engine ctx s
  | .pbAllocate die engine ctx => Sys2Proof.Machine.execPbAllocate die engine ctx s
  | .hashH1H2 die engine ctx => Sys2Proof.Machine.execHashH1H2 die engine ctx s
  | .hashSymmetric die engine ctx => Sys2Proof.Machine.execHashSymmetric die engine ctx s
  | .hashCrc die engine ctx => Sys2Proof.Machine.execHashCrc die engine ctx s
  | .cipherTlsRecord die engine ctx => Sys2Proof.Machine.execCipherTlsRecord die engine ctx s
  | .cipherXtsUnit die engine ctx => Sys2Proof.Machine.execCipherXtsUnit die engine ctx s
  | .dmaPost die engine ctx => Sys2Proof.Machine.execDmaPost die engine ctx s
  | .portOpComplete die engine ctx port => Sys2Proof.Machine.execPortOpComplete die engine ctx port s
  | .enginePauseEnd die engine ctx => Sys2Proof.Machine.execEnginePauseEnd die engine ctx s
  | .reinject die engine ctx => Sys2Proof.Machine.execReinject die engine ctx s
  | .reinjectSlot die memErr => Sys2Proof.Machine.execReinjectSlot die memErr s
  | .enqueue die engine ctx => Sys2Proof.Machine.execEnqueue die engine ctx s
  | .drop die engine ctx => Sys2Proof.Machine.execDrop die engine ctx s
  | .complete die engine ctx => Sys2Proof.Machine.execComplete die engine ctx s
  | .dreCtxKill m die value => Sys2Proof.Machine.execDreCtxKill m die value s
  | .engineBlockIdle die => Sys2Proof.Machine.execEngineBlockIdle die s
  | .chnDsProd f value => Sys2Proof.Machine.execChnDsProd f value s
  | .chnCqCons f value => Sys2Proof.Machine.execChnCqCons f value s
  | .chnDsRestart f value => Sys2Proof.Machine.execChnDsRestart f value s
  | .chnCqRestart f value => Sys2Proof.Machine.execChnCqRestart f value s
  | .chnInvalidate f value => Sys2Proof.Machine.execChnInvalidate f value s
  | .chnAbort f value => Sys2Proof.Machine.execChnAbort f value s
  | .entryFetch f => Sys2Proof.Machine.execEntryFetch f s
  | .entryStart f => Sys2Proof.Machine.execEntryStart f s
  | .pad f => Sys2Proof.Machine.execPad f s
  | .nop f => Sys2Proof.Machine.execNop f s
  | .txSend f => Sys2Proof.Machine.execTxSend f s
  | .rxPost f => Sys2Proof.Machine.execRxPost f s
  | .dmaCopy f => Sys2Proof.Machine.execDmaCopy f s
  | .storageCmd f => Sys2Proof.Machine.execStorageCmd f s
  | .shadowWrite f => Sys2Proof.Machine.execShadowWrite f s
  | .burstIssue die write cells => Sys2Proof.Machine.execBurstIssue die write cells s
  | .readCompletion port link tag status byteCount data => Sys2Proof.Machine.execReadCompletion port link tag status byteCount data s
  | .readTimeout port link tag => Sys2Proof.Machine.execReadTimeout port link tag s
  | .tagHoldExpiry port link tag => Sys2Proof.Machine.execTagHoldExpiry port link tag s
  | .transferEnd die xfer => Sys2Proof.Machine.execTransferEnd die xfer s
  | .dmaModArm f value => Sys2Proof.Machine.execDmaModArm f value s
  | .moderationTimer f => Sys2Proof.Machine.execModerationTimer f s
  | .busMasterEnableClear fn => Sys2Proof.Machine.execBusMasterEnableClear fn s
  | .busMasterEnableSet fn => Sys2Proof.Machine.execBusMasterEnableSet fn s
  | .d3hotEntry fn => Sys2Proof.Machine.execD3hotEntry fn s
  | .d0Return fn => Sys2Proof.Machine.execD0Return fn s
  | .initiateFlr fn => Sys2Proof.Machine.execInitiateFlr fn s
  | .conventionalReset port link cause => Sys2Proof.Machine.execConventionalReset port link cause s
  | .perstRelease port => Sys2Proof.Machine.execPerstRelease port s
  | .hostLinkChange port link up speed width flit => Sys2Proof.Machine.execHostLinkChange port link up speed width flit s
  | .vfEnableClear port link => Sys2Proof.Machine.execVfEnableClear port link s
  | .numvfsWrite port link value => Sys2Proof.Machine.execNumvfsWrite port link value s
  | .msixUnmask fn vector => Sys2Proof.Machine.execMsixUnmask fn vector s
  | .instanceCreate => Sys2Proof.Machine.execInstanceCreate s
  | .instanceDestroy => Sys2Proof.Machine.execInstanceDestroy s
  | .instanceReset => Sys2Proof.Machine.execInstanceReset s
  | .instanceResetDone n => Sys2Proof.Machine.execInstanceResetDone n s
  | .mapSet => Sys2Proof.Machine.execMapSet s
  | .mapClear => Sys2Proof.Machine.execMapClear s
  | .mapSettled => Sys2Proof.Machine.execMapSettled s
  | .dirtyStart => Sys2Proof.Machine.execDirtyStart s
  | .dirtySync => Sys2Proof.Machine.execDirtySync s
  | .dirtyStop => Sys2Proof.Machine.execDirtyStop s
  | .freeze => Sys2Proof.Machine.execFreeze s
  | .freezeDrained n => Sys2Proof.Machine.execFreezeDrained n s
  | .thaw => Sys2Proof.Machine.execThaw s
  | .save => Sys2Proof.Machine.execSave s
  | .restore => Sys2Proof.Machine.execRestore s
  | .helloTimer die => Sys2Proof.Machine.execHelloTimer die s
  | .hello lane frame => Sys2Proof.Machine.execHello lane frame s
  | .neighbourHoldExpiry lane => Sys2Proof.Machine.execNeighbourHoldExpiry lane s
  | .publish lane frame => Sys2Proof.Machine.execPublish lane frame s
  | .pubAck lane frame => Sys2Proof.Machine.execPubAck lane frame s
  | .publishResend lane => Sys2Proof.Machine.execPublishResend lane s
  | .spanBarrierGroup => Sys2Proof.Machine.execSpanBarrierGroup s
  | .spanNeighbours => Sys2Proof.Machine.execSpanNeighbours s
  | .spanRepublish => Sys2Proof.Machine.execSpanRepublish s
  | .barrierStart => Sys2Proof.Machine.execBarrierStart s
  | .barrierPrepare lane frame => Sys2Proof.Machine.execBarrierPrepare lane frame s
  | .barrierEcho lane frame => Sys2Proof.Machine.execBarrierEcho lane frame s
  | .barrierGo lane frame => Sys2Proof.Machine.execBarrierGo lane frame s
  | .barrierAbort lane frame => Sys2Proof.Machine.execBarrierAbort lane frame s
  | .barrierTimeout => Sys2Proof.Machine.execBarrierTimeout s
  | .spnBarrierStall => Sys2Proof.Machine.execSpnBarrierStall s
  | .barrierCancel m value => Sys2Proof.Machine.execBarrierCancel m value s
  | .hbmScrubVisit die found wrote overrun => Sys2Proof.Machine.execHbmScrubVisit die found wrote overrun s
  | .sramScrubVisit die found wrote overrun => Sys2Proof.Machine.execSramScrubVisit die found wrote overrun s
  | .cfgCrcSweep => Sys2Proof.Machine.execCfgCrcSweep s
  | .cfgCrcCommit m value => Sys2Proof.Machine.execCfgCrcCommit m value s
  | .cfgCrcHoldLong => Sys2Proof.Machine.execCfgCrcHoldLong s
  | .fltPinRelease m die value => Sys2Proof.Machine.execFltPinRelease m die value s
  | .fltClassSel m die value => Sys2Proof.Machine.execFltClassSel m die value s
  | .fltLogCons m value => Sys2Proof.Machine.execFltLogCons m value s
  | .logMessage => Sys2Proof.Machine.execLogMessage s
  | .logSetup => Sys2Proof.Machine.execLogSetup s
  | .logStop => Sys2Proof.Machine.execLogStop s
  | .verdictSetup => Sys2Proof.Machine.execVerdictSetup s
  | .verdictStop => Sys2Proof.Machine.execVerdictStop s
  | .tetWatchdog => Sys2Proof.Machine.execTetWatchdog s
  | .registerWrite m offset size value => Sys2Proof.Machine.execRegisterWrite m offset size value s
  | .blockEnable m die block value => Sys2Proof.Machine.execBlockEnable m die block value s
  | .blockDisable m die block value => Sys2Proof.Machine.execBlockDisable m die block value s
  | .spillDisable m die value => Sys2Proof.Machine.execSpillDisable m die value s
  | .pkgTenantMode m value => Sys2Proof.Machine.execPkgTenantMode m value s
  | .counterReadClear m offset size attr => Sys2Proof.Machine.execCounterReadClear m offset size attr s
  | .clsCntSel m die value memErr => Sys2Proof.Machine.execClsCntSel m die value memErr s
  | .bufOccSel m die value => Sys2Proof.Machine.execBufOccSel m die value s
  | .bufDropSel m die value => Sys2Proof.Machine.execBufDropSel m die value s
  | .schShpSel m die value => Sys2Proof.Machine.execSchShpSel m die value s
  | .weiCntSel m die value => Sys2Proof.Machine.execWeiCntSel m die value s
  | .macCntSel m die value => Sys2Proof.Machine.execMacCntSel m die value s
  | .cipSlotSel m die value => Sys2Proof.Machine.execCipSlotSel m die value s
  | .dreCtxSel m die value => Sys2Proof.Machine.execDreCtxSel m die value s
  | .shaperRefill die idx late => Sys2Proof.Machine.execShaperRefill die idx late s
  | .clkGate m die value => Sys2Proof.Machine.execClkGate m die value s
  | .gateForceTimeout die block => Sys2Proof.Machine.execGateForceTimeout die block s
  | .pwrSoftRst m die value => Sys2Proof.Machine.execPwrSoftRst m die value s
  | .softResetDone die block => Sys2Proof.Machine.execSoftResetDone die block s
  | .clkTbRate m value => Sys2Proof.Machine.execClkTbRate m value s
  | .clkTbStep m value => Sys2Proof.Machine.execClkTbStep m value s
  | .fuseArm m value => Sys2Proof.Machine.execFuseArm m value s
  | .fuseArmExpiry => Sys2Proof.Machine.execFuseArmExpiry s
  | .advanceCounter m => Sys2Proof.Machine.execAdvanceCounter m s
  | .debugLock m => Sys2Proof.Machine.execDebugLock m s
  | .fuseBlowDone verified => Sys2Proof.Machine.execFuseBlowDone verified s
  | .auxPowerOn => Sys2Proof.Machine.execAuxPowerOn s
  | .auxPowerLoss => Sys2Proof.Machine.execAuxPowerLoss s
  | .pkgRstAssert => Sys2Proof.Machine.execPkgRstAssert s
  | .pkgRstRelease bootSel rcvPort smbAddr => Sys2Proof.Machine.execPkgRstRelease bootSel rcvPort smbAddr s
  | .pilotArmed => Sys2Proof.Machine.execPilotArmed s
  | .refclkQualified => Sys2Proof.Machine.execRefclkQualified s
  | .pllLockAll => Sys2Proof.Machine.execPllLockAll s
  | .pllLockTimeout die => Sys2Proof.Machine.execPllLockTimeout die s
  | .pilotTrimTick cmp => Sys2Proof.Machine.execPilotTrimTick cmp s
  | .bootStepComplete hwFail => Sys2Proof.Machine.execBootStepComplete hwFail s
  | .refclkLost => Sys2Proof.Machine.execRefclkLost s
  | .pllUnlocked die => Sys2Proof.Machine.execPllUnlocked die s
  | .domainCountWindow die domain edges => Sys2Proof.Machine.execDomainCountWindow die domain edges s
  | .refclkFreqWindow edges => Sys2Proof.Machine.execRefclkFreqWindow edges s
  | .pilotEdgeTimeout => Sys2Proof.Machine.execPilotEdgeTimeout s
  | .rcvRead addr len => Sys2Proof.Machine.execRcvRead addr len s
  | .rcvErase addr len => Sys2Proof.Machine.execRcvErase addr len s
  | .rcvProgram addr len data => Sys2Proof.Machine.execRcvProgram addr len data s
  | .rcvOpDone nvmOk => Sys2Proof.Machine.execRcvOpDone nvmOk s
  | .psEnChange level => Sys2Proof.Machine.execPsEnChange level s
  | .psPgRise => Sys2Proof.Machine.execPsPgRise s
  | .psPgFall die => Sys2Proof.Machine.execPsPgFall die s
  | .powerStageFault cause die rail => Sys2Proof.Machine.execPowerStageFault cause die rail s
  | .telemetryUpdate vbus ibus power rails => Sys2Proof.Machine.execTelemetryUpdate vbus ibus power rails s
  | .telemetryTimeout => Sys2Proof.Machine.execTelemetryTimeout s
  | .sensorUpdate die readings => Sys2Proof.Machine.execSensorUpdate die readings s
  | .setEndpointId smb eid => Sys2Proof.Machine.execSetEndpointId smb eid s
  | .pldmSensorRead smb sensor => Sys2Proof.Machine.execPldmSensorRead smb sensor s
  | .vendorBootStatus smb => Sys2Proof.Machine.execVendorBootStatus smb s
  | .vendorClassRead smb die cls => Sys2Proof.Machine.execVendorClassRead smb die cls s
  | .getVersion via => Sys2Proof.Machine.execGetVersion via s
  | .getCapabilities via req => Sys2Proof.Machine.execGetCapabilities via req s
  | .negotiateAlgorithms via req => Sys2Proof.Machine.execNegotiateAlgorithms via req s
  | .getDigests via => Sys2Proof.Machine.execGetDigests via s
  | .getCertificate via slot offset len => Sys2Proof.Machine.execGetCertificate via slot offset len s
  | .challenge via slot summary nonce => Sys2Proof.Machine.execChallenge via slot summary nonce s
  | .getMeasurements via index signed nonce slot => Sys2Proof.Machine.execGetMeasurements via index signed nonce slot s
  | .doeAbort => Sys2Proof.Machine.execDoeAbort s
  | .refclkStopBeforeLock => Sys2Proof.Machine.execRefclkStopBeforeLock s
  | .standbyRailsChange up => Sys2Proof.Machine.execStandbyRailsChange up s
  | .psFltFall => Sys2Proof.Machine.execPsFltFall s
  | .vfEnableSet port link => Sys2Proof.Machine.execVfEnableSet port link s
  | .doeDiscovery vendor objType lengthDw index => Sys2Proof.Machine.execDoeDiscovery vendor objType lengthDw index s
  | .mctpControlDiscovery smb what => Sys2Proof.Machine.execMctpControlDiscovery smb what s
  | .testPortInstruction instr => Sys2Proof.Machine.execTestPortInstruction instr s
  | .waveMemoryExpiry coord id => Sys2Proof.Machine.execWaveMemoryExpiry coord id s

end Sys2Proof.Machine
end

