-- ==== Sys2Proof/Machine/Idle.lean ====
section
/-! DEFINITION. What the block does when no command waits: one REFCLK edge. The table has no row for a tick. -/

namespace Sys2Proof.Machine

/-- No packet of a die has a flow-table request in HBM. Log 74 (DESIGN CHOICE). -/
def Chip.flowIdle (c : Chip) (d : Nat) : Bool :=
  !(c.dp.pkts.any fun p => p.die == d && (match p.stage with | .lookup _ => true | .reread => true | _ => false))

/-- No context of a die has a request in HBM. Log 74 (DESIGN CHOICE). -/
def Chip.engineIdle (c : Chip) (d : Nat) : Bool := !((c.ctxsOf d).any fun k => (k.2.op .hb).isSome)

/-- Cells that a die's Spillway staging drains in one REFCLK edge, 6.4 ns: 3.2 Tbit/s of its own share (R62), and what the
flow table's and the engines' shares lend while they are idle (R63). Logs 2 (DESIGN CHOICE), 14 (DESIGN CHOICE), 74 (DESIGN CHOICE). -/
def Chip.stagingRate (c : Chip) (d : Nat) : Nat :=
  let store := c.mode == 2
  10 + (if c.flowIdle d then (if store then 10 else 15) else 0) + (if c.engineIdle d then (if store then 10 else 5) else 0)

/-- One REFCLK edge: every die's copy of the time base advances (R469), the Spillway's staging drains (R195), and ports send
own frames that may leave now (R236, R417). Log 2 (DESIGN CHOICE). -/
def Chip.tick (c : Chip) : Chip :=
  let c := refclkEdge c
  if c.alive then
    let c := c.setQs fun q => { q with staged := (q.staged.map fun e => (e.1, e.2 - c.stagingRate e.1)).filter fun e => e.2 != 0 }
    (c.dp.own.map Prod.fst).foldl (fun c lane => c.ownFlush lane) c
  else c

end Sys2Proof.Machine
end

