-- ==== Sys2Proof/Machine/Pins.lean ====
section
/-! DEFINITION. The external interfaces in the conditions of R496: what every pin and lane shows of the state. -/

namespace Sys2Proof.Machine

/-- A network lane's transmitter: high impedance, driven with no differential swing, or as its port is configured. -/
inductive TxLine where
  | undriven | electricalIdle | asConfigured
deriving DecidableEq, Repr

/-- A network lane's receiver. -/
inductive RxLine where
  | unterminated | terminated | asConfigured
deriving DecidableEq, Repr

/-- A host link: nothing for the host's receiver detect, receivers unterminated in reset, down, able to train, up. -/
inductive HostLine where
  | absent | unterminated | down | training | up
deriving DecidableEq, Repr

/-- An open-drain pin. -/
inductive OpenDrain where
  | undriven | released | asserted
deriving DecidableEq, Repr

/-- A supply status pin; a board pull-down holds it low while it is undriven. -/
inductive SupplyPin where
  | undriven | low | high
deriving DecidableEq, Repr

/-- The main rails are up: PS_PG is high and they have not been lost. -/
def Chip.railsUp (c : Chip) : Bool := c.pwr.psPg && !c.pwr.mainDown

/-- The transmitter of a network lane (R225, R457, R496). Log 34 (DESIGN CHOICE). -/
def Chip.txLine (c : Chip) (lane : Nat) : TxLine :=
  if !c.pwr.aux || !c.hasDie (lane / 64) || !c.railsUp then .undriven
  else if c.booted && c.on (lane / 64) 8 then .asConfigured
  else .electricalIdle

/-- The receiver of a network lane (R496). Log 34 (DESIGN CHOICE). -/
def Chip.rxLine (c : Chip) (lane : Nat) : RxLine :=
  if !c.pwr.aux || !c.hasDie (lane / 64) || !c.railsUp then .unterminated
  else if c.alive && c.booted then .asConfigured
  else .terminated

/-- A link of a host port (R455, R457, R489, R496). Log 34 (DESIGN CHOICE). -/
def Chip.hostLine (c : Chip) (port link : Nat) : HostLine :=
  if !c.pwr.aux || !c.hasDie (port / 4) then .absent
  else if c.pwr.inReset then (if c.railsUp then .unterminated else .absent)
  else if c.pwr.mainDown then .down
  else if !c.pwr.psPg then .absent
  else if c.linkUp port link then .up
  else if c.mayTrain port link then .training
  else .down

/-- FAULT_N as the board sees it (R496, R515): released in reset, undriven without AUX_3V3. -/
def Chip.faultPin (c : Chip) : OpenDrain :=
  if !c.pwr.aux then .undriven else if !c.pwr.inReset && c.faultN then .asserted else .released

/-- SMB_ALERT_N as the board sees it (R496, R515). -/
def Chip.alertPin (c : Chip) : OpenDrain :=
  if !c.pwr.aux then .undriven else if !c.pwr.inReset && c.smbAlertN then .asserted else .released

/-- PS_PG and PS_FLT (R496). -/
def Chip.supplyPins (c : Chip) : SupplyPin × SupplyPin :=
  let pin := fun (b : Bool) => if !c.pwr.aux then SupplyPin.undriven else if b then .high else .low
  (pin c.pwr.psPg, pin c.pwr.psFlt)

end Sys2Proof.Machine
end

