-- ==== Sys2Proof/Safety.lean ====
section
/-! DEFINITION. What counts as a sound machine, and the words the statements use. -/

namespace Sys2Proof

open Sys2Proof.Machine

/-- The byte memories of the fuse and NVM side are in canonical form: NVM over erased bytes, the recovery buffer over zeros. -/
def Root.sound (r : Root) : Prop := Memory.wf 0xFF#8 r.nvm = true ∧ Memory.wf 0#8 r.rcvBuf = true

/-- Command `i` on `s` answers a next state, and that state has `P`. -/
def Gives (i : Instr) (s : State) (P : State → Prop) : Prop := ∃ t, exec i s = .next t ∧ P t

/-- MAC counter `k` of a lane (R249's numbers). -/
def Machine.Chip.mac (c : Chip) (lane k : Nat) : Nat := tget 0 c.tb.macCtr (lane * 32 + k)

/-- Word `w` of the counter that counts on die `d` at register `a`. -/
def Machine.Chip.counted (c t : Chip) (d : Nat) (a : RegAddr) : Prop := t.rd d a = satAdd 32 (c.rd d a) 1

/-- The packet that a frame on a lane becomes (R54, R189): timestamped, on its port's die, in the ingress reserve. -/
def Machine.Chip.arriving (c : Chip) (lane phase : Nat) (b : Bytes) : Pkt :=
  { Pkt.blank with
    id := c.dp.nextPkt, stamp := c.dp.stamp, die := lane / 64, bytes := b, inDie := lane / 64, src := lane, whole := false
    tIn := adjust (c.now + phase) (c.tsAdj lane 0), start := c.fld (lane / 64) (R.pgrStartNet (lane % 64)) 0 8
    holds := [⟨lane / 64, .ingress, ceilDiv (b.length + 4) 256⟩], gate := (c.dispatch (lane / 64)).1 }

/-- Entry `e` is the oldest started entry of its type on the ring of function `f` that has not run, on a part that runs. -/
abbrev Machine.Chip.toRun (c : Chip) (f typ : Nat) (e : Started) : Prop := c.alive = true ∧ c.nextRun f typ = some e

/-- `fns` are the functions of `c` but for what an error log changes: AER, and the words of configuration space without a field of
their own (the error bits of Device Status among them). -/
def Machine.Chip.aerOnly (c : Chip) (fns : Tab PciFn) : Prop :=
  ∀ k, { tget PciFn.reset fns k with aer := (c.fn k).aer, cfg := (c.fn k).cfg } = c.fn k

/-- Operation `o` of context `k` waits on a port with a code: issued, not handed on, without a result. -/
abbrev Machine.Chip.waitsOp (c : Chip) (d e x : Nat) (port : EnginePort) (code : Nat) (k : Ctx) (o : PortOp) : Prop :=
  c.alive = true ∧ c.ctx d e x = some k ∧ k.op port = some o ∧ o.op = code ∧ o.result = none ∧ o.started = false

/-- Context `k` has issued end action `code` with an immediate and the registers it reads, and its packet-buffer operations are
done. -/
abbrev Machine.Chip.ends (c : Chip) (d e x code imm : Nat) (args : List Nat) (k : Ctx) : Prop :=
  c.alive = true ∧ c.ctx d e x = some k ∧ k.st = .ending code imm args ∧ ∀ o ∈ k.ops, o.port ≠ .pb ∨ o.result.isSome = true

/-- An access of master `m` to block `b` of die `d` goes through: the master may make it, the die is present and reachable, the block's
clock runs (R531). -/
abbrev Machine.State.reaches (s : State) (m : Master) (d b : Nat) : Prop :=
  s.chip.masterOk m = true ∧ s.chip.path m d b = .clear

/-- A frame from an UP neighbour on a lane passes the checks of every HSP frame (R415, R417, R421): `q` is the chip that has
counted it. -/
abbrev Machine.Chip.hspTaken (c : Chip) (lane : Nat) (b : Bytes) (q : Chip) : Prop :=
  let h := Hsp.ofFrame b
  q = c.count (lane / 64) (R.spnEvtCnt 0) ∧ c.hspHere lane b = true ∧ h.domain = q.rd (lane / 64) R.spnDomain ∧
    30 + h.len ≤ b.length ∧ 1 ≤ h.typ ∧ h.typ ≤ 7 ∧ h.src ≠ q.fld (lane / 64) R.spnDevice 0 14 ∧
    (c.neigh lane).st = .up ∧ h.src = (c.neigh lane).device ∧ h.ver = (c.neigh lane).version ∧ Hsp.since h.typ ≤ h.ver

/-- The kinds of counter that a write of a selection register shows, and clears with bit 30 (R537). -/
inductive Machine.CtrKind where
  | pair | hit | drop | policer | mac | key | cls
deriving DecidableEq, Repr

/-- Block of a selection register; none for any other command. -/
def Instr.selects : Instr → Option Nat
  | .clsCntSel .. => some 2
  | .bufOccSel .. | .bufDropSel .. => some 5
  | .schShpSel .. => some 6
  | .weiCntSel .. => some 7
  | .macCntSel .. => some 8
  | .cipSlotSel .. => some 9
  | .dreCtxSel .. => some 11
  | .fltClassSel .. => some 19
  | _ => none

/-- The counter that a selection names, by its key in the table of its kind (R123, R124, R214, R217, R249, R272, R513). -/
def Instr.selected : Instr → Option (CtrKind × Nat)
  | .clsCntSel _ d v _ => some (if v.getLsbD 31 then (.hit, d * 2 ^ 17 + bitsN v.toNat 0 20) else (.pair, d * 2 ^ 20 + bitsN v.toNat 0 20))
  | .bufDropSel _ d v => some (.drop, ((d * 256 + bitsN v.toNat 0 8) * 2 + bitsN v.toNat 20 1) * 4096 + bitsN v.toNat 8 12)
  | .weiCntSel _ d v => some (.policer, d * 131072 + bitsN v.toNat 0 17)
  | .macCntSel _ d v => some (.mac, (d * 64 + bitsN v.toNat 0 6) * 32 + bitsN v.toNat 8 5)
  | .cipSlotSel _ d v => some (.key, d * 65536 + bitsN v.toNat 0 16)
  | .fltClassSel _ d v => some (.cls, clsKey d (bitsN v.toNat 0 8))
  | _ => none

/-- The snapshot registers that a selection writes on its die, as offsets of BAR4. -/
def Instr.snapshots : Instr → List Nat
  | .clsCntSel _ d _ _ => [R.clsCntSnapPktsLo, R.clsCntSnapPktsHi, R.clsCntSnapBytesLo, R.clsCntSnapBytesHi].map (bar4 d)
  | .bufOccSel _ d _ => [R.bufOccSnapTotal, R.bufOccSnapOndie].map (bar4 d)
  | .bufDropSel _ d _ => [bar4 d R.bufDropSnap]
  | .schShpSel _ d _ => [R.schShpSnapRate, R.schShpSnapBurst, R.schShpSnapCredit].map (bar4 d)
  | .weiCntSel _ d _ =>
    [R.weiCntGreenLo, R.weiCntGreenHi, R.weiCntYellowLo, R.weiCntYellowHi, R.weiCntRedLo, R.weiCntRedHi].map (bar4 d)
  | .macCntSel _ d _ => [R.macCntSnapLo, R.macCntSnapHi].map (bar4 d)
  | .cipSlotSel _ d _ => [R.cipSlotAuthfail, R.cipSlotReplay].map (bar4 d)
  | .dreCtxSel _ d _ => [R.dreCtxSnapState, R.dreCtxSnapWords].map (bar4 d)
  | .fltClassSel _ d _ => bar4 d R.fltSnapCount :: (List.range 8).map (fun w => bar4 d (R.fltSnapFirst w)) ++
      (List.range 8).map fun w => bar4 d (R.fltSnapLast w)
  | _ => []

/-- The register that an offset of BAR4 names. -/
def Machine.Chip.word (c : Chip) (x : Nat) : Reg32 := tget 0#32 c.regs x

/-- The commands that may change the fuse and NVM side: the fuse block's and the recovery function's rows, the boot, the resets of the
package and of the recovery port, and writes of registers by an offset. -/
def Instr.onRootSide : Instr → Bool
  | .bootStepComplete .. | .fuseArm .. | .fuseArmExpiry | .advanceCounter .. | .debugLock .. | .fuseBlowDone .. => true
  | .rcvRead .. | .rcvErase .. | .rcvProgram .. | .rcvOpDone .. | .registerWrite .. | .testPortInstruction .. => true
  | .conventionalReset .. | .pkgRstAssert | .auxPowerLoss => true
  | _ => false

/-- The commands whose effect may depend on the KEK seed. -/
def Instr.usesKek : Instr → Bool
  | .keyLoad .. | .kekQuery .. | .save | .restore .. | .bootStepComplete .. => true
  | _ => false

/-- `s` with another KEK seed in its fuses. -/
def Machine.State.withKek (s : State) (k : Nat) : State :=
  s.onRoot fun r => { r with fuses := { r.fuses with kekSeed := k } }

end Sys2Proof
end

