-- ==== Sys2Proof/Certificates/Slice0/Obligations.lean ====
section
/-! DEFINITION. The statements for the provers. Those named `…Complete` say row by row that a command answers a next state, and which. -/

open Sys2Proof Sys2Proof.Machine

/-- A step with a command at the front of the queue is exec of that command with the queue's rest. -/
def Obligations.StepRunsFront : Prop :=
  ∀ (c : Instr) (s : State), step { s with pending := c :: s.pending } = exec c s

/-- With nothing waiting a step is one REFCLK edge: package time advances by 6.4 ns × (1 + a) while the time base runs and REFCLK
is there (R469, R470); 6.4 ns are 2³² units of `Clk.tb`. That an empty queue is an edge is the model's choice (log 2). -/
def Obligations.IdleStepIsEdge : Prop :=
  ∀ (s : State), s.pending = [] →
    step s = .next (s.onChip Chip.tick) ∧
    (s.chip.clk.tbRun = true → s.chip.clk.refclkOk = true →
      (s.onChip Chip.tick).chip.clk.tb = s.chip.clk.tb + ((2 ^ 32 : Int) + s.chip.rate).toNat) ∧
    ((s.chip.clk.tbRun && s.chip.clk.refclkOk) = false → (s.onChip Chip.tick).chip.clk.tb = s.chip.clk.tb) ∧
    (s.onChip Chip.tick).root = s.root ∧ (s.onChip Chip.tick).chip.regs = s.chip.regs

/-- Every command completes: it answers a next state, and touches no other command that waits. -/
def Obligations.EveryCommandAnswers : Prop :=
  ∀ (i : Instr) (s : State), Gives i s fun t => t.pending = s.pending

/-- The state after reset: AUX_3V3 just up, held in reset, nothing waiting, no register away from its reset value, canonical memories.
That the run begins with AUX_3V3 up and PKG_RST_N asserted, and that the part is an LRX-8, are the model's choices (log 3). -/
def Obligations.ResetState : Prop :=
  State.reset.pending = [] ∧ Root.sound State.reset.root ∧ State.reset.chip.pwr.aux = true ∧ State.reset.chip.pwr.inReset = true ∧
    State.reset.chip.dies = 8 ∧ State.reset.chip.clk.trim = 64 ∧ State.reset.chip.clk.tb = 0 ∧
    (∀ d a, State.reset.chip.rd d a = regReset d a % 2 ^ 32) ∧ State.reset.chip.alive = false ∧
    (∀ i, (State.reset.chip.inst i).st = .free) ∧ (∀ i, (State.reset.chip.chan i).dsHalt = 1 ∧ (State.reset.chip.chan i).cqHalt = 1)

/-- Fuses, NVM and the recovery registers change only by the rows of the fuse block, of the recovery function, of the boot, of the
package's resets and of register writes; every other command leaves all of it (R457, R460, R491). -/
def Obligations.RootKept : Prop :=
  ∀ (i : Instr) (s t : State), i.onRootSide = false → exec i s = .next t → t.root = s.root

/-- No step clears a blown fuse: bits of arb_counter and copies of debug_lock are only ever set, the anti-rollback counter never falls,
DEBUG_LOCK stays, and every other fuse field keeps its value (R458–R460). -/
def Obligations.FusesOnlyGrow : Prop :=
  ∀ (s t : State), step s = .next t →
    (∀ k, s.root.fuses.arb.getLsbD k = true → t.root.fuses.arb.getLsbD k = true) ∧
    (∀ k, s.root.fuses.debugLock.getLsbD k = true → t.root.fuses.debugLock.getLsbD k = true) ∧
    s.root.arbCounter ≤ t.root.arbCounter ∧ (s.root.locked = true → t.root.locked = true) ∧
    t.root.fuses = { s.root.fuses with arb := t.root.fuses.arb, debugLock := t.root.fuses.debugLock }

/-- Every step keeps the NVM and the recovery buffer in canonical form. -/
def Obligations.RootStaysSound : Prop :=
  ∀ (s t : State), Root.sound s.root → step s = .next t → Root.sound t.root

/-- The anti-rollback counter and DEBUG_LOCK as R459 defines them. -/
def Obligations.FuseValues : Prop :=
  ∀ (r : Root),
    (r.fuses.arb = 0#64 → r.arbCounter = 0) ∧
    (∀ n, r.fuses.arb.getLsbD n = true → (∀ k, n < k → r.fuses.arb.getLsbD k = false) → r.arbCounter = n + 1) ∧
    (r.locked = true ↔ ∃ k, r.fuses.debugLock.getLsbD k = true)

/-- What the KEK seed reaches: only KEY_LOAD, KEK_QUERY, SAVE and RESTORE, and with the other seeds the steps of the boot. Every
other command answers the same whatever the seed is (R461). -/
def Obligations.KekSeedUnseen : Prop :=
  ∀ (i : Instr) (s t : State) (k : Nat), i.usesKek = false → exec i s = .next t →
    exec i (s.withKek k) = .next (t.withKek k)

/-- Boot step 5 goes on only with an image whose signature verifies under the root key, whose sections match their digests, and whose
security version is not below the anti-rollback counter (R453 checks 9 to 11); until then no register is written from the image. -/
def Obligations.BootAcceptsSigned : Prop :=
  ∀ (s : State) (hw : Option Nat), s.chip.boot.step = 5 →
    Gives (.bootStepComplete hw) s fun t => t.root = s.root ∧ (t.chip.boot.step = 6 →
      sm2Verify (s.root.img s.chip.boot.slotB 64 64) (s.root.img s.chip.boot.slotB 128 64) (s.root.imageDigest s.chip.boot.slotB) = true ∧
      (∀ x ∈ s.root.sectionTable s.chip.boot.slotB,
        sm3 (s.root.img s.chip.boot.slotB x.offset x.length) % 2 ^ 256 = x.digest) ∧
      s.root.arbCounter ≤ t.chip.boot.secVersion ∧ t.chip.boot.secVersion = s.root.imgBe s.chip.boot.slotB 16 4 ∧
      t.chip.regs = s.chip.regs)

/-- Register space is read and written in the order of R531: reserved offsets and absent dies read zero and ignore writes, an
unreachable die does so too and is counted in PKG_ACCESS_FAIL, a gated block does so silently, anything else is applied. -/
def Obligations.AccessOrder : Prop :=
  ∀ (s : State) (m : Master) (off attr : Nat) (v : Reg32), m ≠ .tenant → s.chip.masterOk m = true → off < 0x40000000 →
    off % 4 = 0 →
    (namedBar4 off = none →
      exec (.registerWrite m off 4 (v.setWidth 64)) s = .next s ∧
      exec (.counterReadClear m off 4 attr) s = .next (s.onChip fun c => c.emit (.regRead off 0 attr))) ∧
    (∀ d a, namedBar4 off = some (d, a) → a.blk < 20 → s.chip.dies ≤ d →
      exec (.registerWrite m off 4 (v.setWidth 64)) s = .next s ∧
      exec (.counterReadClear m off 4 attr) s = .next (s.onChip fun c => c.emit (.regRead off 0 attr))) ∧
    (∀ d a, namedBar4 off = some (d, a) → s.chip.path m d a.blk = .unreachable →
      exec (.registerWrite m off 4 (v.setWidth 64)) s = .next (s.onChip fun c => c.accessFail d) ∧
      exec (.counterReadClear m off 4 attr) s = .next (s.onChip fun c => (c.accessFail d).emit (.regRead off 0 attr)) ∧
      (s.chip.accessFail d).fld 0 R.pkgAccessFail 0 24 = satAdd 24 (s.chip.fld 0 R.pkgAccessFail 0 24) 1 ∧
      (s.chip.accessFail d).fld 0 R.pkgAccessFail 24 3 = d % 8) ∧
    (∀ d a, namedBar4 off = some (d, a) → s.chip.path m d a.blk = .gated →
      exec (.registerWrite m off 4 (v.setWidth 64)) s = .next s ∧
      exec (.counterReadClear m off 4 attr) s = .next (s.onChip fun c => c.emit (.regRead off 0 attr))) ∧
    (∀ d a, namedBar4 off = some (d, a) → s.chip.path m d a.blk = .clear → off ≠ 0x20100020 →
      exec (.registerWrite m off 4 (v.setWidth 64)) s = .next (s.onChip fun c => c.regWrite m d a v) ∧
      exec (.counterReadClear m off 4 attr) s =
        .next ((s.regRead m d a).2.onChip fun c => c.emit (.regRead off (s.regRead m d a).1 attr)))

/-- The register space of an absent die reads zero and ignores writes (R6). -/
def Obligations.AbsentDieReadsZero : Prop :=
  ∀ (s : State) (m : Master) (off attr : Nat) (v : Reg32), m ≠ .tenant → s.chip.masterOk m = true →
    off % 4 = 0 → off < 0x20000000 → s.chip.dies * 0x04000000 ≤ off →
    exec (.registerWrite m off 4 (v.setWidth 64)) s = .next s ∧
    exec (.counterReadClear m off 4 attr) s = .next (s.onChip fun c => c.emit (.regRead off 0 attr))

/-- An aligned 64-bit access is two 32-bit accesses, the lower address first; an access of any other size or alignment is ignored, reads
zero, and is counted in BAD_ACCESS of the steward's endpoint (R530). -/
def Obligations.WideAndBadAccess : Prop :=
  ∀ (s : State) (m : Master) (off size attr : Nat) (v : BitVec 64), m ≠ .tenant → s.chip.masterOk m = true →
    off < 0x40000000 →
    (off % 8 = 0 →
      exec (.registerWrite m off 8 v) s = .next (bar4Store m (off + 4) ((v >>> 32).setWidth 32) (bar4Store m off (v.setWidth 32) s)) ∧
      (let a := bar4Access m off none s
       let b := bar4Access m (off + 4) none a.2
       exec (.counterReadClear m off 8 attr) s = .next (b.2.onChip fun c => c.emit (.regRead off (a.1 + b.1 * 2 ^ 32) attr)))) ∧
    ((size ≠ 4 ∨ off % 4 ≠ 0) → (size ≠ 8 ∨ off % 8 ≠ 0) →
      exec (.registerWrite m off size v) s = .next (s.onChip fun c => c.count (c.stwPort / 4) (R.hepEvtCnt (c.stwPort % 4) 7)) ∧
      exec (.counterReadClear m off size attr) s = .next (s.onChip fun c =>
        (c.count (c.stwPort / 4) (R.hepEvtCnt (c.stwPort % 4) 7)).emit (.regRead off 0 attr)))

/-- What one write does to one bit of a register's word, by the bit's access kind and the master's level (R15, R528, R533): `has`
says which kinds the bit has, `reach` whether the master may touch it. -/
def Obligations.WriteKinds : Prop :=
  ∀ (r : RegDef) (m : Master) (disabled reach : Bool) (old new : Reg32) (i : Nat), i < 32 →
    reach = (match m with | .tether => true | .steward => !(BitVec.ofNat 32 r.sec).getLsbD i | .tenant => false) →
    let word := (applyWrite r m disabled old new).1
    let viol := (applyWrite r m disabled old new).2
    let has := fun (x : Nat) => (BitVec.ofNat 32 x).getLsbD i
    (reach = false → word.getLsbD i = old.getLsbD i) ∧
    (reach = true → has r.rw = true → has r.w1c = false → has r.w1s = false → word.getLsbD i = new.getLsbD i) ∧
    (has r.rw = false → has r.rwd = false → has r.w1c = false → has r.w1s = false → word.getLsbD i = old.getLsbD i) ∧
    (reach = true → has r.rwd = true → has r.rw = false → has r.w1c = false → has r.w1s = false →
      word.getLsbD i = (if viol then old.getLsbD i else new.getLsbD i)) ∧
    (reach = true → has r.w1c = true → has r.rw = false → has r.rwd = false → has r.w1s = false →
      word.getLsbD i = (old.getLsbD i && !new.getLsbD i)) ∧
    (reach = true → has r.w1s = true → has r.rw = false → has r.rwd = false → has r.w1c = false →
      word.getLsbD i = (old.getLsbD i || new.getLsbD i)) ∧
    (viol = true ↔ disabled = false ∧ ∃ j, j < 32 ∧ (BitVec.ofNat 32 r.rwd).getLsbD j = true ∧
      (m = .tether ∨ m = .steward ∧ (BitVec.ofNat 32 r.sec).getLsbD j = false) ∧ old.getLsbD j ≠ new.getLsbD j)

/-- What a 32-bit read of a register does: a master below a field's level sees zero there and takes nothing from it (R528), an RC read
returns the count and clears it in one step, and every other register keeps its word (R537). -/
def Obligations.ReadsOfRegisters : Prop :=
  ∀ (s : State) (m : Master) (d : Nat) (a : RegAddr) (r : RegDef), findReg a.blk a.off = some r →
    (∀ i, i < 32 → m = .steward → (BitVec.ofNat 32 r.sec).getLsbD i = true → (s.regRead m d a).1.testBit i = false) ∧
    (m = .tenant → (s.regRead m d a).1 = 0 ∧ (s.regRead m d a).2.chip.regs = s.chip.regs) ∧
    (r.rc = 0 → (s.regRead m d a).2.chip.regs = s.chip.regs) ∧
    (m ≠ .tenant → r.rc = 0xFFFFFFFF → r.sec = 0 → s.regView d a = s.chip.rd d a →
      (s.regRead m d a).1 = s.chip.rd d a ∧ (s.regRead m d a).2.chip.rd d a = 0 ∧
      ∀ e b, bar4 e b ≠ bar4 d a → (s.regRead m d a).2.chip.rd e b = s.chip.rd e b) ∧
    (s.regRead m d a).2.root = s.root ∧ (s.regRead m d a).2.chip.faults = s.chip.faults

/-- A write to an enabled block that would change an RWD bit: the RWD fields stay, the other fields of the write are applied,
write_while_enabled of the block is set, and WRITE_WHILE_ENABLED is counted and recorded with die, block, offset and value; a write
that changes no RWD bit raises nothing (R533). -/
def Obligations.WriteWhileEnabled : Prop :=
  ∀ (c : Chip) (m : Master) (d : Nat) (a : RegAddr) (r : RegDef) (v : Reg32), findReg a.blk a.off = some r → a.blk < 20 → a.off ≠ 0 →
    a.off < 0x100000 → r.sec = 0 → d < c.dies → c.dies ≤ 8 → m ≠ .tenant →
    let t := c.writeStored m d a v
    ((BitVec.ofNat 32 r.rwd &&& c.rdw d a) ≠ (BitVec.ofNat 32 r.rwd &&& v) → c.rwdOpen d a = false →
      (∀ i, i < 32 → (BitVec.ofNat 32 r.rwd).getLsbD i = true → (BitVec.ofNat 32 r.rw).getLsbD i = false →
        (BitVec.ofNat 32 r.w1c).getLsbD i = false → (BitVec.ofNat 32 r.w1s).getLsbD i = false →
        (t.rdw d a).getLsbD i = (c.rdw d a).getLsbD i) ∧
      (∀ i, i < 32 → (BitVec.ofNat 32 r.rw).getLsbD i = true → (BitVec.ofNat 32 r.w1c).getLsbD i = false →
        (BitVec.ofNat 32 r.w1s).getLsbD i = false → (t.rdw d a).getLsbD i = v.getLsbD i) ∧
      t.bit d ⟨a.blk, 0⟩ 1 = true ∧
      (t.cls d 0x32).count = satAdd 32 (c.cls d 0x32).count 1 ∧
      ∃ x, (t.cls d 0x32).last = some x ∧ x.cls = 0x32 ∧ x.sev = 0 ∧ x.die = d ∧ x.block = a.blk ∧ x.addr = a.off ∧ x.value = v.toNat) ∧
    ((BitVec.ofNat 32 r.rwd &&& c.rdw d a) = (BitVec.ofNat 32 r.rwd &&& v) ∨ c.rwdOpen d a = true →
      t.faults = c.faults ∧ t.out = c.out ∧ ∀ e b, bar4 e b ≠ bar4 d a → t.rd e b = c.rd e b)

/-- A write of a selection register that reaches its block changes its snapshot registers and, with bit 30, the counter it names: every
other register and every other counter of every kind keeps; without bit 30 every counter keeps. A codeword that CLS_CNT_SEL reads in
error is reported: its class and LOG_OVERFLOW may be raised, FLT_LOG_OVF of die 0 may count, and the pair reads as lost. Nothing else of
the part changes, no packet, instance, channel, clock or fuse (R502, R537). -/
def Obligations.SelectionFrame : Prop :=
  ∀ (s t : State) (m : Master) (d : Nat) (v : Reg32) (e : ScrubOutcome) (i : Instr),
    i ∈ [.clsCntSel m d v e, .bufOccSel m d v, .bufDropSel m d v, .schShpSel m d v, .weiCntSel m d v, .macCntSel m d v, .cipSlotSel m d v,
      .dreCtxSel m d v, .fltClassSel m d v] → (∃ b, i.selects = some b ∧ s.reaches m d b) → exec i s = .next t →
    let c := s.chip
    let q := t.chip
    let err := (∃ x y z w, i = .clsCntSel x y z w) ∧ e ≠ .clean
    let clears := fun (k : CtrKind) (n : Nat) => v.getLsbD 30 = true ∧ i.selected = some (k, n)
    t.pending = s.pending ∧ t.root = s.root ∧
    q = { c with
      regs := q.regs, fns := q.fns, faults := { q.faults with held := c.faults.held }, out := q.out
      qs := { c.qs with policers := q.qs.policers }, cp := { c.cp with keyCtr := q.cp.keyCtr }
      tb := { c.tb with ctrs := q.tb.ctrs, hits := q.tb.hits, badCtrs := q.tb.badCtrs, drops := q.tb.drops, macCtr := q.tb.macCtr } } ∧
    c.aerOnly q.fns ∧
    (∀ x, x ∉ i.snapshots → ¬ (err ∧ x = bar4 0 R.fltLogOvf) → q.word x = c.word x) ∧
    (∀ n, ¬ clears .pair n → tget (0, 0) q.tb.ctrs n = tget (0, 0) c.tb.ctrs n) ∧
    (∀ n, ¬ clears .hit n → tget 0 q.tb.hits n = tget 0 c.tb.hits n) ∧
    (∀ n, i.selected ≠ some (.pair, n) → (n ∈ q.tb.badCtrs ↔ n ∈ c.tb.badCtrs)) ∧
    (∀ n, ¬ clears .drop n → tget 0 q.tb.drops n = tget 0 c.tb.drops n) ∧
    (∀ n, ¬ clears .mac n → tget 0 q.tb.macCtr n = tget 0 c.tb.macCtr n) ∧
    (∀ n, ¬ clears .key n → tget (0, 0) q.cp.keyCtr n = tget (0, 0) c.cp.keyCtr n) ∧
    (∀ n, ¬ clears .policer n → tget Policer.none q.qs.policers n = tget Policer.none c.qs.policers n) ∧
    (∀ n, { tget Policer.none q.qs.policers n with green := 0, yellow := 0, red := 0 } =
      { tget Policer.none c.qs.policers n with green := 0, yellow := 0, red := 0 }) ∧
    (∀ n, ¬ clears .cls n → ¬ (err ∧ n ∈ [clsKey d 3, clsKey d 4, clsKey 0 0x66]) →
      tget ClassRec.none q.faults.classes n = tget ClassRec.none c.faults.classes n) ∧
    (¬ err → q.fns = c.fns ∧ q.out = c.out ∧ q.faults = { c.faults with classes := q.faults.classes })

/-- MAC Control frames are consumed: none becomes a packet, whatever its length or end, and one with an opcode other than PAUSE's and
PFC's is counted in RX_CTL_UNSUPPORTED (R233). -/
def Obligations.MacControlConsumed : Prop :=
  ∀ (s : State) (lane : Nat) (b : Bytes), etherType b = 0x8808 →
    (∀ phase x, Gives (.frameArrival lane phase b x) s fun t =>
      t.chip.dp.pkts = s.chip.dp.pkts ∧ t.chip.dp.nextPkt = s.chip.dp.nextPkt) ∧
    (∀ n r l, s.chip.rxOf lane = r :: l → r.pkt = none →
      Gives (.frameEnd lane true false n 0) s fun t => t.chip.dp.pkts = s.chip.dp.pkts) ∧
    (s.chip.portUp lane = true → beAt b 14 2 = 0x0001 ∨ beAt b 14 2 = 0x0101 →
      Gives (.pauseReceived lane b) s fun t => t.chip.mac lane 9 = wrapAdd 64 (s.chip.mac lane 9) 1 ∧ t.chip.dp.pkts = s.chip.dp.pkts) ∧
    (s.chip.portUp lane = true → beAt b 14 2 ≠ 0x0001 → beAt b 14 2 ≠ 0x0101 →
      Gives (.pauseReceived lane b) s fun t => t.chip.mac lane 11 = wrapAdd 64 (s.chip.mac lane 11) 1 ∧ t.chip.dp = s.chip.dp)

/-- How a received frame ends that is too short, too long or faulty (R226, R229, R230, R239): its MAC counter counts one; its packet is
dropped with the code of the cause and its line freed, or stomped once its first bit has left; a frame that has no packet, and so each MAC
Control and HSP frame, leaves every packet, and one that the port consumes counts as a drop with that code all the same. A reassembly error ends the outermost frame under reception, any other end the innermost. -/
def Obligations.FaultyFrames : Prop :=
  ∀ (s : State) (lane n : Nat) (fcs reasm : Bool) (unc k reason : Nat) (r : Rx) (l : List Rx), s.chip.alive = true → r.ended = false →
    (reasm = true → s.chip.rxOf lane = l ++ [r]) → (reasm = false → s.chip.rxOf lane = r :: l) →
    ((reasm = true ∧ k = 6 ∧ reason = Dr.rxAborted) ∨
     (reasm = false ∧ r.bytes.length + 4 < 64 ∧ k = 2 ∧ reason = Dr.runt) ∨
     (reasm = false ∧ 64 ≤ r.bytes.length + 4 ∧ s.chip.maxFrame lane < r.bytes.length + 4 ∧ k = 3 ∧ reason = Dr.oversize) ∨
     (reasm = false ∧ 64 ≤ r.bytes.length + 4 ∧ r.bytes.length + 4 ≤ s.chip.maxFrame lane ∧ (fcs = false ∨ unc ≠ 0) ∧ k = 4 ∧
       reason = Dr.fcsError)) →
    (r.pkt.bind s.chip.pkt = none →
      Gives (.frameEnd lane fcs reasm n unc) s fun t =>
        t.chip.mac lane k = wrapAdd 64 (s.chip.mac lane k) 1 ∧ t.chip.mac lane 0 = s.chip.mac lane 0 ∧
        t.chip.mac lane 1 = s.chip.mac lane 1 ∧ t.chip.dp.pkts = s.chip.dp.pkts ∧ t.chip.rxOf lane = l ∧
        (r.ctl = true → s.chip.gateOpen (lane / 64) 5 = true → s.chip.counted t.chip (lane / 64) (R.bufDropTotal reason))) ∧
    (∀ p, r.pkt.bind s.chip.pkt = some p → s.chip.begun p = false →
      exec (.frameEnd lane fcs reasm n unc) s = .next (s.onChip fun c =>
        let q := (((c.macCount lane 7 n).macCount lane 8 unc).setRx lane l).macCount lane k
        (q.setTx p.dst ((q.txOf p.dst).filter fun x => x.pkt != p.id)).dropPkt p reason)) ∧
    (∀ p, r.pkt.bind s.chip.pkt = some p → s.chip.begun p = true →
      exec (.frameEnd lane fcs reasm n unc) s = .next (s.onChip fun c =>
        ((((c.macCount lane 7 n).macCount lane 8 unc).setRx lane l).macCount lane k).stompFrom p (c.sentSoFar p) r.bytes.length))

/-- A packet that admission keeps on the die lies within its destination's share, its class's part of it, its on-die bound, and the
pool outside the staging area; one that is spilled lies within share, class and Spillway (R192, R193, R195). -/
def Obligations.AdmissionBounds : Prop :=
  ∀ (c : Chip) (d dest tc n : Nat) (inst : Bool),
    (c.takeIn d inst dest tc n = .onDie ∨ c.takeIn d inst dest tc n = .spilled →
      c.en d 5 = true ∧ c.poolUsed d (ofDest inst dest) + n ≤ c.share d inst dest ∧
      c.poolUsed d (ofQueue inst dest tc) + n ≤ c.share d inst dest * c.classFrac d tc / 256 ∧
      (inst = true → (c.inst dest).st ≠ .free ∧ (c.inst dest).st ≠ .resetting ∧ (c.chan dest).full = false)) ∧
    (c.takeIn d inst dest tc n = .onDie →
      c.poolUsed d (fun q => isTenant q && ofDest inst dest q) + n ≤ c.onDieCap d inst dest ∧ n ≤ c.poolFree d ∧
      c.poolUsed d (fun q => isSpill q && ofQueue inst dest tc q) = 0) ∧
    (c.takeIn d inst dest tc n = .spilled → c.mode ≠ 3 ∧ c.bit d R.bufCtrl 2 = true ∧ c.poolUsed d isSpill + n ≤ 33554432)

/-- A packet that is discarded is gone, and counted once (R217): under its code on its die, under the pair of code and source, and, at or
after admission to an instance, under the pair of code and that instance too, unless the two pairs are one; every other total and pair
stays. A frame that the part itself made has no source and counts in the total alone. With the buffer block's gate closed nothing is
counted (R478). Stated for a packet without a verdict record and without a transmit timestamp. -/
def Obligations.DropCountedOnce : Prop :=
  ∀ (c : Chip) (p : Pkt) (reason : Nat) (atQueue : Bool), p.selected = false → p.send = none → p.die < 8 → p.src < 4096 → p.dst < 4096 ∨
      p.dst = 0xFFFF → reason < 256 →
    let t := c.dropPkt p reason atQueue
    let total := R.bufDropTotal reason
    let pair := fun (inst : Bool) (i : Nat) => ((p.die * 256 + reason) * 2 + b2n inst) * 4096 + i
    let queued := atQueue = true ∧ p.dstInst = true ∧ p.dst ≠ 0xFFFF
    (∀ q, q ∈ t.dp.pkts ↔ q ∈ c.dp.pkts ∧ q.id ≠ p.id) ∧
    (∀ d k, k < 256 → d < 8 → (d ≠ p.die ∨ k ≠ reason) → t.rd d (R.bufDropTotal k) = c.rd d (R.bufDropTotal k)) ∧
    (c.gateOpen p.die 5 = true →
      t.rd p.die total = satAdd 32 (c.rd p.die total) 1 ∧
      (p.gen = false → ∀ k, tget 0 t.tb.drops k =
        if k = pair p.srcInst p.src ∨ (queued ∧ k = pair true p.dst) then satAdd 32 (tget 0 c.tb.drops k) 1 else tget 0 c.tb.drops k)) ∧
    (c.gateOpen p.die 5 = false → t.rd p.die total = c.rd p.die total) ∧
    (p.gen = true ∨ c.gateOpen p.die 5 = false → t.tb.drops = c.tb.drops)

/-- Doorbells (R334, R369, R385–R387): a value that would leave a ring lapped halts the channel with LAP_ERROR and the index keeps its
former value; while an instance is Resetting a doorbell write that its function answers is ignored; a restart of a running ring is
ignored. A write to a page whose function takes no memory request is an Unsupported Request. -/
def Obligations.DoorbellRules : Prop :=
  ∀ (s : State) (f : Nat) (v : Reg32), f ≠ stewardFn →
    let bells := [(Instr.chnDsProd f v, 0x00), (.chnCqCons f v, 0x0C), (.chnDsRestart f v, 0x10), (.chnCqRestart f v, 0x14),
      (.chnInvalidate f v, 0x18), (.chnAbort f v, 0x1C), (.dmaModArm f v, 0x48)]
    (s.chip.bellOk f = true → (s.chip.chan f).dsHalt = 0 → (s.chip.chan f).cqHalt = 0 →
      2 ^ (s.chip.chan f).dsK < diff32 v.toNat (s.chip.chan f).dsC →
      Gives (.chnDsProd f v) s fun t =>
        (t.chip.chan f).dsP = (s.chip.chan f).dsP ∧ (t.chip.chan f).dsC = (s.chip.chan f).dsC ∧
        (t.chip.chan f).dsHalt = 3 ∧ (t.chip.chan f).cqHalt = 3 ∧ (t.chip.chan f).cache = []) ∧
    (s.chip.bellOk f = true → (s.chip.chan f).dsHalt = 0 → (s.chip.chan f).cqHalt = 0 →
      2 ^ (s.chip.chan f).cqK < diff32 (s.chip.chan f).cqP v.toNat →
      Gives (.chnCqCons f v) s fun t =>
        (t.chip.chan f).cqP = (s.chip.chan f).cqP ∧ (t.chip.chan f).cqC = (s.chip.chan f).cqC ∧
        (t.chip.chan f).dsHalt = 3 ∧ (t.chip.chan f).cqHalt = 3) ∧
    (s.chip.bellRefused f = none → (s.chip.inst f).st = .resetting → ∀ x ∈ bells, exec x.1 s = .next s) ∧
    (∀ k, s.chip.bellRefused f = some k → ∀ x ∈ bells, exec x.1 s = .next (s.onChip fun c => c.unsupported k x.2)) ∧
    (s.chip.bellRefused f = none → (s.chip.chan f).dsHalt = 0 → exec (.chnDsRestart f v) s = .next s) ∧
    (s.chip.bellRefused f = none → (s.chip.chan f).cqHalt = 0 → exec (.chnCqRestart f v) s = .next s)

/-- EPOCH_STALL is one event on die 0 for an epoch: counted once, its record names die 0, the slot, the epoch and the dies whose count
was not zero, and a second report of the same epoch does nothing (R120). -/
def Obligations.EpochStallReported : Prop :=
  ∀ (s : State) (sl ms : Nat), sl < 4 → s.chip.rl.slots.length = 4 → s.chip.alive = true → (s.chip.slot sl).st = .draining →
    (s.chip.slot sl).stalled = false → s.chip.fld 0 R.epcStallLimit 0 16 ≠ 0 → s.chip.fld 0 R.epcStallLimit 0 16 < ms →
    Gives (.epochStall sl ms) s fun t =>
      (t.chip.cls 0 0x60).count = satAdd 32 (s.chip.cls 0 0x60).count 1 ∧
      (∃ x, (t.chip.cls 0 0x60).last = some x ∧ x.die = 0 ∧ x.cause = sl ∧ x.value = (s.chip.slot sl).epoch ∧
        x.unit = maskOf (s.chip.allDies.filter fun d => s.chip.inflight d sl != 0)) ∧
      (t.chip.slot sl).stalled = true ∧ (t.chip.slot sl).st = .draining ∧ t.chip.commit = s.chip.commit ∧
      ∀ ms', exec (.epochStall sl ms') t = .next t

/-- What raising a class leaves (R513, R514, R519): the count of the class on its die is one more, the first record stays once there is
one, the last is this event's; a masked class writes no log record, sends nothing and asserts nothing. No other class is touched, but
for LOG_OVERFLOW of die 0, raised when an unmasked record is lost and the last loss was before a record was written; no register changes but
FLT_LOG_OVF of die 0, and that only where a record is lost. -/
def Obligations.EventRecorded : Prop :=
  ∀ (c : Chip) (cls die : Nat) (e : Ev), cls < 256 → cls ≠ 0x66 →
    let t := c.raise cls die e
    let lost := c.masked die cls = false ∧ c.logRoom die = false
    (t.cls die cls).count = satAdd 32 (c.cls die cls).count 1 ∧
    (∃ x, (t.cls die cls).last = some x ∧ x.cls = cls ∧ x.sev = sevOf cls ∧ x.die = die ∧ x.time = c.ns ∧ x.addr = e.addr ∧
      x.unit = e.unit ∧ x.block = e.block ∧ x.cause = e.cause ∧ x.value = e.value ∧ x.masked = c.masked die cls ∧
      ((c.cls die cls).first = none → (t.cls die cls).first = some x)) ∧
    (∀ x, (c.cls die cls).first = some x → (t.cls die cls).first = some x) ∧
    (c.masked die cls = true → t.out = c.out ∧ t.faults.ugRaised = c.faults.ugRaised ∧ t.faults.prod = c.faults.prod ∧
      (t.cls die cls).sbPending = (c.cls die cls).sbPending) ∧
    (∀ d k, k < 256 → ¬ (d = die ∧ k = cls) → ¬ (d = 0 ∧ k = 0x66) → t.cls d k = c.cls d k) ∧
    (¬ lost ∨ c.faults.ovfArmed = false → t.cls 0 0x66 = c.cls 0 0x66) ∧
    (lost → c.faults.ovfArmed = true → (t.cls 0 0x66).count = satAdd 32 (c.cls 0 0x66).count 1) ∧
    (¬ lost → t.regs = c.regs) ∧ (∀ x, x ≠ bar4 0 R.fltLogOvf → t.word x = c.word x) ∧
    (lost → c.faults.ovfArmed = false → t.rd 0 R.fltLogOvf = satAdd 32 (c.rd 0 R.fltLogOvf) 1) ∧
    (∃ fns faults out, t = { c with regs := t.regs, fns := fns, faults := faults, out := out } ∧ c.aerOnly fns) ∧
    t.faults.held = c.faults.held

/-- The pins and lanes of the part: a write of release deasserts FAULT_N unless a held condition holds, the watchdog's condition holds
it (R509, R515); what every pin, lane and link shows without AUX_3V3, in reset, without the main rails, before boot has completed, after a trip and
while the part runs (R489, R496). -/
def Obligations.PinsAndLanes : Prop :=
  (∀ (s : State) (m : Master) (d : Nat) (v : Reg32), s.reaches m d 19 →
    (v.getLsbD 2 = true → s.chip.faults.held = [] → Gives (.fltPinRelease m d v) s fun t => t.chip.faultN = false) ∧
    (s.chip.faults.held ≠ [] → Gives (.fltPinRelease m d v) s fun t => t.chip.faultN = true ∧ t.chip.smbAlertN = true) ∧
    (v.getLsbD 2 = false → exec (.fltPinRelease m d v) s = .next s) ∧
    (s.chip.pwr.aux = true → s.chip.pwr.inReset = false →
      Gives .tetWatchdog s fun t => t.chip.faultN = true ∧ t.chip.smbAlertN = true ∧ .tetWatchdog ∈ t.chip.faults.held ∧
        t.chip.dp = s.chip.dp)) ∧
  (∀ (c : Chip) (lane port link : Nat),
    (c.pwr.aux = false → c.txLine lane = .undriven ∧ c.rxLine lane = .unterminated ∧ c.hostLine port link = .absent ∧
      c.faultPin = .undriven ∧ c.alertPin = .undriven ∧ c.supplyPins = (.undriven, .undriven)) ∧
    (c.pwr.aux = true → c.pwr.inReset = true →
      c.faultPin = .released ∧ c.alertPin = .released ∧ c.linkUp port link = false ∧
      (c.hostLine port link = .unterminated ∨ c.hostLine port link = .absent)) ∧
    (c.pwr.aux = true → c.pwr.mainDown = true →
      c.txLine lane = .undriven ∧ c.rxLine lane = .unterminated ∧
      (c.pwr.inReset = false → c.hasDie (port / 4) = true → c.hostLine port link = .down)) ∧
    (c.pwr.aux = true → c.hasDie (lane / 64) = true → c.pwr.psPg = true → c.pwr.mainDown = false → c.booted = false →
      c.txLine lane = .electricalIdle ∧ c.rxLine lane = .terminated) ∧
    (c.pwr.aux = true → c.hasDie (lane / 64) = true → c.pwr.psPg = true → c.pwr.mainDown = false → c.clk.stage = .tripped →
      c.txLine lane = .electricalIdle ∧ c.rxLine lane = .terminated) ∧
    (c.pwr.aux = true → c.pwr.inReset = false → ∀ h ∈ c.faults.held, c.faultPin = .asserted ∧ c.alertPin = .asserted) ∧
    (c.alive = true → c.booted = true → c.hasDie (lane / 64) = true → c.pwr.psPg = true → c.pwr.mainDown = false →
      c.en (lane / 64) 8 = true → c.bit (lane / 64) R.clkGate 8 = true → c.txLine lane = .asConfigured ∧ c.rxLine lane = .asConfigured))

/-- A gate closes only while its block is disabled: for an enabled block, and always for the epoch block, the gate stays open and
gate_refused is set; a soft reset of an enabled block is refused and sets soft_refused; gates of other dies stay (R478, R494). -/
def Obligations.RefusedGatesAndResets : Prop :=
  ∀ (s : State) (m : Master) (d b : Nat) (v : Reg32), b < 17 →
    (s.reaches m d 17 → v.getLsbD b = false → (b = 3 ∨ s.chip.blockDisabled d b = false) → s.chip.bit d R.clkGate b = true →
      Gives (.clkGate m d v) s fun t => t.chip.bit d R.clkGate b = true ∧ t.chip.bit d R.clkGateFlags 1 = true ∧
        ∀ e, e < 8 → e ≠ d → d < 8 → t.chip.rd e R.clkGate = s.chip.rd e R.clkGate) ∧
    (s.reaches m d 18 → b ≠ 3 → v.getLsbD b = true → (s.chip.blockDisabled d b = false ∨ s.chip.gateOpen d b = false) →
      Gives (.pwrSoftRst m d v) s fun t => t.chip.bit d R.pwrSoftFlags 0 = true ∧
        t.chip.bit d R.pwrSoftRst b = s.chip.bit d R.pwrSoftRst b)

/-- Which learn notices a replica takes over an entry it has: a later time, or the same time from a higher die; any other notice is
ignored (R169). -/
def Obligations.LearnNoticeOrder : Prop :=
  ∀ (s : State) (d k : Nat) (n : Notice) (c' : Chip) (e : MacE), s.chip.alive = true → s.chip.hasDie d = true →
    s.chip.takeNotice .learn d = some (n, c') → (c'.count d (R.tblEvtCnt 8)).learned d n.key = some (k, e) →
    (toSigned 32 (diff32 n.time e.time) < 0 ∨ (toSigned 32 (diff32 n.time e.time) = 0 ∧ n.src ≤ locDie e.locInst e.loc) →
      exec (.learnNotice d) s = .next { s with chip := c'.count d (R.tblEvtCnt 8) }) ∧
    (0 < toSigned 32 (diff32 n.time e.time) ∨ (toSigned 32 (diff32 n.time e.time) = 0 ∧ locDie e.locInst e.loc < n.src) →
      Gives (.learnNotice d) s fun t => ∃ e', tget none (t.chip.macTab d) k = some e' ∧
        e'.key = e.key ∧ e'.locInst = n.locInst ∧ e'.loc = n.loc ∧ e'.time = n.time)

/-- Engine state memory: a state write stores its 64 bytes at its offset on its die, an atomic add the sum's 8 bytes, and every other
byte of every die reads as before; a state read, and an atomic add of a word that cannot be read, change none (R293, R294). -/
def Obligations.EngineStateFrame : Prop :=
  ∀ (s : State) (d e x : Nat) (k : Ctx) (o : PortOp),
    (s.chip.waitsOp d e x .hb 2 k o → k.linesDone .hb = true → o.data.length = 64 →
      Gives (.hbStateWrite d e x) s fun t =>
        t.chip.stateRead d o.a 64 = o.data ∧
        ∀ j, j < d * 2 ^ 33 + o.a ∨ d * 2 ^ 33 + o.a + 64 ≤ j → tget 0#8 t.chip.dre.estate j = tget 0#8 s.chip.dre.estate j) ∧
    (∀ found, s.chip.waitsOp d e x .hb 3 k o → k.linesDone .hb = true → found ≠ .uncorrectable →
      Gives (.hbAtomicAdd d e x found) s fun t =>
        leNat (t.chip.stateRead d o.a 8) = (leNat (s.chip.stateRead d o.a 8) + leAt o.data 0 8) % 2 ^ 64 ∧
        ∀ j, j < d * 2 ^ 33 + o.a ∨ d * 2 ^ 33 + o.a + 8 ≤ j → tget 0#8 t.chip.dre.estate j = tget 0#8 s.chip.dre.estate j) ∧
    Gives (.hbAtomicAdd d e x .uncorrectable) s (fun t => t.chip.dre.estate = s.chip.dre.estate) ∧
    (∀ found, Gives (.hbStateRead d e x found) s fun t => t.chip.dre.estate = s.chip.dre.estate)

/-- A packet-buffer write changes bytes of the context's own packet from its offset, not its length, and no other packet; what lies
beyond the packet is not kept (R293). `buf` is the packet as the engine holds it, its last four bytes included. -/
def Obligations.PacketWriteFrame : Prop :=
  ∀ (s : State) (d e x : Nat) (k : Ctx) (o : PortOp) (p : Pkt), s.chip.waitsOp d e x .pb 2 k o → k.pkt.bind s.chip.pkt = some p →
    Gives (.pbWrite d e x) s fun t =>
      (∀ q ∈ s.chip.dp.pkts, q.id ≠ p.id → q ∈ t.chip.dp.pkts) ∧ t.chip.dp.pkts.length = s.chip.dp.pkts.length ∧
      ∃ q, t.chip.pkt p.id = some q ∧ q.len = p.len ∧
        (∀ j, j < p.len → j < o.a ∨ o.a + o.data.length ≤ j → byteAt q.buf j = byteAt p.buf j) ∧
        (∀ j, j < o.data.length → o.a + j < p.len → byteAt q.buf (o.a + j) = byteAt o.data j)

/-- Instances are apart: a doorbell of one function leaves every other function's channel, instance and transfers, and every packet,
rule, table and association; a MAP_SET and a MAP_CLEAR that run leave every other instance, its leaves and its state (R352, R355, R369,
R402, R413). -/
def Obligations.InstancesApart : Prop :=
  ∀ (s : State) (f g : Nat) (v : Reg32), g ≠ f → f ≠ stewardFn →
    (∀ i ∈ [Instr.chnDsProd f v, .chnCqCons f v, .chnDsRestart f v, .chnCqRestart f v, .chnInvalidate f v, .chnAbort f v, .dmaModArm f v],
      Gives i s fun t => t.chip.chan g = s.chip.chan g ∧ t.chip.inst g = s.chip.inst g ∧ t.chip.dp = s.chip.dp ∧ t.chip.cp = s.chip.cp ∧
        t.chip.rl = s.chip.rl ∧ t.chip.tb = s.chip.tb ∧
        ∀ d, ((t.chip.dma d).xfers.filter fun x => x.2.fn != f) = (s.chip.dma d).xfers.filter fun x => x.2.fn != f) ∧
    (∀ e i, s.chip.toRun stewardFn 0x54 e → leAt e.bytes 8 2 = i → i < 512 * s.chip.dies → (s.chip.inst i).st = .active →
      mapFails (s.chip.inst i).leaves (mapArgs e.bytes) false = none →
      Gives .mapClear s fun t =>
        t.chip.inst i = { s.chip.inst i with
          leaves := replaceRange (s.chip.inst i).leaves [] (mapArgs e.bytes).first (mapArgs e.bytes).stop } ∧
        ∀ j, j ≠ i → t.chip.inst j = s.chip.inst j) ∧
    (∀ e i new, s.chip.toRun stewardFn 0x53 e → leAt e.bytes 8 2 = i → i < 512 * s.chip.dies → (s.chip.inst i).st = .active →
      mapFails (s.chip.inst i).leaves (mapArgs e.bytes) true = none →
      new = replaceRange (s.chip.inst i).leaves (rangeLeaves (mapArgs e.bytes).size (mapArgs e.bytes).first (mapArgs e.bytes).count
        (mapArgs e.bytes).bus (bitN (byteAt e.bytes 11) 0) (bitN (byteAt e.bytes 11) 1)) (mapArgs e.bytes).first (mapArgs e.bytes).stop →
      tablePages new ≤ (s.chip.inst i).quota →
      Gives .mapSet s fun t => t.chip.inst i = { s.chip.inst i with leaves := new } ∧
        ∀ j, j ≠ i → t.chip.inst j = s.chip.inst j)

/-- A package reset keeps fuses but for a blow it cuts short, the NVM but for a range being written, the supplies and the die count; every
register is at its reset value, and no instance, packet, channel, key or fault is left (R491, R492). -/
def Obligations.PackageReset : Prop :=
  ∀ (s : State), s.chip.pwr.aux = true → s.chip.pwr.inReset = false → s.root.blow = none → s.root.rcvOp = none →
    Gives .pkgRstAssert s fun t =>
      t.root.fuses = s.root.fuses ∧ t.root.nvm = s.root.nvm ∧ t.root.armed = false ∧ t.chip.dies = s.chip.dies ∧
      t.chip.pwr.psPg = s.chip.pwr.psPg ∧ t.chip.pwr.psEn = s.chip.pwr.psEn ∧ t.chip.pwr.psFlt = s.chip.pwr.psFlt ∧ t.chip.pwr.aux = true ∧
      t.chip.pwr.standby = s.chip.pwr.standby ∧ t.chip.pwr.inReset = true ∧ t.chip.regs = [] ∧
      t.chip.insts = [] ∧ t.chip.chans = [] ∧ t.chip.dp.pkts = [] ∧ t.chip.cp.keySlots = [] ∧ t.chip.faults.held = [] ∧
      t.chip.faults.classes = [] ∧ t.chip.faults.waiting = [] ∧ t.chip.faultN = false ∧ t.chip.smbAlertN = false ∧ t.chip.boot.step = 0 ∧ t.chip.clk.stage = .starting

/-- Frames on a port, row by row: a MAC Control frame, an ordinary and an HSP one arrive, byte M + 1 arrives, reception ends or stops.
Conditions on the state and operands alone; the next state is that of the row's own effect (R189, R226, R230, R231, R233, R416). -/
def Obligations.ReceptionCompletes : Prop :=
  ∀ (s : State) (lane : Nat),
    (∀ phase b x, s.chip.portUp lane = true → s.chip.rxRoom lane = true → etherType b = 0x8808 →
      exec (.frameArrival lane phase b x) s =
        .next (s.onChip fun c => c.setRx lane (⟨none, b, true, false, []⟩ :: c.rxOf lane))) ∧
    (∀ phase b x, s.chip.portUp lane = true → s.chip.rxRoom lane = true → etherType b ≠ 0x8808 → s.chip.consumed lane b = false →
      s.chip.arrivalBlocks (lane / 64) = true → bitN (s.chip.macsecReg lane) 1 = false →
      s.chip.fits (lane / 64) .ingress (ceilDiv (b.length + 4) 256) = true →
      Gives (.frameArrival lane phase b x) s fun t =>
        t.chip.dp.pkts = s.chip.dp.pkts ++ [s.chip.arriving lane phase b] ∧
        t.chip.rxOf lane = ⟨some s.chip.dp.nextPkt, b, false, false, []⟩ :: s.chip.rxOf lane) ∧
    (∀ phase b x, s.chip.portUp lane = true → s.chip.rxRoom lane = true → etherType b ≠ 0x8808 → s.chip.consumed lane b = true →
      bitN (s.chip.macsecReg lane) 1 = false →
      exec (.frameArrival lane phase b x) s = .next (s.onChip fun c => c.openRx lane ⟨none, b, true, false, []⟩)) ∧
    (∀ r l, s.chip.alive = true → s.chip.rxOf lane = r :: l → r.ended = false →
      s.chip.maxFrame lane < r.bytes.length + 4 →
      exec (.oversizeDetected lane) s = .next (s.onChip fun c =>
        (c.setRx lane ({ r with ended := true } :: l)).closeRx r lane 3 Dr.oversize r.bytes.length)) ∧
    (∀ r l n m, s.chip.alive = true → s.chip.rxOf lane = r :: l → r.ended = false → 64 ≤ r.bytes.length + 4 →
      r.bytes.length + 4 ≤ s.chip.maxFrame lane → r.pkt = none → r.copies = [] →
      Gives (.frameEnd lane true false n 0) s fun t =>
        t.chip.rxOf lane = l ∧ t.chip.mac lane 0 = wrapAdd 64 (s.chip.mac lane 0) 1 ∧
        t.chip.mac lane 1 = wrapAdd 64 (s.chip.mac lane 1) (r.bytes.length + 4) ∧
        t.chip.mac lane 7 = wrapAdd 64 (s.chip.mac lane 7) n ∧
        (m ≠ 0 → m ≠ 1 → m ≠ 7 → m ≠ 8 → m < 32 → t.chip.mac lane m = s.chip.mac lane m)) ∧
    (∀ n m r, s.chip.alive = true → s.chip.rxOf lane = [r] → r.ended = false → r.pkt = none →
      exec (.rxStop lane n m) s = .next (s.onChip fun c =>
        let w := c.rd (lane / 64) (R.macPortStatus (lane % 64))
        (((c.setRx lane []).closeRx r lane 5 Dr.rxAborted n).setLink lane false (bitN w 2) (bitN w 3) (bitN w 4) Dr.linkDown).neighDown lane))

/-- Events of a port, row by row: flow control received, expired and resent, preemption verified or not, a link that stays up
(R223, R233–R237). -/
def Obligations.PortEventsComplete : Prop :=
  ∀ (s : State) (lane : Nat),
    (∀ b, s.chip.portUp lane = true → etherType b = 0x8808 → beAt b 14 2 = 0x0001 →
      s.chip.bit (lane / 64) (R.macPortFc (lane % 64)) 0 = true →
      exec (.pauseReceived lane b) s = .next (s.onChip fun c => (c.macCount lane 9).honour lane 8 (beAt b 16 2))) ∧
    (∀ b, s.chip.portUp lane = true → etherType b = 0x8808 → beAt b 14 2 = 0x0001 →
      s.chip.bit (lane / 64) (R.macPortFc (lane % 64)) 0 = false →
      exec (.pauseReceived lane b) s = .next (s.onChip fun c => (c.macCount lane 9).macCount lane 10)) ∧
    (∀ q, s.chip.alive = true → (∀ i ∈ s.chip.pausesOf lane (q.getD 8), i.from_ ≤ s.chip.now → s.chip.due i.until_ = true) →
      exec (.pauseExpiry lane q) s = .next (s.onChip fun c => c.setDp fun d => { d with
        pauses := tput [] d.pauses (lane * 16 + q.getD 8) ((c.pausesOf lane (q.getD 8)).filter fun i => decide (c.now < i.from_)) })) ∧
    (s.chip.portUp lane = true → s.chip.dp.xoff.contains (lane * 16 + 8) = true →
      s.chip.fld (lane / 64) (R.macPortFcthr (lane % 64)) 16 16 < s.chip.fcCells lane none →
      exec (.pauseResend lane none) s = .next (s.onChip fun c => c.sendOwn lane (.fc 8 0xFFFF))) ∧
    (s.chip.portUp lane = true → s.chip.bit (lane / 64) (R.macPortPmp (lane % 64)) 0 = true →
      s.chip.fld (lane / 64) (R.macPortPmp (lane % 64)) 10 2 = 1 →
      exec (.preemptVerify lane) s = .next (s.onChip fun c => c.wfld (lane / 64) (R.macPortPmp (lane % 64)) 10 2 2)) ∧
    (s.chip.alive = true → s.chip.fld (lane / 64) (R.macPortPmp (lane % 64)) 10 2 = 1 →
      exec (.verifyTimeout lane) s = .next (s.onChip fun c => c.wfld (lane / 64) (R.macPortPmp (lane % 64)) 10 2 3)) ∧
    (∀ an, s.chip.booted = true → s.chip.isPort lane = true → s.chip.on (lane / 64) 8 = true → s.chip.portUp lane = true →
      (s.chip.negotiates lane = true → an = true) →
      Gives (.linkStateChange lane true false false an) s fun t =>
        t.chip.rd (lane / 64) (R.macPortStatus (lane % 64)) =
          (s.chip.rd (lane / 64) (R.macPortStatus (lane % 64)) &&& 2) ||| (1 + 16 * b2n (s.chip.negotiates lane && an)))

/-- PAUSE_EXPIRY, PAUSE_RESEND, PREEMPT_VERIFY, VERIFY_TIMEOUT and LINK_STATE_CHANGE, each in every case of its effect, with what it
leaves: a pause in force stays and one that has run out goes (R234); XOFF is sent again above xon, and XON's test made at or below it
(R236); the verification is answered, succeeds or fails (R237); a link comes up or goes down with LINK_EVENT, and what the change does
to the port's verification, frames and neighbour (R223, R231, R232, R237, R422); until boot has completed the link stays as it is
(R457, R496). -/
def Obligations.FlowControlAndLinkComplete : Prop :=
  ∀ (s : State) (lane : Nat),
    (∀ q, s.chip.alive = true →
      Gives (.pauseExpiry lane q) s fun t =>
        (∀ u, pauseAt (s.chip.pausesOf lane (q.getD 8)) s.chip.now = some u → s.chip.due u = false →
          pauseAt (t.chip.pausesOf lane (q.getD 8)) s.chip.now = some u) ∧
        (∀ u, pauseAt (s.chip.pausesOf lane (q.getD 8)) s.chip.now = some u → s.chip.due u = true →
          pauseAt (t.chip.pausesOf lane (q.getD 8)) s.chip.now = none) ∧
        (pauseAt (s.chip.pausesOf lane (q.getD 8)) s.chip.now = none → pauseAt (t.chip.pausesOf lane (q.getD 8)) s.chip.now = none) ∧
        (∀ i, s.chip.now < i.from_ → (i ∈ t.chip.pausesOf lane (q.getD 8) ↔ i ∈ s.chip.pausesOf lane (q.getD 8))) ∧
        (∀ l r, l * 16 + r ≠ lane * 16 + q.getD 8 → t.chip.pausesOf l r = s.chip.pausesOf l r) ∧
        t.chip.dp.pkts = s.chip.dp.pkts ∧ t.chip.regs = s.chip.regs ∧ t.chip.out = s.chip.out) ∧
    (∀ q, s.chip.portUp lane = true → s.chip.dp.xoff.contains (lane * 16 + q.getD 8) = true →
      s.chip.fld (lane / 64) (R.macPortFcthr (lane % 64)) 16 16 < s.chip.fcCells lane q → tget [] s.chip.dp.own lane = [] →
      s.chip.txOf lane = [] → s.chip.pausesOf lane 8 = [] → s.chip.heldFor lane = [] →
      Gives (.pauseResend lane q) s fun t =>
        t.chip.out = s.chip.out ++ [.pause lane (q.getD 8 != 8) (if q.getD 8 = 8 then 0 else 2 ^ q.getD 8) 0xFFFF] ∧
        t.chip.mac lane 16 = wrapAdd 64 (s.chip.mac lane 16) 1 ∧ t.chip.dp.xoff = s.chip.dp.xoff ∧
        t.chip.txOf lane = [⟨s.chip.dp.nextPkt, s.chip.now, s.chip.now + s.chip.byteTime lane 64, 64, true, 0, 0⟩] ∧
        tget [] t.chip.dp.own lane = [] ∧ t.chip.dp.pkts = s.chip.dp.pkts ∧ t.chip.regs = s.chip.regs) ∧
    (∀ q, s.chip.portUp lane = true → s.chip.dp.xoff.contains (lane * 16 + q.getD 8) = true →
      s.chip.fcCells lane q ≤ s.chip.fld (lane / 64) (R.macPortFcthr (lane % 64)) 16 16 →
      exec (.pauseResend lane q) s = .next (s.onChip fun c => c.fcPort lane)) ∧
    (s.chip.portUp lane = true → s.chip.bit (lane / 64) (R.macPortPmp (lane % 64)) 0 = true →
      Gives (.preemptVerify lane) s fun t =>
        (s.chip.fld (lane / 64) (R.macPortPmp (lane % 64)) 10 2 = 1 → t.chip.preempting lane = true ∧ t.chip.out = s.chip.out) ∧
        (s.chip.fld (lane / 64) (R.macPortPmp (lane % 64)) 10 2 ≠ 1 →
          t.chip.regs = s.chip.regs ∧ t.chip.out = s.chip.out ++ [.verify lane true]) ∧
        t.chip.dp = s.chip.dp) ∧
    (s.chip.alive = true →
      Gives (.verifyTimeout lane) s fun t =>
        (s.chip.fld (lane / 64) (R.macPortPmp (lane % 64)) 10 2 = 1 →
          t.chip.fld (lane / 64) (R.macPortPmp (lane % 64)) 10 2 = 3) ∧
        (s.chip.fld (lane / 64) (R.macPortPmp (lane % 64)) 10 2 ≠ 1 → t.chip.regs = s.chip.regs) ∧
        t.chip.dp = s.chip.dp ∧ t.chip.out = s.chip.out) ∧
    (∀ up lf rf an, s.chip.booted = false → exec (.linkStateChange lane up lf rf an) s = .next (s.onChip fun c =>
      if !c.alive || c.portUp lane then c else c.neighDown lane)) ∧
    (∀ an, s.chip.booted = true → s.chip.isPort lane = true → s.chip.on (lane / 64) 8 = true → s.chip.portUp lane = false →
      (s.chip.negotiates lane = true → an = true) →
      exec (.linkStateChange lane true false false an) s = .next (s.onChip fun c =>
        let d := lane / 64
        let r := R.macPortStatus (lane % 64)
        let pm := R.macPortPmp (lane % 64)
        let c' := ((c.wr d r ((c.rd d r &&& 2) ||| (1 + 16 * b2n (c.negotiates lane && an)))).wfld d r 1 1 1).raise Cls.linkEvent d
          { block := 8, unit := lane }
        if !c.bit d pm 0 then c' else if c.bit d pm 1 then (c'.wfld d pm 10 2 1).emit (.verify lane false) else c'.wfld d pm 10 2 2)) ∧
    (∀ up lf rf an, s.chip.booted = true → s.chip.isPort lane = true → s.chip.on (lane / 64) 8 = true → s.chip.portUp lane = true →
      (up = false ∨ lf = true ∨ rf = true ∨ (s.chip.negotiates lane = true ∧ an = false)) →
      Gives (.linkStateChange lane up lf rf an) s fun t =>
        let d := lane / 64
        let c := ((((s.chip.wr d (R.macPortStatus (lane % 64)) ((s.chip.rd d (R.macPortStatus (lane % 64)) &&& 2) |||
          (4 * b2n lf + 8 * b2n rf + 16 * b2n (s.chip.negotiates lane && an)))).wfld d (R.macPortStatus (lane % 64)) 1 1 1).raise
          Cls.linkEvent d { block := 8, unit := lane }).wfld d (R.macPortPmp (lane % 64)) 10 2 0)
        (s.chip.rxOf lane = [] → s.chip.txOf lane = [] → (s.chip.neigh lane).st = .down →
          t.chip = (c.setRx lane []).cutLine lane Dr.linkDown) ∧
        (((c.abortRx lane 16380 16380).cutLine lane Dr.linkDown).portUp lane = false →
          t.chip = ((c.abortRx lane 16380 16380).cutLine lane Dr.linkDown).neighDown lane))

/-- Packets at a Headgate and on their owner die, row by row: the walk, the scan, the ingress stage, arrivals over the
Culvert, the flow lookup and its second read (R26, R75, R132, R151, R161). -/
def Obligations.PacketStagesComplete : Prop :=
  ∀ (s : State) (id : Nat) (p : Pkt), s.chip.alive = true → s.chip.pkt id = some p →
    (∀ m q, p.stage = .arrived → (p.len < 516 → p.whole = true) → s.chip.slotFor p = some q → q.arrivalBlocks p.die = true →
      s.chip.first p (fun q => q.die == p.die && q.stage == .arrived && q.srcInst == p.srcInst && q.src == p.src) = true →
      exec (.walkBegin id m) s = .next { s with chip := q.headgate p m }) ∧
    (∀ m q, p.stage = .arrived → (p.len < 516 → p.whole = true) → s.chip.slotFor p = some q → q.arrivalBlocks p.die = false →
      s.chip.first p (fun q => q.die == p.die && q.stage == .arrived && q.srcInst == p.srcInst && q.src == p.src) = true →
      exec (.walkBegin id m) s = .next { s with chip := q.dropPkt p Dr.blockDisabled }) ∧
    (∀ bad, p.stage = .walked →
      s.chip.first p (fun q => q.die == p.die && q.stage == .walked && q.srcInst == p.srcInst && q.src == p.src) = true →
      ∀ errs, exec (.ingressStage id bad errs) s = .next (s.onChip fun c => c.ingress p bad errs)) ∧
    (p.stage = .scan → s.chip.first p (fun q => q.die == p.die && q.stage == .scan) = true →
      exec (.scanResultReady id .clean) s = .next (s.onChip fun c => c.move { p with matchId := c.matchOf p } .walked)) ∧
    (∀ read bad, p.stage = .reread → s.chip.ownerBlocks p.die = true →
      exec (.flowRereadResult id read bad) s = .next (s.onChip fun c =>
        let (found, q, c) := c.flowResult p read bad
        (c.flowMerge q (c.packetHash q).dir found).fcOf q)) ∧
    (∀ g read bad, p.stage = .lookup g → s.chip.ownerBlocks p.die = true →
      exec (.flowLookupResult id read bad) s = .next (s.onChip fun c =>
        let (found, q, c) := c.flowResult p read bad
        if found.isNone && !bad && tget 0 c.tb.gens (q.die * 2 + 1) != g then (c.count q.die (R.tblEvtCnt 1)).move q .reread
        else (c.flowMerge q (c.packetHash q).dir found).fcOf q)) ∧
    (∀ e, p.stage = .crossDest e → s.chip.culUp p.die (s.chip.culPort p p.die e) = true → s.chip.en e 5 = true →
      s.chip.culTurn p e = true →
      exec (.culvertArrival id 0 .good) s = .next (s.onChip fun c =>
        ((c.passFlits p p.die (c.culPort p p.die e)).setPkt p).move ({ p with die := e }.release fun q => q == Pool.culvert) .window)) ∧
    (∀ e, p.stage = .crossOwner e → s.chip.culUp p.die (s.chip.culPort p p.die e) = true → s.chip.en e 5 = true →
      s.chip.culTurn p e = true →
      exec (.culvertArrival id 0 .good) s = .next (s.onChip fun c =>
        let q := { p with die := e }.release fun _ => true
        (((c.passFlits p p.die (c.culPort p p.die e)).setPkt p).setPkt q).ownerStart q)) ∧
    (∀ e, p.stage = .crossThrough e → s.chip.culUp p.die (s.chip.culPort p p.die e) = true → s.chip.en e 5 = true →
      s.chip.culTurn p e = true →
      exec (.culvertArrival id 0 .good) s = .next (s.onChip fun c =>
        let q := { p with die := e }.release fun q => q == Pool.through
        (((c.passFlits p p.die (c.culPort p p.die e)).setPkt p).setPkt q).holdThrough q))

/-- Queues, shapers and egress, row by row (R54, R58, R195, R197, R205, R229, R399). -/
def Obligations.EgressCompletes : Prop :=
  ∀ (s : State),
    (∀ dest tc o p drr, s.chip.on (destDie false dest) 6 = true → s.chip.isPort dest = true → s.chip.nodeOpen false dest = true →
      s.chip.pickClass false dest = some (tc, o, p, drr) → s.chip.fits (destDie false dest) (.window false dest) p.cells = true →
      exec (.grant false dest) s = .next (s.onChip fun c => c.doGrant false dest tc o p drr)) ∧
    (∀ dest tc o p drr e, s.chip.on (destDie true dest) 6 = true → s.chip.nodeOpen true dest = true →
      s.chip.pickClass true dest = some (tc, o, p, drr) → s.chip.endpointPick dest = some e →
      ((s.chip.doGrant true dest tc o p drr).pkt p.id).any (fun q => q.stage == .queued) = false →
      exec (.grant true dest) s = .next (s.onChip fun c =>
        (c.doGrant true dest tc o p drr).setQs fun q => { q with epDrr := tput ⟨0, []⟩ q.epDrr (c.inst dest).port e })) ∧
    (∀ lane x p b c₀ q c₁, s.chip.alive = true →
      (s.chip.oldest fun p => p.stage == .window && !p.dstInst && p.dst == lane) = some p →
      s.chip.cannotSend lane = none → tget [] s.chip.dp.own lane = [] →
      s.chip.due (s.chip.unpaused lane p.tc (s.chip.lineFree lane s.chip.now)) = true → s.chip.secure p lane x = (.ok b, c₀) →
      { p with bytes := b }.len ≤ s.chip.maxFrame lane →
      s.chip.fitsLine lane (s.chip.unpaused lane p.tc (s.chip.lineFree lane s.chip.now)) { p with bytes := b }.len = true →
      s.chip.finishFrame p lane (s.chip.unpaused lane p.tc (s.chip.lineFree lane s.chip.now)) x = (.ok q, c₁) →
      exec (.tenantFrameStart lane x .good) s = .next (s.onChip fun c =>
        (c₁.beginTx q lane (c.unpaused lane p.tc (c.lineFree lane c.now)) (c₁.txOf lane)).endFailed { q with stage := .sending })) ∧
    (∀ id x p d r, s.chip.alive = true → s.chip.pkt id = some p → p.stage = .held d → s.chip.due d = true →
      (∀ q ∈ s.chip.heldFor p.dst, d ≤ q.1 ∧ (q.1 = d → p.src ≤ q.2.src)) → s.chip.cannotSend p.dst = some r →
      ∀ cells, exec (.throughDeparture id x cells) s = .next (s.onChip fun c => c.dropPkt p r)) ∧
    (∀ id x p d b c₀ start line cut q c₁, s.chip.alive = true → s.chip.pkt id = some p → p.stage = .held d →
      s.chip.due d = true → (∀ q ∈ s.chip.heldFor p.dst, d ≤ q.1 ∧ (q.1 = d → p.src ≤ q.2.src)) →
      s.chip.cannotSend p.dst = none → s.chip.secure p p.dst x = (.ok b, c₀) →
      s.chip.throughStart { p with bytes := b } p.dst (max d s.chip.now) = (start, line, cut) →
      (s.chip.fld (p.dst / 64) (R.schFlumeMaxwait (p.dst % 64)) 0 16 = 0 ∨
        start - d ≤ s.chip.fld (p.dst / 64) (R.schFlumeMaxwait (p.dst % 64)) 0 16 * 65536) →
      (s.chip.due start = true ∨ line ≠ s.chip.txOf p.dst) → { p with bytes := b }.len ≤ s.chip.maxFrame p.dst →
      s.chip.finishFrame { p with added := (start - d) / 65536 } p.dst start x = (.ok q, c₁) →
      exec (.throughDeparture id x .good) s = .next (s.onChip fun _ =>
        ((if cut then c₁.macCount p.dst 17 else c₁).beginTx q p.dst start line).endFailed { q with stage := .sending })) ∧
    (∀ lane x p, s.chip.alive = true → (s.chip.txOf lane).find? (fun x => s.chip.due x.stop && (s.chip.pkt x.pkt).isSome) = some x →
      s.chip.pkt x.pkt = some p → p.whole = true → p.badAt = none → p.len ≤ s.chip.maxFrame lane → p.authFail = false →
      exec (.transmitComplete lane) s = .next (s.onChip fun c =>
        let q := ((((c.endTx lane p.id none).delPkt p.id).emit (.frame lane p.bytes false)).macCount lane 12).macCount lane 13 p.len
        (((q.verdict p.die p p.dispCode {}).sendStamp p (adjust x.start (q.tsAdj lane 12))).fcOf p).ownFlush lane)) ∧
    (∀ lane x p, s.chip.alive = true → (s.chip.txOf lane).find? (fun x => s.chip.due x.stop && (s.chip.pkt x.pkt).isSome) = some x →
      s.chip.pkt x.pkt = some p → (p.badAt.isSome = true ∨ s.chip.maxFrame lane < p.len) →
      exec (.transmitComplete lane) s = .next (s.onChip fun c =>
        (if c.maxFrame lane < p.lineLen ∧ p.srcInst = false then c.macCount p.src 3 else c).stomp p (p.bytes.take x.len))) ∧
    (∀ id p, s.chip.alive = true → s.chip.pkt id = some p → p.stage = .queued → (p.holds.any fun h => isSpill h.pool) = true →
      s.chip.en p.die 5 = true → s.chip.bit p.die R.bufCtrl 2 = true →
      let same := fun q : Pkt => q.stage == .queued && q.die == p.die && q.dstInst == p.dstInst && q.dst == p.dst && q.tc == p.tc
      s.chip.first p (fun q => same q && q.holds.any fun h => isSpill h.pool) = true →
      ((s.chip.dp.pkts.filter fun q => same q && q.readBack).map Pkt.cells).sum + p.cells ≤ 64 →
      p.cells ≤ s.chip.poolFree p.die →
      exec (.spillwayReadback id .good) s = .next (s.onChip fun c =>
        c.setPkt (({ p.release isSpill with readBack := true } : Pkt).take p.die (.tenant p.dstInst p.dst p.tc)))) ∧
    (∀ die idx t, s.chip.alive = true → (s.chip.shaper (die * 131072 + idx)).slot = some t → s.chip.due t = true →
      (s.chip.shaper (die * 131072 + idx)).change = none → s.chip.shaperBusy (die * 131072 + idx) = true →
      Gives (.shaperRefill die idx false) s fun u =>
        (u.chip.shaper (die * 131072 + idx)).credit = min ((s.chip.shaper (die * 131072 + idx)).credit +
          ((s.chip.shaper (die * 131072 + idx)).rate * (t - (s.chip.shaper (die * 131072 + idx)).last) : Nat))
          ((s.chip.shaper (die * 131072 + idx)).burst * creditByte : Nat) ∧
        (u.chip.shaper (die * 131072 + idx)).last = t) ∧
    (∀ d n r b o, s.chip.alive = true → s.chip.due (nextSlot fineSlot s.chip.commit.tsw) = true →
      s.chip.qs.qosPend = [(d, .shaper n r b o)] → 0 < r →
      Gives (.qosApply d) s fun u => u.chip.qs.qosPend = [] ∧ (u.chip.shaper n).rate = r ∧ (u.chip.shaper n).burst = b ∧
        (u.chip.shaper n).overhead = o ∧ (u.chip.shaper n).change = none) ∧
    (∀ id p, s.chip.pkt id = some p → p.stage = .window → p.dstInst = true → s.chip.on (p.dst / 512) 15 = true →
      (∀ q ∈ s.chip.dp.pkts, q.dstInst = true → q.dst = p.dst → q.granted < p.granted →
        q.stage ≠ .window ∧ q.stage ≠ .crossDest (p.dst / 512)) →
      exec (.rxDelivery id .good) s = .next (s.onChip fun c =>
        (c.move p .writing).addXfer (p.dst / 512) { Xfer.fresh p.dst 0 [] (.rx id) [] with
          total := p.bytes.length, outs := bufParts p.bufs p.bytes, bad := p.badAt }))

/-- Learning and ageing, row by row (R167, R169, R171, R174, R177, R180). -/
def Obligations.LearningCompletes : Prop :=
  ∀ (s : State) (d : Nat), s.chip.on d 4 = true → s.chip.alive = true → s.chip.hasDie d = true →
    (∀ ev q, tget [] s.chip.tb.learnQ d = ev :: q → s.chip.clk.learnHold ≤ s.chip.steady →
      exec (.learnOriginate d) s = .next (s.onChip fun c =>
        (c.setTb fun t => { t with learnQ := tput [] t.learnQ d q }).originate d ev)) ∧
    (∀ n c' c'', s.chip.takeNotice .learn d = some (n, c') → (c'.count d (R.tblEvtCnt 8)).learned d n.key = none →
      (c'.count d (R.tblEvtCnt 8)).macLearn d n.key n.locInst n.loc n.time = some c'' →
      exec (.learnNotice d) s = .next { s with chip := c'' }) ∧
    (∀ n c', s.chip.takeNotice .fail d = some (n, c') →
      exec (.learnReplicaFail d) s = .next (s.onChip fun _ =>
        let q := (c'.count d (R.tblEvtCnt 7)).raise Cls.tblLearnReplicaFull d { block := 4 }
        (q.allDies.foldl (fun c e => if e = d then c else c.notify ⟨.withdraw, e, d, n.key, false, 0, n.time⟩) q).removeTimed
          d n.key n.time)) ∧
    (∀ n c' k e, s.chip.takeNotice .withdraw d = some (n, c') → c'.learned d n.key = some (k, e) → e.time = n.time →
      exec (.learnWithdrawal d) s = .next { s with chip := c'.macErase d k e }) ∧
    (∀ n c' k e, s.chip.takeNotice .removal d = some (n, c') → c'.learned d n.key = some (k, e) → e.time = n.time →
      exec (.macRemoval d) s = .next { s with chip := c'.macErase d k e }) ∧
    (∀ n c' k e, s.chip.takeNotice .hit d = some (n, c') → c'.learned d n.key = some (k, e) →
      Gives (.hitNotice d) s fun t =>
        tget none (t.chip.macTab d) k = some { e with hit := true, remote := setBitN e.remote n.src true } ∧
        ∀ j, j ≠ k → tget none (t.chip.macTab d) j = tget none (c'.macTab d) j) ∧
    (∀ n c' k e, s.chip.takeNotice .clear d = some (n, c') → c'.learned d n.key = some (k, e) →
      Gives (.clearNotice d) s fun t =>
        tget none (t.chip.macTab d) k = some { e with hit := false } ∧
        ∀ j, j ≠ k → tget none (t.chip.macTab d) j = tget none (c'.macTab d) j) ∧
    (∀ b, s.chip.sweepDue d .mac b = true →
      exec (.sweeperVisit d .mac b) s = .next (s.onChip fun c =>
        ((((c.sweepMac d (4 * b)).sweepMac d (4 * b + 1)).sweepMac d (4 * b + 2)).sweepMac d (4 * b + 3)).sweepNext d .mac)) ∧
    (∀ b, s.chip.sweepDue d .flow b = true →
      exec (.sweeperVisit d .flow b) s = .next (s.onChip fun c =>
        ((((c.sweepFlow d (4 * b)).sweepFlow d (4 * b + 1)).sweepFlow d (4 * b + 2)).sweepFlow d (4 * b + 3)).sweepNext d .flow))

/-- Management entries of the tables, groups and associations, row by row (R144, R145, R182, R183, R267). -/
def Obligations.TableEntriesComplete : Prop :=
  ∀ (s : State) (e : Started),
    (∀ d c', s.chip.toRun stewardFn 0x45 e → flowWriteBad e.bytes = false →
      d = s.chip.ownerDie 0 (s.chip.keyHash 0 (Flow.kind (slice e.bytes 16 64)) (slice e.bytes 16 64)) →
      s.chip.reach s.chip.stwDie d = true →
      (s.chip.markRun stewardFn e.seq).flowInsert d (Flow.store (slice e.bytes 16 64) true) = .inr (some c') →
      exec (.flowWrite .clean) s = .next { s with chip := c'.endWith stewardFn e St.ok 0 0 (toLE 1 d) }) ∧
    (∀ d c', s.chip.toRun stewardFn 0x46 e → kindOk (byteAt e.bytes 8) = true →
      d = s.chip.ownerDie 0 (s.chip.keyHash 0 (byteAt e.bytes 8) (slice e.bytes 9 40)) → s.chip.reach s.chip.stwDie d = true →
      (s.chip.markRun stewardFn e.seq).flowDelete d (flowKeyBytes (byteAt e.bytes 8) (slice e.bytes 9 40)) = some c' →
      exec (.flowDelete .clean) s = .next { s with chip := c'.endWith stewardFn e St.ok }) ∧
    (s.chip.toRun stewardFn 0x47 e → byteAt e.bytes 8 = 4 →
      exec .macFlush s = .next (s.onChip fun c =>
        let r := (c.markRun stewardFn e.seq).macFlushAll (fun _ => true) true
        r.2.endWith stewardFn e St.ok 0 0 (toLE 4 r.1))) ∧
    (s.chip.toRun stewardFn 0x44 e → (s.chip.markRun stewardFn e.seq).groupFails e.bytes = none →
      exec .groupUpdate s = .next (s.onChip fun c =>
        (c.markRun stewardFn e.seq).setRl fun r => { r with groupNew := some (groupKey e.bytes, groupMembers e.bytes) })) ∧
    (∀ k l q, s.chip.alive = true → s.chip.rl.groupNew = some (k, l) → s.chip.tellDies = some q →
      exec .groupUpdateConfirmed s =
        .next { s with chip := (q.setRl fun r => { r with groups := tput [] r.groups k l, groupNew := none }).endStw 0x44 St.ok 0 [] }) ∧
    (∀ a x, s.chip.toRun stewardFn 0x48 e → a = leAt e.bytes 8 4 → x = Assoc.ofBytes (slice e.bytes 16 128) → a < 65536 * s.chip.dies →
      1 ≤ x.framing → x.framing ≤ 4 → (x.framing = 3 → x.port < 64 * s.chip.dies) → x.flags < 32 → x.an ≤ 3 →
      (x.windowLog2 = 0 ∨ 5 ≤ x.windowLog2 ∧ x.windowLog2 ≤ 9) → x.suite ∈ framingSuites x.framing →
      exec .assocWrite s = .next (s.onChip fun c =>
        (((c.markRun stewardFn e.seq).setCp fun p => { p with assocs := tput none (p.assocs.map fun y =>
          if y.1 / 65536 = a / 65536 then (y.1, y.2.map fun z => z.displaced x) else y) a (some x) }).softCheck a x).endWith stewardFn e St.ok))

/-- Commits and epochs, row by row (R104–R121, R428, R429). -/
def Obligations.EpochRowsComplete : Prop :=
  ∀ (s : State), s.chip.alive = true →
    (∀ e sl, s.chip.toRun stewardFn 0x40 e → s.chip.commit.phase = .closed → bitN (byteAt e.bytes 12) 0 = false →
      ((List.range 4).find? fun i => (s.chip.slot i).st == .free) = some sl →
      exec .commitOpen s = .next (s.onChip fun c =>
        (((((c.setSlot sl ⟨(c.curEpoch + 1) % 65536, .open_, false⟩).setRl
          fun r => { r with epcPkts := tdrop (fun k => k % 4 == sl) r.epcPkts }).setCommit
          fun m => { Commit.none with phase := .opened, slot := sl, tag := leAt e.bytes 8 4, tsw := m.tsw }).markRun stewardFn e.seq).endWith
          stewardFn e St.ok 0 0 (toLE 2 ((c.curEpoch + 1) % 65536))))) ∧
    (∀ e c', s.chip.toRun stewardFn 0x43 e → s.chip.commit.phase = .opened → s.chip.commit.fail = none →
      (s.chip.markRun stewardFn e.seq).chgFails e.bytes = none → (s.chip.markRun stewardFn e.seq).stage e.bytes = some c' →
      exec .ruleChange s = .next { s with chip :=
        (c'.setCommit fun m => { m with count := s.chip.commit.count + 1 }).endEntry stewardFn e.seq [] }) ∧
    (∀ e, s.chip.toRun stewardFn 0x41 e → s.chip.commit.phase = .opened → s.chip.commit.fail = none →
      leAt e.bytes 8 4 = s.chip.commit.count → s.chip.someUnreachable = false →
      (s.chip.sp.barrier.early = none ∨ s.chip.commit.barrier = false) →
      exec .commitClose s = .next (s.onChip fun c => (c.markRun stewardFn e.seq).setCommit fun m => { m with phase := .closing })) ∧
    (∀ e, s.chip.toRun stewardFn 0x42 e → s.chip.commit.phase = .opened →
      exec .commitAbort s = .next (s.onChip fun c =>
        (c.markRun stewardFn e.seq).setCommit fun m => { m with phase := .undoing, ends := some St.aborted })) ∧
    (∀ q, s.chip.commit.phase = .closing → s.chip.tellDies = some q →
      exec .changesConfirmed s = .next { s with chip := (if s.chip.commit.barrier then
          (q.setCommit fun m => { m with phase := .barrier }).setBarrier fun b => { b with ready := some q.steady }
        else q.setCommit fun m => { m with phase := .switching, tsw := q.now + 1000 * 65536 }).waveProgress }) ∧
    (s.chip.commit.phase = .closing →
      exec .dieConfirmTimeout s = .next (s.onChip fun c => c.rejectCommit (St.dieUnreachable, 0xFFFFFFFF))) ∧
    (s.chip.commit.phase = .undoing → s.chip.commit.ends = some St.aborted →
      exec .commitUndoDone s = .next (s.onChip fun c =>
        let q := (((c.remark fun k => k.undo c.commit.slot).setSlot c.commit.slot ⟨0, .free, false⟩).setQs fun q => { q with qosStaged := [] })
        let q := if c.commit.barrier then
          q.setBarrier fun b => { b with using_ := none, early := none, ready := none, stalled := false } else q
        ((q.setCommit fun k => { Commit.none with tsw := k.tsw }).endStw 0x42 St.aborted c.commit.tag []).waveProgress)) ∧
    (s.chip.commit.phase = .switching → s.chip.due s.chip.commit.tsw = true → s.chip.qs.qosStaged = [] →
      exec .epochSwitch s = .next (s.onChip fun c =>
        let q := (((c.setSlot c.curSlot { c.slot c.curSlot with st := .draining }).setSlot c.commit.slot
          ⟨(c.slot c.commit.slot).epoch, .current, false⟩).setQs fun q => { q with qosStaged := [] })
        let q := if c.commit.barrier then
          q.setBarrier fun b => { b with using_ := none, early := none, ready := none, stalled := false } else q
        (q.setCommit fun k => { Commit.none with tsw := k.tsw }).endStw 0x41 St.ok c.commit.tag
          (toLE 2 (c.slot c.commit.slot).epoch ++ [0, 0] ++ toLE 8 (c.commit.tsw / 65536)))) ∧
    (∀ sl, (s.chip.slotsIn .draining).head? = some sl → (∀ d ∈ s.chip.allDies, s.chip.inflight d sl = 0) →
      exec .epochRetire s = .next (s.onChip fun c =>
        (c.setSlot sl { c.slot sl with st := .sweeping }).placeRec stewardFn
          (mkRec 0x05 St.ok 0 0 0 0 0 0 (toLE 2 (c.slot sl).epoch ++ [0, 0] ++
            toLE 8 ((c.allDies.map fun d => tget 0 c.rl.epcPkts (d * 4 + sl)).sum))))) ∧
    (∀ sl, (s.chip.slotsIn .sweeping).head? = some sl → sl < 4 → s.chip.rl.slots.length = 4 →
      Gives .retirementSweepDone s fun t => (t.chip.slot sl).st = .free) ∧
    (∀ sl ms, (s.chip.slot sl).st = .draining → (s.chip.slot sl).stalled = false → s.chip.fld 0 R.epcStallLimit 0 16 ≠ 0 →
      s.chip.fld 0 R.epcStallLimit 0 16 < ms →
      exec (.epochStall sl ms) s = .next (s.onChip fun c =>
        (c.setSlot sl { c.slot sl with stalled := true }).raise Cls.epochStall 0
          { block := 3, unit := maskOf (c.allDies.filter fun d => c.inflight d sl != 0), cause := sl, value := (c.slot sl).epoch }))

/-- Associations, keys, cipher jobs and the units of the cipher pool, row by row (R248–R251, R260–R268, R274, R275). -/
def Obligations.CipherRowsComplete : Prop :=
  ∀ (s : State) (f : Nat) (e : Started) (die : Nat) (u : CUnit),
    (s.chip.toRun stewardFn 0x48 e →
      (let a := leAt e.bytes 8 4
       let x := Assoc.ofBytes (slice e.bytes 16 128)
       a < 65536 * s.chip.dies → 1 ≤ x.framing → x.framing ≤ 4 → (x.framing = 3 → x.port < 64 * s.chip.dies) → x.flags < 32 → x.an ≤ 3 →
       x.windowLog2 = 0 → x.softLimit = 0 → x.suite ∈ framingSuites x.framing →
       exec .assocWrite s = .next (s.onChip fun c =>
         ((c.markRun stewardFn e.seq).setCp fun p => { p with assocs := tput none (p.assocs.map fun y =>
           if y.1 / 65536 = a / 65536 then (y.1, y.2.map fun z => z.displaced x) else y) a (some x) }).endWith stewardFn e St.ok))) ∧
    (s.chip.toRun f 0x06 e → (s.chip.markRun f e.seq).slotAllowed f (leAt e.bytes 8 4) = true →
      exec (.keyLoad f) s = .next (s.onChip fun c =>
        let q := c.markRun f e.seq
        match q.unwrap s.root.fuses.kekSeed f (slice e.bytes 16 184) with
        | .key k => q.setKeySlot (leAt e.bytes 8 4) (some k)
        | .invalid => (q.count (q.fnDie f) (R.cipEvtCnt 1)).endWith f e St.keyInvalid
        | .failed => ((q.count (q.fnDie f) (R.cipEvtCnt 0)).raise Cls.cipUnwrapFail (q.fnDie f) { block := 9, unit := fnUnit f }).endWith f e
            St.unwrapFail)) ∧
    (s.chip.toRun f 0x07 e → (s.chip.markRun f e.seq).slotAllowed f (leAt e.bytes 8 4) = true →
      exec (.keyClear f) s = .next (s.onChip fun c => (c.markRun f e.seq).setKeySlot (leAt e.bytes 8 4) none)) ∧
    (s.chip.alive = true → ((s.chip.chan f).started.find? fun e =>
        e.run && e.recs.isNone && [0x06, 0x07].contains (byteAt e.bytes 1) && s.chip.slotSettled (leAt e.bytes 8 4)) = some e →
      exec (.keySlotSettled f) s = .next (s.onChip fun c => c.endWith f e St.ok)) ∧
    (∀ head, s.chip.toRun f 0x08 e →
      head = toBE 2 f ++ toBE 2 0 ++ toBE 4 (s.chip.keygen f) ++ slice (sm2Public (s.chip.kekScalar s.root.fuses.kekSeed f)) 0 64 →
      exec (.kekQuery f) s = .next (s.onChip fun c =>
        (c.markRun f e.seq).addXfer (c.fnDie f) { Xfer.fresh f e.seq e.bytes (.output 0 []) [] with
          total := 136, issued := 136, closed := true
          outs := [(leAt e.bytes 8 8, head ++ slice (sm2Sign (scalarOf s.root.fuses.identitySeed labelId) head) 0 64)] })) ∧
    (s.chip.toRun f 0x05 e → s.chip.en (s.chip.fnDie f) 9 = true → jobMode e.bytes < 6 → jobLengthBad e.bytes = false →
      0 < (Xfer.fresh f e.seq e.bytes .job (jobSegs e.bytes)).total → 0 < jobLen e.bytes →
      exec (.cipherJob f) s = .next (s.onChip fun c =>
        (c.markRun f e.seq).addXfer (c.fnDie f) (Xfer.fresh f e.seq e.bytes .job (jobSegs e.bytes)))) ∧
    (∀ t f i part j key, s.chip.nextUnit die = some (u, t) → s.chip.on die 9 = true → u.kind = .job f i part →
      ((tget [] s.chip.cp.units die).filter CUnit.running).length < s.chip.fld die R.cipCores 20 10 →
      (((tget [] s.chip.cp.units die).filter CUnit.running).map CUnit.entries).sum + s.chip.unitEntries u ≤ 8192 →
      (s.chip.cp.jobs.find? fun j => j.fn == f && j.index == i) = some j → s.chip.jobKey f j.ent = some key →
      exec (.cipherUnitDispatch die u.id .clean .good) s = .next (s.onChip fun c =>
        (c.setCp fun p => { p with turns := tput (0, 0) p.turns die t }).setUnit die
          { u with running := true, assoc := 0, slot := u.slot, key := some key, seq := 0 })) ∧
    (∀ f i part k, (tget [] s.chip.cp.units die).find? (fun v => v.id == u.id) = some u → s.chip.alive = true → u.running = true →
      (∀ v ∈ (tget [] s.chip.cp.units die).takeWhile (fun v => v.id != u.id), v.running = true → sameOrder u v = false) →
      u.key = some k → u.kind = .job f i part →
      exec (.cipherUnitComplete die u.id) s = .next (s.onChip fun c => c.jobUnitDone die u f i part k)) ∧
    (∀ id k p x, (tget [] s.chip.cp.units die).find? (fun v => v.id == u.id) = some u → s.chip.alive = true → u.running = true →
      (∀ v ∈ (tget [] s.chip.cp.units die).takeWhile (fun v => v.id != u.id), v.running = true → sameOrder u v = false) →
      u.key = some k → u.kind = .esp id → s.chip.pkt id = some p → tget none s.chip.cp.assocs u.assoc = some x →
      exec (.cipherUnitComplete die u.id) s = .next (s.onChip fun c => (c.delUnit die u.id).espDone die u p x k))

/-- Contexts: starting on a packet or a storage command, issuing a word, results, pauses, a kill, an idle block (R279, R282,
R286, R297, R301, R302). -/
def Obligations.ContextRowsComplete : Prop :=
  ∀ (s : State) (d e x : Nat),
    (∀ p, s.chip.on d 11 = true → e < 64 → (s.chip.bit d R.dreCtrl 2 && e % 2 == 1) = false → s.chip.freeCtx d e false = some x →
      (s.chip.oldest fun p => p.die == d && (match p.stage with | .engineQ q => s.chip.enginePair d q == e | _ => false)) = some p →
      exec (.engineContextStart d e none) s = .next (s.onChip fun c =>
        (c.setPkt { (p.release fun _ => true).sealed with stage := .context, holdsEpoch := false }).beginCtx d e x p.program
          (Ctx.fresh false (some p.id) 0 0 p.epoch p.slot 0 (c.packetRegs p)))) ∧
    (∀ f j q, s.chip.on d 11 = true → e < 64 → (s.chip.bit d R.dreCtrl 2 && e % 2 == 1) = false → s.chip.freeCtx d e true = some x →
      s.chip.waitingJob d e f = some j → s.chip.dataWaits (s.chip.fnDie f) d (s.chip.jobHash f j.bytes) = false →
      s.chip.crossData (s.chip.fnDie f) d (s.chip.jobHash f j.bytes) j.bytes.length = some q →
      exec (.engineContextStart d e (some f)) s = .next (s.onChip fun c =>
        q.beginCtx d e x (byteAt j.bytes 8) (Ctx.fresh true none f j.seq c.curEpoch c.curSlot 0 (jobRegs f c.curEpoch j.bytes)))) ∧
    (∀ k pc stack, s.chip.on d 11 = true → s.chip.ctx d e x = some k → s.chip.turnOf d e = some x →
      Mw.illegal (tget 0 s.chip.dre.cstore k.pc) k.job = false →
      k.next (s.chip.bit d R.dreCtrl 2) (tget 0 s.chip.dre.cstore k.pc) = some (pc, stack) → pc < s.chip.loadedWords d →
      s.chip.outOfRange k (tget 0 s.chip.dre.cstore k.pc) = false →
      exec (.microwordIssue d e x .clean false) s = .next (s.onChip fun c =>
        (c.passTurn d e x).issueWord d e x k (tget 0 c.dre.cstore k.pc) pc stack)) ∧
    (∀ k port o st w, s.chip.alive = true → s.chip.ctx d e x = some k → k.st = .ready → k.op port = some o → o.result = some (st, w) →
      k.ops.filter (fun q => q.port != port) ≠ [] →
      exec (.portOpComplete d e x port) s = .next (s.onChip fun c => c.setCtx d e x (some
        (let k' := w.foldl (fun k v => k.setG v.1 v.2) { k with ops := k.ops.filter fun q => q.port != port }
         match statusSlot port with
         | some i => { k' with status := k'.status.set i st }
         | none => k')))) ∧
    (∀ k port o r, s.chip.alive = true → s.chip.ctx d e x = some k → k.st = .draining → k.op port = some o → o.result = some r →
      k.ops.filter (fun q => q.port != port) = [] →
      exec (.portOpComplete d e x port) s = .next (s.onChip fun c => c.setCtx d e x none)) ∧
    (∀ k t, s.chip.alive = true → s.chip.ctx d e x = some k → k.st = .paused t → s.chip.due t = true →
      exec (.enginePauseEnd d e x) s = .next (s.onChip fun c => c.setCtx d e x (some { k with st := .ready }))) ∧
    (∀ m v k, s.reaches m d 11 → bitsN v.toNat 0 6 = e → bitsN v.toNat 6 7 = x →
      v.getLsbD 31 = true → s.chip.ctx d e x = some k → k.st ≠ .draining →
      exec (.dreCtxKill m d v) s = .next (s.onChip fun c => c.ctxFault d e x Cause.killed)) ∧
    (s.chip.alive = true → s.chip.hasDie d = true → s.chip.en d 11 = false → s.chip.ctxsOf d = [] →
      exec (.engineBlockIdle d) s = .next (s.onChip fun c => c.wfld d R.dreStatus 0 1 1))

/-- Port operations of the tables, of engine state and of flows (R123, R157, R161, R162, R293, R294). -/
def Obligations.TablePortsComplete : Prop :=
  ∀ (s : State) (d e x : Nat) (k : Ctx) (o : PortOp),
    (∀ a, s.chip.waitsOp d e x .ts 1 k o → s.chip.action d o.a k.slot = some a →
      exec (.tsReadAction d e x .clean) s = .next (s.onChip fun c =>
        c.opDone d e x .ts 0x00 ((List.range 4).map fun i => (o.dst + i, bitsN a (64 * i) 64)))) ∧
    (s.chip.waitsOp d e x .ts 1 k o →
      exec (.tsReadAction d e x .uncorrectable) s = .next (s.onChip fun c =>
        let q := c.raise Cls.sramUncorrectable d { block := 11, addr := o.a }
        (if (tget none c.rl.acts o.a).isSome then q.spoilObj (.action d o.a) else q).opDone d e x .ts 0x06 (fourWrites o.dst 0))) ∧
    (s.chip.waitsOp d e x .ts 2 k o → o.a < 2 ^ 20 →
      exec (.tsCounterAdd d e x) s = .next (s.onChip fun c => (c.ctrAdd (d * 2 ^ 20 + o.a) o.b).opDone d e x .ts 0x00 [])) ∧
    (∀ i m, s.chip.waitsOp d e x .ts 3 k o → s.chip.staticMac d (o.a % 2 ^ 60) k.slot = none →
      s.chip.learned d (o.a % 2 ^ 60) = some (i, m) →
      exec (.tsMacLookup d e x .clean false) s = .next (s.onChip fun c =>
        (c.macHit d (o.a % 2 ^ 60)).opDone d e x .ts 0x00 [(o.dst, m.loc + b2n m.locInst * 2 ^ 12)])) ∧
    (s.chip.waitsOp d e x .hb 1 k o → k.linesDone .hb = true →
      exec (.hbStateRead d e x .clean) s = .next (s.onChip fun c =>
        c.opDone d e x .hb 0x00 (groupWrites o.dst (c.stateRead d o.a 64)))) ∧
    (s.chip.waitsOp d e x .hb 1 k o → k.linesDone .hb = true →
      exec (.hbStateRead d e x .uncorrectable) s = .next (s.onChip fun c =>
        (c.raise Cls.hbmUncorrectable d { block := 11, addr := o.a }).opDone d e x .hb 0x06 (groupWrites o.dst (List.replicate 64 0)))) ∧
    (s.chip.waitsOp d e x .hb 2 k o → k.linesDone .hb = true →
      exec (.hbStateWrite d e x) s = .next (s.onChip fun c => (c.stateWrite d o.a o.data).opDone d e x .hb 0x00 [])) ∧
    (s.chip.waitsOp d e x .hb 3 k o → k.linesDone .hb = true →
      exec (.hbAtomicAdd d e x .clean) s = .next (s.onChip fun c =>
        (c.stateWrite d o.a (toLE 8 (leNat (c.stateRead d o.a 8) + leAt o.data 0 8))).opDone d e x .hb 0x00
          [(8 * o.dst, leNat (c.stateRead d o.a 8))])) ∧
    (∀ b c', s.chip.waitsOp d e x .hb 4 k o → s.chip.flowOwner d o.data = d → s.chip.en d 4 = true →
      s.chip.flowLookup d (Flow.keyBytes o.data) .clean = (some b, c') →
      exec (.hbFlowLookup d e x .clean false) s = .next { s with chip := c'.opDone d e x .hb 0x00 (groupWrites o.dst b) }) ∧
    (s.chip.waitsOp d e x .hb 4 k o → s.chip.flowOwner d o.data = d → s.chip.en d 4 = true →
      s.chip.flowCached d (Flow.keyBytes o.data) = false →
      ∀ bad, exec (.hbFlowLookup d e x .uncorrectable bad) s = .next (s.onChip fun c =>
        (c.flowLookup d (Flow.keyBytes o.data) .uncorrectable).2.opDone d e x .hb 0x06 (groupWrites o.dst (List.replicate 64 0)))) ∧
    (∀ c', s.chip.waitsOp d e x .hb 5 k o → s.chip.flowOwner d o.data = d → s.chip.en d 4 = true →
      s.chip.flowInsert d (Flow.store o.data false) = .inr (some c') →
      exec (.hbFlowInsert d e x .clean) s = .next { s with chip := c'.opDone d e x .hb 0x00 [] }) ∧
    (∀ c', s.chip.waitsOp d e x .hb 6 k o → s.chip.flowOwner d o.data = d → s.chip.flowDelete d (Flow.keyBytes o.data) = some c' →
      exec (.hbFlowDelete d e x .clean) s = .next { s with chip := c'.opDone d e x .hb 0x00 [] }) ∧
    (∀ c', s.chip.waitsOp d e x .hb 7 k o → s.chip.flowOwner d o.data = d → s.chip.flowRewrite d (Flow.store o.data false) = some c' →
      exec (.hbFlowRewrite d e x .clean) s = .next { s with chip := c'.opDone d e x .hb 0x00 [] })

/-- Packet-buffer, hash, cipher and DMA operations (R293–R296). -/
def Obligations.PacketPortsComplete : Prop :=
  ∀ (s : State) (d e x : Nat) (k : Ctx) (o : PortOp) (p : Pkt),
    (s.chip.waitsOp d e x .pb 1 k o → k.pkt.bind s.chip.pkt = some p →
      exec (.pbRead d e x .good) s = .next (s.onChip fun c => c.opDone d e x .pb 0x00 (groupWrites o.dst (p.read o.a 64)))) ∧
    (s.chip.waitsOp d e x .pb 2 k o → k.pkt.bind s.chip.pkt = some p →
      exec (.pbWrite d e x) s = .next (s.onChip fun c => (c.setPkt (p.write o.a o.data)).opDone d e x .pb 0x00 [])) ∧
    (s.chip.waitsOp d e x .pb 3 k o → k.pkt.bind s.chip.pkt = some p →
      exec (.pbSetLength d e x) s = .next (s.onChip fun c => (c.setPkt (p.setBuf (slice p.buf 0 o.a))).opDone d e x .pb 0x00 [])) ∧
    (s.chip.waitsOp d e x .pb 4 k o → k.pkt.bind s.chip.pkt = some p →
      exec (.pbPrepend d e x) s = .next (s.onChip fun c =>
        ({ (c.setPkt (p.setBuf (c.freeBytes o.b ++ p.buf))) with free := c.free + o.b }).opDone d e x .pb 0x00 [])) ∧
    (s.chip.waitsOp d e x .pb 5 k o → k.pkt.bind s.chip.pkt = some p →
      exec (.pbRemove d e x) s = .next (s.onChip fun c =>
        (c.setPkt (p.setBuf (p.buf.drop o.b))).opDone d e x .pb 0x00 [])) ∧
    (s.chip.waitsOp d e x .pb 6 k o → k.job = true → k.pkt = none → s.chip.fits d .engine 1 = true →
      exec (.pbAllocate d e x) s = .next (s.onChip fun c =>
        ((c.addPkt { Pkt.blank with
          die := d, inDie := d, stage := .context, srcInst := true, src := k.fn, tIn := c.now, epoch := k.epoch, slot := k.slot, owner := d
          tail := [] }).setCtx d e x (some { k with pkt := some c.dp.nextPkt })).opDone d e x .pb 0x00 [])) ∧
    (s.chip.waitsOp d e x .hash 1 k o →
      exec (.hashH1H2 d e x) s = .next (s.onChip fun c => c.opDone d e x .hash 0x00
        [(o.dst, (crc32c (Flow.keyBytes o.data)).toNat + (crc32 (Flow.keyBytes o.data)).toNat * 2 ^ 32)])) ∧
    (s.chip.waitsOp d e x .hash 2 k o →
      exec (.hashSymmetric d e x) s = .next (s.onChip fun c => c.opDone d e x .hash 0x00
        [(o.dst, c.keyHash d (Flow.kind o.data) o.data + c.ownerDie d (c.keyHash d (Flow.kind o.data) o.data) * 2 ^ 32)])) ∧
    (s.chip.waitsOp d e x .hash 3 k o →
      exec (.hashCrc d e x) s = .next (s.onChip fun c => c.opDone d e x .hash 0x00 [(o.dst, (crc32c o.data).toNat)])) ∧
    (s.chip.waitsOp d e x .ci 1 k o → k.pbDone .ci = true → k.pkt.bind s.chip.pkt = some p → bitN o.a 16 = false →
      5 ≤ bitsN o.b 16 15 → bitsN o.b 16 15 ≤ 16389 → o.b % 2 ^ 14 + bitsN o.b 16 15 ≤ p.len → p.len + 17 ≤ 16384 →
      exec (.cipherTlsRecord d e x) s = .next (s.onChip fun c => (c.opStarted d e x .ci).setCp fun q =>
        { q with nextUnit := q.nextUnit + 1, units := tmod [] q.units d fun l => l ++
          [⟨c.cp.nextUnit, .tls e x, false, d * 65536 + o.a % 65536, 0, none, 0, poolEntries (bitsN o.b 16 15 + 17)⟩] })) ∧
    (s.chip.waitsOp d e x .ci 2 k o → k.pbDone .ci = true → k.pkt.bind s.chip.pkt = some p →
      16 ≤ bitsN o.b 16 15 → bitsN o.b 16 15 ≤ 16384 → o.b % 2 ^ 14 + bitsN o.b 16 15 ≤ p.len → p.len ≤ 16384 →
      exec (.cipherXtsUnit d e x) s = .next (s.onChip fun c => (c.opStarted d e x .ci).setCp fun q =>
        { q with nextUnit := q.nextUnit + 1, units := tmod [] q.units d fun l => l ++
          [⟨c.cp.nextUnit, .xts e x, false, 0, d * 65536 + o.a % 65536, none, 0, poolEntries (bitsN o.b 16 15)⟩] })) ∧
    (s.chip.waitsOp d e x .dma 1 k o → k.pbDone .dma = true → k.linesDone .dma = true → bitN o.a 12 = true → 0 < bitsN o.a 32 25 →
      bitsN o.a 32 25 ≤ 16777216 → (s.chip.inst (o.a % 2 ^ 12)).st = .active → s.chip.fnMasters (o.a % 2 ^ 12) = true →
      o.a % 2 ^ 12 / 512 = d →
      exec (.dmaPost d e x) s = .next (s.onChip fun c => (c.opStarted d e x .dma).addXfer d
        (Xfer.fresh (o.a % 2 ^ 12) 0 [] (.post d e x false) [(o.b % 2 ^ 48, bitsN o.a 32 25)]))) ∧
    (∀ q, s.chip.waitsOp d e x .dma 1 k o → k.pbDone .dma = true → k.linesDone .dma = true → bitN o.a 12 = false → 0 < bitsN o.a 32 25 →
      bitsN o.a 32 25 ≤ 16777216 → (s.chip.inst (o.a % 2 ^ 12)).st = .active → s.chip.fnMasters (o.a % 2 ^ 12) = true →
      bitN o.a 13 = true → s.chip.dataWaits d (o.a % 2 ^ 12 / 512) (s.chip.ctxHash k) = false → s.chip.crossData d (o.a % 2 ^ 12 / 512) (s.chip.ctxHash k) (bitsN o.a 32 25) = some q →
      exec (.dmaPost d e x) s = .next (s.onChip fun c => (q.opStarted d e x .dma).addXfer (o.a % 2 ^ 12 / 512)
        { Xfer.fresh (o.a % 2 ^ 12) 0 [] (.post d e x true) [] with outs := [(o.b % 2 ^ 48, c.stateRead d o.c (bitsN o.a 32 25))] }))

/-- End actions and re-injection (R41, R299). -/
def Obligations.EndActionsComplete : Prop :=
  ∀ (s : State) (d e x imm : Nat) (args : List Nat) (k : Ctx) (p : Pkt),
    (s.chip.ends d e x 1 imm args k → k.pkt.bind s.chip.pkt = some p →
      exec (.reinject d e x) s = .next (s.onChip fun c =>
        (c.move { p with start := imm % 256, epoch := k.epoch, slot := k.slot } .reinject).setCtx d e x (some { k with st := .waitSlot }))) ∧
    (∀ q g k' m, (s.chip.oldest fun p => p.die == d && p.stage == .reinject) = some p → s.chip.reinjectGate d = some g →
      s.chip.alive = true → s.chip.arrivalBlocks d = true →
      q = { (p.release fun _ => true) with inDie := d, reinjected := true, whole := true, merged := Merged.none, through := false,
                                           flow := none, missed := false, added := 0, colour := 0, gate := some g } →
      (s.chip.setPkt q).fits d .ingress p.cells = true →
      ((((s.chip.setPkt q).takeGate d g true).headgate (q.take d .ingress) m).ctxOfPkt d p.id) = some (k', k) →
      exec (.reinjectSlot d m) s = .next (s.onChip fun c =>
        (((c.setPkt q).takeGate d g true).headgate (q.take d .ingress) m).finishCtx d (k' / 128) (k' % 128) k)) ∧
    (∀ g3, s.chip.ends d e x 2 imm args k → k.pkt.bind s.chip.pkt = some p → args = [g3] →
      (bitN g3 12 = true ∨ s.chip.isPort (g3 % 2 ^ 12) = true) →
      exec (.enqueue d e x) s = .next (s.onChip fun c =>
        let q := { p with
          merged := { p.merged with rewrite := none, tunnel := none, cipher := none }, tc := bitsN g3 13 3
          dstInst := bitN g3 12, dst := g3 % 2 ^ 12, owner := d, die := d, through := false }
        ((c.setPkt q).admitPkt q d).finishCtx d e x k)) ∧
    (s.chip.ends d e x 3 imm args k → k.pkt.bind s.chip.pkt = some p →
      exec (.drop d e x) s = .next (s.onChip fun c =>
        (c.dropPkt p (if imm % 256 = 0x58 ∨ 0xC0 ≤ imm % 256 then imm % 256 else Dr.engineDrop)).finishCtx d e x k)) ∧
    (∀ j, s.chip.ends d e x 4 imm args k → k.pkt = none → s.chip.jobEntry k = some j → (s.chip.chan k.fn).full = false →
      s.chip.reach d (s.chip.fnDie k.fn) = true →
      exec (.complete d e x) s = .next (s.onChip fun c =>
        (c.endEntry k.fn k.index [programRec j.index args j.bytes]).endCtx d e x k))

/-- Doorbells, fetching and starting entries, and what completes at once (R369, R374–R379, R381, R385, R389, R402, R413). -/
def Obligations.ChannelRowsComplete : Prop :=
  ∀ (s : State) (f : Nat),
    (∀ v : Reg32, s.chip.bellOk f = true → (s.chip.chan f).dsHalt = 0 →
      diff32 v.toNat (s.chip.chan f).dsC ≤ 2 ^ (s.chip.chan f).dsK →
      diff32 (s.chip.chan f).dsP (s.chip.chan f).dsC ≤ diff32 v.toNat (s.chip.chan f).dsC →
      exec (.chnDsProd f v) s = .next (s.onChip fun c => c.setChan f { c.chan f with dsP := v.toNat })) ∧
    (∀ v : Reg32, s.chip.bellOk f = true → (s.chip.chan f).dsHalt = 0 →
      diff32 v.toNat (s.chip.chan f).dsC ≤ 2 ^ (s.chip.chan f).dsK →
      diff32 v.toNat (s.chip.chan f).dsC < diff32 (s.chip.chan f).dsP (s.chip.chan f).dsC →
      exec (.chnDsProd f v) s = .next (s.onChip fun c => c.setChan f
        { (c.chan f).discard (cacheKeep (diff32 v.toNat (c.chan f).dsC) (c.chan f).cache) with dsP := v.toNat })) ∧
    (∀ v : Reg32, s.chip.bellOk f = true → (s.chip.chan f).cqHalt = 0 →
      diff32 (s.chip.chan f).cqP v.toNat ≤ 2 ^ (s.chip.chan f).cqK →
      exec (.chnCqCons f v) s = .next (s.onChip fun c => (c.setChan f { c.chan f with cqC := v.toNat }).drain f)) ∧
    (∀ v : Reg32, s.chip.bellOk f = true → (s.chip.chan f).dsHalt ≠ 0 → f ≠ stewardFn →
      exec (.chnDsRestart f v) s = .next (s.onChip fun c =>
        (c.setChan f { (c.chan f).discard [] with dsP := v.toNat, dsC := v.toNat, dsHalt := 0, shadowDirty := true }).setInst f
          { c.inst f with fresh := false })) ∧
    (∀ v : Reg32, s.chip.bellOk f = true → (s.chip.chan f).cqHalt ≠ 0 → f ≠ stewardFn →
      exec (.chnCqRestart f v) s = .next (s.onChip fun c =>
        ((c.setChan f { c.chan f with cqP := v.toNat, cqC := v.toNat, cqHalt := 0, shadowDirty := true }).setInst f
          { c.inst f with fresh := false }).drain f)) ∧
    (∀ v : Reg32, s.chip.bellOk f = true → (s.chip.chan f).dsHalt = 0 → v.getLsbD 0 = true →
      exec (.chnInvalidate f v) s = .next (s.onChip fun c => c.setChan f ((c.chan f).discard []))) ∧
    (∀ (v : Reg32) n x, s.chip.bellOk f = true → v.getLsbD 0 = true → (s.chip.dma (s.chip.fnDie f)).xfers = [(n, x)] →
      (s.chip.chan f).started.all (fun e => e.run) = true → x.ofRing = true → x.fn = f → x.status = none → x.kind = .send ∨ x.kind = .copy →
      x.issued < x.total → x.closed = false → x.bad = none →
      exec (.chnAbort f v) s = .next (s.onChip fun c => c.setDma (c.fnDie f)
        { c.dma (c.fnDie f) with xfers := [(n, { x with status := some St.aborted, aborted := true })] })) ∧
    (∀ lo hi ps c' reqs, s.chip.fetches f = true → (s.chip.chan f).fetch.open_ = 0 → (s.chip.chan f).posted ≠ 0 →
      cacheSlots (s.chip.chan f).cache < 8 →
      ((s.chip.chan f).fetch.held = 0 ∧ lo = 0 ∧ hi = 1) ∨
        ((s.chip.chan f).fetch.held ≠ 0 ∧ (s.chip.chan f).badFetch = false ∧ lo = 1 ∧ hi = entrySlots (s.chip.chan f).fetch.bytes ∧
          hi ≤ (s.chip.chan f).posted ∧ (cacheSlots (s.chip.chan f).cache + hi ≤ 8 ∨ cacheSlots (s.chip.chan f).cache = 0)) →
      Chip.xlateAll f (pieces 3 ((s.chip.chan f).dsBase + 32 * (((s.chip.chan f).fetchAt + lo) % 2 ^ (s.chip.chan f).dsK)) (32 * (hi - lo)))
        s.chip = (some ps, c') →
      reqs = pieceReads (s.chip.fn (pfOfKey (s.chip.fnPci f))).mrrs (32 * lo) ps →
      reqs.length ≤ (s.chip.freeTags (pfOfKey (s.chip.fnPci f)) reqs.length).length →
      exec (.entryFetch f) s = .next (s.onChip fun c =>
        let h := c.chan f
        ((c.freeTags (pfOfKey (c.fnPci f)) reqs.length).zip reqs).foldl
          (fun c r => c.issueTag f r.1 (.fetch h.fetch.gen) r.2.1 r.2.2.1 r.2.2.2 false)
          (c'.setChan f { h with fetch := { h.fetch with bytes := slice h.fetch.bytes 0 (32 * hi), open_ := reqs.length } }))) ∧
    (∀ b rest, (s.chip.chan f).cache = b :: rest → s.chip.runsRing f = true → byteAt b 1 ≠ 0 → s.chip.mayStart f b = true →
      entryRefused b f (s.chip.chan f).ver = none →
      exec (.entryStart f) s = .next (s.onChip fun c => c.setChan f
        { c.chan f with
          cache := rest, waits := none, dsC := wrapAdd 32 (c.chan f).dsC (bitsN (byteAt b 0) 0 6), shadowDirty := true,
          started := (c.chan f).started ++ [⟨(c.chan f).dsC, (c.chan f).serial, b, false, none, [],
            if byteAt b 1 = 0x09 then some (c.waitsFor f b) else none⟩], serial := (c.chan f).serial + 1 })) ∧
    (∀ b rest, (s.chip.chan f).cache = b :: rest → s.chip.runsRing f = true → byteAt b 1 = 0 → s.chip.inOrder f b = true →
      exec (.pad f) s = .next (s.onChip fun c => c.setChan f { c.chan f with
        cache := rest, waits := none, dsC := wrapAdd 32 (c.chan f).dsC (bitsN (byteAt b 0) 0 6), shadowDirty := true })) ∧
    (∀ e, s.chip.toRun f 0x01 e →
      exec (.nop f) s = .next (s.onChip fun c => (c.markRun f e.seq).endWith f e St.ok)) ∧
    (∀ e, s.chip.toRun f 0x03 e → 64 ≤ leAt e.bytes 12 4 → leAt e.bytes 12 4 ≤ 65536 → s.chip.rxCount f < 4096 →
      exec (.rxPost f) s = .next (s.onChip fun c => (c.setChan f { c.chan f with
        rx := (c.chan f).rx ++ [⟨leAt e.bytes 16 8, leAt e.bytes 12 4, leAt e.bytes 8 4, e.seq⟩] }).endEntry f e.seq [])) ∧
    (∀ c' a, s.chip.on (s.chip.fnDie f) 15 = true → (s.chip.chan f).shadowDirty = true → s.chip.fnMasters f = true →
      (f = stewardFn ∨ ((s.chip.inst f).st ≠ .free ∧ (s.chip.inst f).st ≠ .resetting)) →
      s.chip.translate f (s.chip.chan f).shadow true = (some a, c') →
      exec (.shadowWrite f) s = .next (s.onChip fun c =>
        let h := c.chan f
        let q := c'.emit (.hostWrite f a (toLE 4 h.dsC ++ toLE 4 h.cqP ++ toLE 1 h.dsHalt ++ toLE 1 h.cqHalt ++ List.replicate 6 0) false false)
        q.setChan f { q.chan f with shadowDirty := false })) ∧
    (∀ v : Reg32, s.chip.bellOk f = true → v.getLsbD 0 = true → (s.chip.chan f).pending = true →
      exec (.dmaModArm f v) s = .next (s.onChip fun c => (c.setChan f { c.chan f with armed := true }).modSend f)) ∧
    (∀ v : Reg32, s.chip.bellOk f = true → v.getLsbD 0 = true → (s.chip.chan f).pending = false →
      exec (.dmaModArm f v) s = .next (s.onChip fun c => c.setChan f { c.chan f with armed := true })) ∧
    (s.chip.alive = true → (s.chip.chan f).pending = true → (s.chip.chan f).armed = true →
      (s.chip.chan f).pendSince + 1000 * (s.chip.chan f).modTime ≤ s.chip.steady →
      exec (.moderationTimer f) s = .next (s.onChip fun c => c.modSend f))

/-- Transfers, bursts and read tags (R330, R331, R380, R382, R383, R392–R396). -/
def Obligations.TransferRowsComplete : Prop :=
  ∀ (s : State) (f : Nat) (e : Started),
    (s.chip.toRun f 0x02 e → (s.chip.chan f).ver ≠ 1 →
      14 ≤ leAt e.bytes 12 4 → leAt e.bytes 12 4 ≤ 16380 → ((sendSegs e.bytes).map Prod.snd).sum = leAt e.bytes 12 4 →
      (sendFields (slice e.bytes 16 16)).segEn = false → (sendFields (slice e.bytes 16 16)).tsReq = false →
      (sendFields (slice e.bytes 16 16)).refused (leAt e.bytes 12 4) = false →
      exec (.txSend f) s = .next (s.onChip fun c =>
        let q := c.markRun f e.seq
        (q.setChan f { q.chan f with started := (q.chan f).started.map fun w =>
          if w.seq = e.seq then { w with stamps := [] } else w }).addXfer (c.fnDie f)
          (Xfer.fresh f e.seq e.bytes .send (sendSegs e.bytes)))) ∧
    (s.chip.toRun f 0x04 e → 0 < leAt e.bytes 12 4 → leAt e.bytes 12 4 ≤ 16777216 →
      exec (.dmaCopy f) s = .next (s.onChip fun c => (c.markRun f e.seq).addXfer (c.fnDie f)
        (Xfer.fresh f e.seq e.bytes .copy [(leAt e.bytes 16 8, leAt e.bytes 12 4)]))) ∧
    (s.chip.toRun f 0x09 e → byteAt e.bytes 9 % 8 ∉ [0, 6, 7] →
      exec (.storageCmd f) s = .next (s.onChip fun c => c.markRun f e.seq)) ∧
    (∀ die n x, s.chip.on die 15 = true →
      nextServed ((s.chip.dma die).xfers.filter (s.chip.readReady die)) (s.chip.dma die).lastRead = some (n, x) →
      ∀ cells, exec (.burstIssue die false cells) s = .next (s.onChip fun c => (c.setDma die { c.dma die with lastRead := x.fn }).issueRead die n x)) ∧
    (∀ die n x, s.chip.on die 15 = true →
      (∀ y ∈ (s.chip.dma die).xfers, s.chip.writeReady die y = true → byteAt y.2.ent 1 ≠ 0x56) →
      nextServed ((s.chip.dma die).xfers.filter (s.chip.writeReady die)) (s.chip.dma die).lastWrite = some (n, x) →
      ∀ cells, exec (.burstIssue die true cells) s =
        .next (s.onChip fun c => (c.setDma die { c.dma die with lastWrite := x.fn }).issueWrite die n x cells)) ∧
    (∀ port link tag b x d n burst, s.chip.linkUp port link = true → (s.chip.tag (tagKey port link tag)).st = .outstanding →
      (s.chip.tag (tagKey port link tag)).poisoned = false → (s.chip.tag (tagKey port link tag)).use = .xfer d n burst →
      s.chip.xfer d n = some x →
      exec (.readCompletion port link tag .success (b : Bytes).length b) s = .next (s.onChip fun c =>
        let t := c.tag (tagKey port link tag)
        ((c.setTag (tagKey port link tag) Tag.none).setXfer d n ((x.fill burst (t.off + t.got) b).closeReq burst false)).received d n)) ∧
    (∀ port link tag b gen, s.chip.linkUp port link = true → (s.chip.tag (tagKey port link tag)).st = .outstanding →
      (s.chip.tag (tagKey port link tag)).poisoned = false → (s.chip.tag (tagKey port link tag)).use = .fetch gen →
      exec (.readCompletion port link tag .success (b : Bytes).length b) s = .next (s.onChip fun c =>
        let t := c.tag (tagKey port link tag)
        (c.setTag (tagKey port link tag) Tag.none).fetchData t.fn gen (t.off + t.got) b true)) ∧
    (∀ port link tag, s.chip.alive = true → (s.chip.tag (tagKey port link tag)).st = .outstanding →
      9 * (s.chip.tag (tagKey port link tag)).limit ≤ 10 * (s.chip.steady - (s.chip.tag (tagKey port link tag)).since) →
      (s.chip.tag (tagKey port link tag)).poisoned = false → s.chip.fld (port / 4) R.hepQuarHold 0 16 = 0 →
      exec (.readTimeout port link tag) s = .next (s.onChip fun c =>
        let t := c.tag (tagKey port link tag)
        ((c.setTag (tagKey port link tag) Tag.none).readFailed (c.fnPci t.fn) tag St.readTimeout).failReq t St.readTimeout)) ∧
    (∀ port link tag, s.chip.alive = true → (s.chip.tag (tagKey port link tag)).st = .held →
      s.chip.fld (port / 4) R.hepQuarHold 0 16 * 1000000 ≤ s.chip.steady - (s.chip.tag (tagKey port link tag)).since →
      exec (.tagHoldExpiry port link tag) s = .next (s.onChip fun c => c.setTag (tagKey port link tag) Tag.none)) ∧
    (∀ die n x t, s.chip.alive = true → s.chip.xfer die n = some x → x.kind ≠ .job → s.chip.endWaits die x = false → s.chip.xferEnd die x = some t →
      exec (.transferEnd die n) s = .next (s.onChip fun c => c.finishXfer die n x t))

/-- Instances: creation, translation, dirty tracking, freezing, migration, row by row (R345–R366). `i` is the instance that the
steward's entry names: it is there, and no reset of it runs. -/
def Obligations.InstanceRowsComplete : Prop :=
  ∀ (s : State) (e : Started) (i : Nat), leAt e.bytes 8 2 = i → i < 512 * s.chip.dies →
    ((s.chip.markRun stewardFn e.seq).createFails e.bytes = none → s.chip.toRun stewardFn 0x50 e →
      Gives .instanceCreate s fun t => ∃ c : Chip, t.chip = c.endWith stewardFn e St.ok 0 0
          (toLE 2 i ++ toLE 1 (min (byteAt e.bytes 17) 2) ++ toLE 1 0 ++ toLE 4 (wrapAdd 32 (s.chip.keygen i) 1)) ∧
        c.inst i = { Inst.none with
          st := .active, port := byteAt e.bytes 10, pf := byteAt e.bytes 11, vf := leAt e.bytes 12 2, vectors := byteAt e.bytes 14
          entryVer := min (byteAt e.bytes 17) 2, keyBase := leAt e.bytes 48 2, keyCount := leAt e.bytes 50 2, quota := leAt e.bytes 52 4 } ∧
        c.chan i = { Chan.none with
          dsBase := leAt e.bytes 24 8, cqBase := leAt e.bytes 32 8, shadow := leAt e.bytes 40 8, dsK := byteAt e.bytes 18
          cqK := byteAt e.bytes 19, ver := min (byteAt e.bytes 17) 2, verNew := min (byteAt e.bytes 17) 2
          serial := (s.chip.chan i).serial } ∧
        c.keygen i = wrapAdd 32 (s.chip.keygen i) 1 ∧ (∀ j, j ≠ i → c.keygen j = s.chip.keygen j) ∧
        ∀ k, leAt e.bytes 48 2 ≤ k → k < leAt e.bytes 48 2 + leAt e.bytes 50 2 → tget none c.cp.keySlots (i / 512 * 65536 + k) = none) ∧
    (s.chip.toRun stewardFn 0x51 e → (s.chip.inst i).st ≠ .free →
      exec .instanceDestroy s = .next (s.onChip fun c =>
        let q := (c.markRun stewardFn e.seq).startReset i .destroy
        q.setInst i { q.inst i with destroying := true })) ∧
    (s.chip.toRun stewardFn 0x52 e → (s.chip.inst i).st = .active →
      exec .instanceReset s = .next (s.onChip fun c =>
        ((c.markRun stewardFn e.seq).startReset i .entry).endWith stewardFn e St.ok)) ∧
    (∀ d, s.chip.alive = true → (s.chip.inst i).st = .resetting → (s.chip.inst i).destroying = d →
      exec (.instanceResetDone i) s = .next (s.onChip fun c =>
        let q := c.clearInst i
        let r := (q.setInst i { q.inst i with st := .active, destroying := false }).placeRec stewardFn
          (mkRec 0x06 0 0 0 0 0 0 0 (toLE 2 i ++ toLE 1 (causeCode (c.inst i).cause) ++ toLE 1 0 ++ toLE 4 (c.inst i).unwritten))
        if d then (r.freeInst i).endStw 0x51 St.ok 0 [] else r)) ∧
    (∀ new, s.chip.toRun stewardFn 0x53 e → (s.chip.inst i).st = .active → mapFails (s.chip.inst i).leaves (mapArgs e.bytes) true = none →
      new = replaceRange (s.chip.inst i).leaves (rangeLeaves (mapArgs e.bytes).size (mapArgs e.bytes).first (mapArgs e.bytes).count
        (mapArgs e.bytes).bus (bitN (byteAt e.bytes 11) 0) (bitN (byteAt e.bytes 11) 1)) (mapArgs e.bytes).first (mapArgs e.bytes).stop →
      tablePages new ≤ (s.chip.inst i).quota →
      exec .mapSet s = .next (s.onChip fun c => (c.markRun stewardFn e.seq).remap i new (mapArgs e.bytes))) ∧
    (s.chip.toRun stewardFn 0x54 e → (s.chip.inst i).st = .active → mapFails (s.chip.inst i).leaves (mapArgs e.bytes) false = none →
      exec .mapClear s = .next (s.onChip fun c => (c.markRun stewardFn e.seq).remap i
        (replaceRange (c.inst i).leaves [] (mapArgs e.bytes).first (mapArgs e.bytes).stop) (mapArgs e.bytes))) ∧
    (s.chip.alive = true → s.chip.mapWait = true → (∀ t ∈ s.chip.tags, t.2.fn = i → t.2.st ≠ .outstanding ∧ t.2.st ≠ .quarantined) →
      ((s.chip.chan stewardFn).started.find? fun e => e.run && e.recs.isNone && [0x53, 0x54].contains (byteAt e.bytes 1)) = some e →
      exec .mapSettled s = .next (s.onChip fun c => ({ c with mapWait := false }).endWith stewardFn e St.ok)) ∧
    (s.chip.toRun stewardFn 0x55 e → (s.chip.inst i).st = .active → 0 < leAt e.bytes 12 4 → leAt e.bytes 12 4 ≤ 1024 →
      leAt e.bytes 16 8 % 2 ^ 30 = 0 → (∀ o ∈ s.chip.insts, o.1 ≠ i → o.2.tracking = none) →
      exec .dirtyStart s = .next (s.onChip fun c =>
        let q := c.markRun stewardFn e.seq
        (q.setInst i { c.inst i with tracking := some ⟨leAt e.bytes 16 8, leAt e.bytes 12 4, [], false⟩ }).endWith stewardFn e St.ok)) ∧
    (∀ t, s.chip.toRun stewardFn 0x56 e → (s.chip.inst i).st = .active → (s.chip.inst i).tracking = some t →
      t.outOfRange = false → leAt e.bytes 16 8 % 4096 = 0 →
      exec .dirtySync s = .next (s.onChip fun c =>
        ((c.markRun stewardFn e.seq).setInst i { c.inst i with tracking := some { t with marks := [], outOfRange := false } }).sendOutput
          e i (leAt e.bytes 16 8) (dirtyBitmap t) (toLE 1 0))) ∧
    (∀ t, s.chip.toRun stewardFn 0x57 e → (s.chip.inst i).st = .active → (s.chip.inst i).tracking = some t →
      exec .dirtyStop s = .next (s.onChip fun c =>
        ((c.markRun stewardFn e.seq).setInst i { c.inst i with tracking := none }).endWith stewardFn e St.ok)) ∧
    (s.chip.toRun stewardFn 0x58 e → (s.chip.inst i).st = .active →
      exec .freeze s = .next (s.onChip fun c => (c.markRun stewardFn e.seq).setInst i { c.inst i with freezing := true })) ∧
    (s.chip.alive = true → (s.chip.inst i).freezing = true → (s.chip.inst i).st = .active → s.chip.idle i = true →
      exec (.freezeDrained i) s = .next (s.onChip fun c =>
        (c.setInst i { c.inst i with st := .frozen, freezing := false }).endStw 0x58 St.ok 0 [])) ∧
    (s.chip.toRun stewardFn 0x59 e → (s.chip.inst i).st = .frozen →
      exec .thaw s = .next (s.onChip fun c =>
        (((c.markRun stewardFn e.seq).setInst i { c.inst i with st := .active }).flushMsix (c.fnPci i)).endWith stewardFn e St.ok))

/-- The migration blob is written and read back (R364–R366, R442). -/
def Obligations.MigrationCompletes : Prop :=
  ∀ (s : State) (e : Started) (i : Nat), leAt e.bytes 8 2 = i → i < 512 * s.chip.dies →
    (∀ blob, s.chip.toRun stewardFn 0x5A e → (s.chip.inst i).st = .frozen → byteAt e.bytes 10 ≤ 2 →
      blob = (s.chip.markRun stewardFn e.seq).blob s.root.fuses.kekSeed i (if byteAt e.bytes 10 = 0 then 2 else byteAt e.bytes 10)
        (slice (slice e.bytes 24 136) 8 64) →
      beAt (slice e.bytes 24 136) 0 2 = stewardFn →
      exec .save s = .next (s.onChip fun c =>
        let q := c.markRun stewardFn e.seq
        if sm2OnCurve (slice (slice e.bytes 24 136) 8 64) = false then q.endWith stewardFn e St.unwrapFail
        else if leAt e.bytes 12 4 < blob.length then q.endWith stewardFn e St.saveTooSmall 0 0 (toLE 4 blob.length)
        else ({ q with free := q.free + 6 }).sendOutput e i (leAt e.bytes 16 8) blob (toLE 4 blob.length))) ∧
    (s.chip.toRun stewardFn 0x5B e → s.chip.blobRead = none → (s.chip.inst i).takesBlob = true →
      exec .restore s = .next (s.onChip fun c =>
        let q := c.markRun stewardFn e.seq
        q.addXfer q.stwDie (Xfer.fresh stewardFn e.seq e.bytes .restore [(leAt e.bytes 16 8, leAt e.bytes 12 4)]))) ∧
    (∀ n x b, s.chip.alive = true → s.chip.blobRead = some (n, x) →
      ((s.chip.chan stewardFn).started.find? fun o => o.seq == x.index) = some e → leAt x.ent 8 2 = i → b = x.prefixData →
      (s.chip.inst i).takesBlob = true → byteAt b 4 = 1 → beAt b 0 4 = 0x4C4D4947 → beAt b 12 4 ≤ b.length → 164 ≤ beAt b 12 4 →
      exec .restore s = .next (s.onChip fun c =>
        let q := c.delXfer c.stwDie n
        match openWrap (s.chip.kekScalar s.root.fuses.kekSeed stewardFn) (slice b 28 120) with
        | none => q.endWith stewardFn e St.unwrapFail 0 b.length
        | some k =>
          let r := opened 3 k (slice b 16 12) (slice b 0 148) (slice b 148 (beAt b 12 4 - 148 - 16)) (slice b (beAt b 12 4 - 16) 16)
          let l := readSections (beAt b 10 2) r.1
          if r.2 = false then q.endWith stewardFn e St.unwrapFail 0 b.length
          else if byteAt (sectionOf l 1) 0 ≠ (s.chip.inst i).entryVer ∨ ((chunks 80 ((sectionOf l 4).length / 80) (sectionOf l 4)).any
              fun k => decide ((s.chip.inst i).keyCount ≤ beAt k 0 2)) then q.endWith stewardFn e St.restoreMismatch 0 b.length
          else (q.loadBlob i 1 l).endWith stewardFn e St.ok b.length))

/-- PCI Express functions and host links, row by row (R312, R317, R318, R325, R332–R337, R493). -/
def Obligations.HostRowsComplete : Prop :=
  ∀ (s : State) (fn : FnId) (port link : Nat),
    (s.chip.fnThere fn = true → (s.chip.fn (fnKey fn)).bme = true →
      exec (.busMasterEnableClear fn) s = .next (s.onChip fun c =>
        (c.governed fn).foldl (fun c f => c.stopMaster f) (c.onFn fn fun f => { f with bme := false }))) ∧
    (s.chip.fnThere fn = true → (s.chip.fn (fnKey fn)).bme = false →
      exec (.busMasterEnableSet fn) s = .next (s.onChip fun c => (c.onFn fn fun f => { f with bme := true }).resumeFn fn)) ∧
    (s.chip.fnThere fn = true → (s.chip.fn (fnKey fn)).d3 = false →
      exec (.d3hotEntry fn) s = .next (s.onChip fun c =>
        (c.governed fn).foldl (fun c f => c.stopMaster f) (c.onFn fn fun f => { f with d3 := true }))) ∧
    (s.chip.fnThere fn = true → (s.chip.fn (fnKey fn)).d3 = true →
      exec (.d0Return fn) s = .next (s.onChip fun c => (c.onFn fn fun f => { f with d3 := false }).resumeFn fn)) ∧
    (s.chip.fnThere (.pf port link) = true →
      exec (.initiateFlr (.pf port link)) s = .next (s.onChip fun c => c.resetPf port link .vfGone)) ∧
    (∀ vf i, s.chip.fnThere (.vf port link vf) = true → s.chip.instOfVf port link vf = some i →
      exec (.initiateFlr (.vf port link vf)) s = .next (s.onChip fun c =>
        (c.resetVf i .flr false).setFn (fnKey (.vf port link vf)) PciFn.reset)) ∧
    (s.chip.hasDie (port / 4) = true →
      Gives (.perstRelease port) s fun t => t.chip.pwr.perst = s.chip.pwr.perst.filter (· != port)) ∧
    (∀ speed width flit, s.chip.mayTrain port link = true → link < 2 → s.chip.linkFits port speed width flit = true →
      Gives (.hostLinkChange port link true speed width flit) s fun t => t.chip.linkUp port link = true) ∧
    (s.chip.fnThere (.pf port link) = true → (s.chip.fn (fnKey (.pf port link))).vfEnable = true →
      exec (.vfEnableClear port link) s = .next (s.onChip fun c =>
        (c.dropVfs port link 0 .vfGone).onFn (.pf port link) fun f => { f with vfEnable := false })) ∧
    (s.chip.fnThere (.pf port link) = true →
      Gives (.vfEnableSet port link) s fun t =>
        t.chip.fn (fnKey (.pf port link)) = { s.chip.fn (fnKey (.pf port link)) with vfEnable := true }) ∧
    (∀ n, s.chip.fnThere (.pf port link) = true → n ≤ s.chip.totalVfs port link →
      (s.chip.fn (fnKey (.pf port link))).vfEnable = false →
      Gives (.numvfsWrite port link n) s fun t =>
        t.chip.fn (fnKey (.pf port link)) = { s.chip.fn (fnKey (.pf port link)) with numVfs := n }) ∧
    (s.chip.fnThere fn = true →
      exec (.msixUnmask fn none) s = .next (s.onChip fun c =>
        (c.onFn fn fun f => { f with fnMask := false }).flushMsix (fnKey fn))) ∧
    (∀ v, s.chip.fnThere fn = true → v < tableVectors fn → v ∉ (s.chip.fn (fnKey fn)).unmasked →
      exec (.msixUnmask fn (some v)) s = .next (s.onChip fun c =>
        (c.onFn fn fun f => { f with unmasked := f.unmasked ++ [v] }).flushMsix (fnKey fn))) ∧
    (∀ cause, cause ≠ .perst → s.chip.alive = true → s.chip.hasDie (port / 4) = true → s.chip.hasLink port link = true →
      exec (.conventionalReset port link cause) s = .next (s.onChip fun c => c.resetLink port link)) ∧
    (s.chip.alive = false → s.chip.hasDie (port / 4) = true → s.chip.recovering = false → port ∉ s.chip.pwr.perst →
      exec (.conventionalReset port link .perst) s = .next (s.onChip fun c => { c with pwr := { c.pwr with perst := c.pwr.perst ++ [port] } })) ∧
    (s.chip.alive = true → s.chip.hasDie (port / 4) = true → s.chip.recovering = false → port ∉ s.chip.pwr.perst →
      exec (.conventionalReset port link .perst) s = .next (s.onChip fun c =>
        let q := { c with pwr := { c.pwr with perst := c.pwr.perst ++ [port] } }
        (q.linksOf port).foldl (fun c l => c.resetLink port l) q))

/-- Neighbours and publication of the Huanyx Span Protocol, row by row (R419–R426, R432). -/
def Obligations.NeighbourRowsComplete : Prop :=
  ∀ (s : State) (lane : Nat) (b : Bytes),
    (∀ d, s.chip.on d 16 = true → tget 0 s.chip.sp.helloAt d + s.chip.fld d R.spnHello 0 14 * 1000000 ≤ s.chip.steady →
      exec (.helloTimer d) s = .next (s.onChip fun c =>
        let q := c.setSp fun x => { x with helloAt := tput 0 x.helloAt d c.steady }
        ((List.range 64).filter fun l => q.spanPort (d * 64 + l)).foldl
          (fun c l => c.spanSend (d * 64 + l) 2 1 0 (c.helloBody (d * 64 + l))) q)) ∧
    (∀ q, s.chip.hspTaken lane b q → (Hsp.ofFrame b).typ = 1 → byteAt b 16 = 1 → (s.chip.neigh lane).minV = byteAt (Hsp.ofFrame b).body 0 →
      (s.chip.neigh lane).maxV = byteAt (Hsp.ofFrame b).body 1 →
      exec (.hello lane b) s = .next (s.onChip fun _ => q.helloIn lane (Hsp.ofFrame b))) ∧
    (s.chip.on (lane / 64) 16 = true →
      (s.chip.neigh lane).heardAt + (s.chip.neigh lane).interval * (s.chip.neigh lane).mult * 1000000 ≤ s.chip.steady →
      exec (.neighbourHoldExpiry lane) s = .next (s.onChip fun c => c.neighDown lane)) ∧
    (∀ q, s.chip.hspTaken lane b q → (Hsp.ofFrame b).typ = 2 → byteAt b 16 = 2 →
      (Hsp.ofFrame b).seq = wrapAdd 32 (s.chip.neigh lane).seqRx 1 → q.installs lane = true →
      exec (.publish lane b) s = .next (s.onChip fun _ =>
        let r := (pubEntries (Hsp.ofFrame b).body).foldl (fun c e => c.installEntry lane e)
          (q.setNeigh lane { q.neigh lane with seqRx := (Hsp.ofFrame b).seq })
        r.spanSend lane (s.chip.neigh lane).version 3 (r.neigh lane).seqRx [])) ∧
    (∀ q, s.chip.hspTaken lane b q → (Hsp.ofFrame b).typ = 3 → byteAt b 16 = 3 →
      exec (.pubAck lane b) s = .next (s.onChip fun _ =>
        let n := q.neigh lane
        let left := n.unacked.filter fun u => decide (2 ^ 31 ≤ diff32 (Hsp.ofFrame b).seq u.1)
        Chip.spanFlush lane 64 (q.setNeigh lane
          { n with unacked := left, resent := if left.length < n.unacked.length then q.steady else n.resent }))) ∧
    (∀ seq evs l, s.chip.on (lane / 64) 16 = true → (s.chip.neigh lane).st = .up → (s.chip.neigh lane).unacked = (seq, evs) :: l →
      (s.chip.neigh lane).resent + 1000000 ≤ s.chip.steady →
      exec (.publishResend lane) s = .next (s.onChip fun c =>
        ((c.setNeigh lane { c.neigh lane with resent := c.steady }).count (lane / 64) (R.spnEvtCnt 5)).spanSend lane
          (c.neigh lane).version 2 seq (pubBody evs))) ∧
    (∀ e out, s.chip.toRun stewardFn 0x61 e →
      out = ((s.chip.markRun stewardFn e.seq).lanes.filter fun l => (s.chip.markRun stewardFn e.seq).spanPort l).flatMap
        (s.chip.markRun stewardFn e.seq).neighEntry → out.length ≤ leAt e.bytes 12 4 →
      exec .spanNeighbours s = .next (s.onChip fun c =>
        (c.markRun stewardFn e.seq).sendOutput e 0 (leAt e.bytes 16 8) out [])) ∧
    (∀ e, s.chip.toRun stewardFn 0x62 e → s.chip.en 0 16 = true → leAt e.bytes 8 2 = lane → lane ≠ 0xFFFF → s.chip.spanPort lane = true →
      (s.chip.neigh lane).st = .up →
      exec .spanRepublish s = .next (s.onChip fun c =>
        ((c.markRun stewardFn e.seq).fullSend lane).endWith stewardFn e St.ok))

/-- The epoch barrier between parts, row by row (R427–R430). -/
def Obligations.BarrierRowsComplete : Prop :=
  ∀ (s : State) (lane : Nat) (b : Bytes),
    (∀ e, s.chip.toRun stewardFn 0x60 e → s.chip.en 0 16 = true → leAt e.bytes 12 2 ≤ 16383 → 0 < leAt e.bytes 14 2 →
      leAt e.bytes 14 2 ≤ 16384 → 0 < leAt e.bytes 16 2 → s.chip.commit.barrier = false →
      exec .spanBarrierGroup s = .next (s.onChip fun c =>
        ((c.markRun stewardFn e.seq).setBarrier fun x => { x with
          group := some ⟨leAt e.bytes 8 4, leAt e.bytes 12 2, leAt e.bytes 14 2, leAt e.bytes 16 2, leAt e.bytes 18 2⟩
          early := none }).endWith stewardFn e St.ok)) ∧
    (∀ g w, s.chip.alive = true → s.chip.sp.barrier.using_ = some g → s.chip.commit.phase = .barrier → g.coord = s.chip.spanDevice →
      s.chip.sp.barrier.wave = none →
      w = ⟨g.coord, g.id, (s.chip.slot s.chip.commit.slot).epoch, g.count, none, s.chip.waveLanes, 0, 0, false, s.chip.steady, g.limit⟩ →
      exec .barrierStart s = .next (s.onChip fun c =>
        ((c.setBarrier fun x => { x with wave := some w }).sendWave c.waveLanes 4 fun _ => prepareBody w).waveProgress)) ∧
    (∀ q w, s.chip.hspTaken lane b q → (Hsp.ofFrame b).typ = 4 → byteAt b 16 = 4 → (q.neigh lane).inWave = true →
      q.sp.barrier.past = [] → q.sp.barrier.wave = none →
      w = ⟨beAt (Hsp.ofFrame b).body 0 2, beAt (Hsp.ofFrame b).body 4 4, beAt (Hsp.ofFrame b).body 8 2, beAt (Hsp.ofFrame b).body 10 2, some lane,
        q.waveLanes.filter (· != lane), 0, 0, false, q.steady, ((q.memberOf (beAt (Hsp.ofFrame b).body 4 4)).map BarGroup.limit).getD 0⟩ →
      exec (.barrierPrepare lane b) s = .next (s.onChip fun _ =>
        ((q.setBarrier fun x => { x with wave := some w }).sendWave w.lanes 4 fun _ => prepareBody w).waveProgress)) ∧
    (∀ q, s.chip.hspTaken lane b q → (Hsp.ofFrame b).typ = 5 → byteAt b 16 = 5 → (q.neigh lane).inWave = true →
      q.sp.barrier.past = [] → q.inWave (beAt (Hsp.ofFrame b).body 0 2) (beAt (Hsp.ofFrame b).body 4 4) = true →
      exec (.barrierEcho lane b) s = .next (s.onChip fun _ =>
        q.laneEchoed lane (beAt (Hsp.ofFrame b).body 8 2) (byteAt (Hsp.ofFrame b).body 10 % 4))) ∧
    (∀ q coord id, s.chip.hspTaken lane b q → (Hsp.ofFrame b).typ = 6 → byteAt b 16 = 6 → (q.neigh lane).inWave = true →
      q.sp.barrier.past = [] → beAt (Hsp.ofFrame b).body 0 2 = coord → beAt (Hsp.ofFrame b).body 4 4 = id →
      4 ≤ (q.neigh lane).version →
      exec (.barrierGo lane b) s = .next (s.onChip fun _ =>
        let gm := beAt (Hsp.ofFrame b).body 12 8
        let t := beAt (Hsp.ofFrame b).body 20 8
        ((q.sendWave (q.waveLanes.filter (· != lane)) 6 (goBody coord id (beAt (Hsp.ofFrame b).body 8 2) gm t)).takeGo id gm
          (some t)).endWave coord id)) ∧
    (∀ q coord id, s.chip.hspTaken lane b q → (Hsp.ofFrame b).typ = 6 → byteAt b 16 = 6 → (q.neigh lane).inWave = true →
      q.sp.barrier.past = [] → beAt (Hsp.ofFrame b).body 0 2 = coord → beAt (Hsp.ofFrame b).body 4 4 = id →
      (q.neigh lane).version < 4 →
      exec (.barrierGo lane b) s = .next (s.onChip fun _ =>
        ((q.sendWave (q.waveLanes.filter (· != lane)) 6 (goBody coord id (beAt (Hsp.ofFrame b).body 8 2) 0 0)).takeGo id 0 none).endWave
          coord id)) ∧
    (∀ q coord id, s.chip.hspTaken lane b q → (Hsp.ofFrame b).typ = 7 → byteAt b 16 = 7 → (q.neigh lane).inWave = true →
      q.sp.barrier.past = [] → beAt (Hsp.ofFrame b).body 0 2 = coord → beAt (Hsp.ofFrame b).body 4 4 = id →
      exec (.barrierAbort lane b) s = .next (s.onChip fun _ =>
        ((q.sendWave (q.waveLanes.filter (· != lane)) 7 fun _ => abortBody coord id (byteAt (Hsp.ofFrame b).body 8)).takeAbort id
          (byteAt (Hsp.ofFrame b).body 8)).endWave coord id)) ∧
    (∀ w, s.chip.alive = true → s.chip.sp.barrier.wave = some w → w.parent = none → w.begun + w.limit ≤ s.chip.steady →
      exec .barrierTimeout s = .next (s.onChip fun c => c.abortWave w St.barrierTimeout)) ∧
    (∀ g, s.chip.alive = true → s.chip.sp.barrier.using_ = some g → s.chip.commit.phase = .barrier → s.chip.sp.barrier.stalled = false →
      ((∃ w, s.chip.sp.barrier.wave = some w ∧ w.id = g.id ∧ w.parent.isSome = true ∧ w.echoed = true ∧
          w.begun + g.timeout * 1000000 ≤ s.chip.steady) ∨
        (∃ t, (∀ w, s.chip.sp.barrier.wave = some w → w.id ≠ g.id) ∧ s.chip.sp.barrier.ready = some t ∧
          t + g.timeout * 1000000 ≤ s.chip.steady)) →
      exec .spnBarrierStall s = .next (s.onChip fun c =>
        (c.setBarrier fun x => { x with stalled := true }).raise Cls.spnBarrierStall 0 { block := 16 })) ∧
    (∀ coord id, s.chip.alive = true →
      exec (.waveMemoryExpiry coord id) s = .next (s.onChip fun c =>
        c.setBarrier fun x => { x with past := x.past.filter fun p =>
          !(p.1 == coord && p.2.1 == id) || decide (c.steady < p.2.2 + 10000000000) })) ∧
    (∀ m (v : Reg32), s.reaches m 0 16 → v.getLsbD 0 = true → s.chip.commit.barrier = true → s.chip.commit.phase = .barrier →
      exec (.barrierCancel m v) s = .next (s.onChip fun c =>
        (c.rejectCommit (St.barrierCancelled, 0xFFFFFFFF)).waveProgress)) ∧
    (∀ m (v : Reg32), s.reaches m 0 16 → v.getLsbD 0 = true → s.chip.commit.barrier = false → s.chip.sp.barrier.group.isSome = true →
      exec (.barrierCancel m v) s = .next (s.onChip fun c => c.setBarrier fun x => { x with group := none, early := none }))

/-- Links between dies, scrubbers, the log and the watchdog, row by row (R503, R507, R509, R513, R515, R518, R520). -/
def Obligations.FaultRowsComplete : Prop :=
  ∀ (s : State) (d port : Nat),
    (s.chip.alive = true → s.chip.hasDie d = true → port < 7 → s.chip.culUp d port = true →
      exec (.culvertLinkFail d port) s = .next (s.onChip fun c =>
        let e := culPartner c.dies d port
        let q := ({ c with culDown := c.culDown ++ [d * 8 + port, e * 8 + c.culFar d port] }).dropNotices
        (q.raise Cls.culLinkDown d { block := 0x21, cause := port }).raise Cls.culLinkDown e { block := 0x21, cause := c.culFar d port })) ∧
    (s.chip.alive = true → (d * 8 + port) ∈ s.chip.culTrain →
      Gives (.culvertRetrainDone d port true) s fun t =>
        t.chip.culDown = s.chip.culDown.filter (fun p => p != d * 8 + port && p != culPartner s.chip.dies d port * 8 + s.chip.culFar d port) ∧
        t.chip.culTrain = s.chip.culTrain.filter (fun p => p != d * 8 + port && p != culPartner s.chip.dies d port * 8 + s.chip.culFar d port)) ∧
    (∀ w n, s.chip.alive = true → s.chip.hasDie d = true → s.chip.bit d R.fltScrubCtrl 0 = true →
      tget 0 s.chip.faults.hbmPos d + 1 < 36 * 2 ^ 23 →
      exec (.hbmScrubVisit d (.corrected n) w false) s = .next (s.onChip fun c =>
        ({ c with faults := { c.faults with hbmPos := tput 0 c.faults.hbmPos d (tget 0 c.faults.hbmPos d + 1) } }).raise Cls.hbmCorrected d
          { addr := 128 * tget 0 c.faults.hbmPos d, block := 0x20, cause := n })) ∧
    (∀ w n, s.chip.alive = true → s.chip.hasDie d = true → s.chip.bit d R.fltScrubCtrl 1 = true →
      exec (.sramScrubVisit d (.corrected n) w false) s = .next (s.onChip fun c =>
        let pos := tget 0 c.faults.sramPos d
        let last := max 1 Config.sramWords ≤ pos + 1
        let q := ({ c with faults := { c.faults with
          sramPos := tput 0 c.faults.sramPos d (if last then 0 else pos + 1) } }).raise Cls.sramCorrected d { cause := n }
        if last then q.watchGuarantee d fun c => { c with faults := { c.faults with sramLate := setBitN c.faults.sramLate d false } }
        else q)) ∧
    (∀ w, s.chip.alive = true → s.chip.hasDie d = true → s.chip.bit d R.fltScrubCtrl 0 = true →
      tget 0 s.chip.faults.hbmPos d + 1 < 36 * 2 ^ 23 → bitN s.chip.faults.hbmLate d = false →
      exec (.hbmScrubVisit d .clean w true) s = .next (s.onChip fun c =>
        ({ c with faults := { c.faults with hbmPos := tput 0 c.faults.hbmPos d (tget 0 c.faults.hbmPos d + 1) } }).watchGuarantee d
          fun c => ({ c with faults := { c.faults with hbmLate := setBitN c.faults.hbmLate d true } }).raise Cls.scrubOverrun d
            { block := 0x20 })) ∧
    (∀ g, s.chip.faults.ring = some g → s.chip.faults.unsignalled = true → s.chip.faults.prod ≠ s.chip.faults.cons →
      (∀ t, s.chip.faults.lastMsg = some t → t + 10000 ≤ s.chip.steady) → s.chip.alive = true → s.chip.tetherUp = true →
      exec .logMessage s = .next (s.onChip fun c =>
        ({ c with faults := { c.faults with unsignalled := false, lastMsg := some c.steady } }).signal stewardFn g.vector)) ∧
    (s.chip.pwr.aux = true → s.chip.pwr.inReset = false →
      exec .tetWatchdog s = .next (s.onChip fun c => (c.hold .tetWatchdog).raise Cls.tetWatchdog 0 { block := 0x22 })) ∧
    (∀ m (v : Reg32), s.reaches m d 19 → v.getLsbD 31 = true → bitsN v.toNat 0 3 = port → port < 7 → s.chip.culUp d port = false →
      Gives (.fltCulRetrain m d v) s fun t =>
        t.chip.culTrain = s.chip.culTrain ++
          [d * 8 + port, culPartner s.chip.dies d port * 8 + s.chip.culFar d port].filter fun p => !s.chip.culTrain.contains p) ∧
    (∀ m (v : Reg32), s.reaches m d 19 → v.getLsbD 2 = true → Gives (.fltPinRelease m d v) s fun t => t.chip.faults.ugRaised = false) ∧
    (∀ m (v : Reg32), s.reaches m d 19 → v.getLsbD 30 = true →
      Gives (.fltClassSel m d v) s fun t =>
        t.chip.cls d (bitsN v.toNat 0 8) = { s.chip.cls d (bitsN v.toNat 0 8) with count := 0, first := none, last := none } ∧
        t.chip.rd d R.fltSnapCount = (s.chip.cls d (bitsN v.toNat 0 8)).count % 2 ^ 32) ∧
    (∀ m (v : Reg32), s.reaches m 0 19 →
      diff32 s.chip.faults.prod v.toNat ≤ diff32 s.chip.faults.prod s.chip.faults.cons →
      Gives (.fltLogCons m v) s fun t => t.chip.faults = { s.chip.faults with cons := v.toNat }) ∧
    (∀ m (v : Reg32), s.reaches m 0 19 →
      diff32 s.chip.faults.prod s.chip.faults.cons < diff32 s.chip.faults.prod v.toNat →
      Gives (.fltLogCons m v) s fun t => t.chip.faults = s.chip.faults ∧ t.chip.bit 0 R.fltLogStatus 1 = true)

/-- The steward's set-ups of the log and of verdict records, and the check of the configuration: sweeps, the reference, the hold (R517,
R524, R543–R548). -/
def Obligations.ReportRowsComplete : Prop :=
  ∀ (s : State),
    (∀ e, s.chip.toRun stewardFn 0x68 e → 6 ≤ byteAt e.bytes 16 → byteAt e.bytes 16 ≤ 16 →
      ringAligned (leAt e.bytes 8 8) 32 (byteAt e.bytes 16) = true →
      exec .logSetup s = .next (s.onChip fun c =>
        let q := c.markRun stewardFn e.seq
        ({ q with faults := { q.faults with
            ring := some ⟨leAt e.bytes 8 8, byteAt e.bytes 16, leAt e.bytes 18 2⟩, prod := 0, cons := 0, unsignalled := false } }).endWith
          stewardFn e St.ok)) ∧
    (∀ e, s.chip.toRun stewardFn 0x69 e →
      exec .logStop s = .next (s.onChip fun c =>
        let q := (c.markRun stewardFn e.seq).logDiscard
        ({ q with faults := { q.faults with ring := none } }).endWith stewardFn e St.ok)) ∧
    (∀ e, s.chip.toRun stewardFn 0x6A e → s.chip.verdictFails e.bytes = none →
      exec .verdictSetup s = .next (s.onChip fun c =>
        ((c.markRun stewardFn e.seq).newVerd (byteAt e.bytes 8) (some (verdOfEntry e.bytes (min (byteAt e.bytes 21) 2)))).endWith
          stewardFn e St.ok 0 0 (toLE 1 (min (byteAt e.bytes 21) 2)))) ∧
    (∀ e, s.chip.toRun stewardFn 0x6B e →
      exec .verdictStop s = .next (s.onChip fun c =>
        ((c.markRun stewardFn e.seq).newVerd (byteAt e.bytes 8) none).endWith stewardFn e St.ok)) ∧
    (∀ d v, let q := s.chip.newVerd d v
      q.verdOf d = v ∧ tget 0 q.sp.dropCount d = 0 ∧ q.regs = s.chip.regs ∧ q.dp = s.chip.dp ∧ q.faults = s.chip.faults) ∧
    (s.chip.alive = true → (∀ d ∈ s.chip.allDies, s.chip.reach d 0 = true) → s.chip.cfg.slot < s.chip.steady / sweepNs →
      s.chip.cfg.busy = false → s.chip.cfg.waitNext = false →
      s.chip.cfg.refParts ≠ [] → s.chip.cfg.refParts = s.chip.sweep.sweepParts → s.chip.cfg.ref = s.chip.sweep.sweepResult →
      Gives .cfgCrcSweep s fun t =>
        t.chip.cfg.sweeps = wrapAdd 32 s.chip.cfg.sweeps 1 ∧ t.chip.cfg.now = s.chip.sweep.sweepResult ∧ t.chip.cfg.valid = true ∧
        t.chip.cfg.mismatch = false ∧ t.chip.regs = s.chip.regs ∧ t.chip.faults = s.chip.faults) ∧
    (∀ d a, s.chip.gateOpen d a.blk = true → s.chip.streamWord d a = s.chip.rd d a) ∧
    (∀ x, s.chip.gateOfBar4 x = false → tget 0#32 s.chip.sweep.cfg.swept x = tget 0#32 s.chip.cfg.swept x) ∧
    (s.chip.alive = true → s.chip.cfg.hold = true → s.chip.cfg.holdLong = false →
      s.chip.cfg.holdAt + 1000000000 ≤ s.chip.steady →
      exec .cfgCrcHoldLong s = .next (s.onChip fun c =>
        ({ c with cfg := { c.cfg with holdLong := true } }).raise Cls.cfgCrcHoldLong 0 { block := 0x25 })) ∧
    (∀ m (v : Reg32), s.reaches m 0 32 → v.getLsbD 1 = true → s.chip.cfg.busy = false →
      Gives (.cfgCrcCommit m v) s fun t =>
        t.chip.cfg = { s.chip.cfg with
          hold := v.getLsbD 0, holdLong := s.chip.cfg.holdLong && v.getLsbD 0
          holdAt := if s.chip.cfg.hold then s.chip.cfg.holdAt else s.chip.steady, busy := true, waitNext := true })

/-- Snapshots of R537: a write of a selection register puts the selected counter into the snapshot registers, and its clear bit
empties the counter. The register space is reached by `m` (R531). -/
def Obligations.SnapshotsTaken : Prop :=
  ∀ (s : State) (m : Master) (d : Nat) (v : Reg32),
    (∀ i, s.reaches m d 2 → v.getLsbD 31 = false → v.getLsbD 30 = true → bitsN v.toNat 0 20 = i →
      (d * 2 ^ 20 + i) ∉ s.chip.tb.badCtrs →
      Gives (.clsCntSel m d v .clean) s fun t =>
        t.chip.rd d R.clsCntSnapPktsLo = (tget (0, 0) s.chip.tb.ctrs (d * 2 ^ 20 + i)).1 % 2 ^ 32 ∧
        t.chip.rd d R.clsCntSnapBytesLo = (tget (0, 0) s.chip.tb.ctrs (d * 2 ^ 20 + i)).2 % 2 ^ 32 ∧
        tget (0, 0) t.chip.tb.ctrs (d * 2 ^ 20 + i) = (0, 0) ∧
        ∀ j, j ≠ d * 2 ^ 20 + i → tget (0, 0) t.chip.tb.ctrs j = tget (0, 0) s.chip.tb.ctrs j) ∧
    (s.reaches m d 5 →
      Gives (.bufOccSel m d v) s fun t =>
        t.chip.rd d R.bufOccSnapTotal = s.chip.poolUsed d (ofDest (v.getLsbD 12) (bitsN v.toNat 0 12)) % 2 ^ 32 ∧
        t.chip.rd d R.bufOccSnapOndie =
          s.chip.poolUsed d (fun q => isTenant q && ofDest (v.getLsbD 12) (bitsN v.toNat 0 12) q) % 2 ^ 32) ∧
    (∀ k, s.reaches m d 5 → bitN v.toNat 30 = false →
      k = ((d * 256 + bitsN v.toNat 0 8) * 2 + bitsN v.toNat 20 1) * 4096 + bitsN v.toNat 8 12 →
      Gives (.bufDropSel m d v) s fun t => t.chip.rd d R.bufDropSnap = tget 0 s.chip.tb.drops k % 2 ^ 32 ∧ t.chip.tb = s.chip.tb) ∧
    (∀ k, s.reaches m d 5 → bitN v.toNat 30 = true →
      k = ((d * 256 + bitsN v.toNat 0 8) * 2 + bitsN v.toNat 20 1) * 4096 + bitsN v.toNat 8 12 →
      Gives (.bufDropSel m d v) s fun t => t.chip.rd d R.bufDropSnap = tget 0 s.chip.tb.drops k % 2 ^ 32 ∧
        tget 0 t.chip.tb.drops k = 0) ∧
    (s.reaches m d 6 →
      Gives (.schShpSel m d v) s fun t =>
        t.chip.rd d R.schShpSnapRate = (s.chip.shaper (d * 131072 + bitsN v.toNat 0 17)).rate % 2 ^ 32 ∧
        t.chip.rd d R.schShpSnapCredit = sat32 ((s.chip.shaper (d * 131072 + bitsN v.toNat 0 17)).credit / (creditByte : Int))) ∧
    (s.reaches m d 7 → v.getLsbD 30 = true →
      Gives (.weiCntSel m d v) s fun t =>
        t.chip.rd d R.weiCntGreenLo = (tget Policer.none s.chip.qs.policers (d * 131072 + bitsN v.toNat 0 17)).green % 2 ^ 32 ∧
        (tget Policer.none t.chip.qs.policers (d * 131072 + bitsN v.toNat 0 17)) =
          { tget Policer.none s.chip.qs.policers (d * 131072 + bitsN v.toNat 0 17) with green := 0, yellow := 0, red := 0 }) ∧
    (∀ n, s.reaches m d 8 → bitN v.toNat 30 = true → n = s.chip.mac (d * 64 + bitsN v.toNat 0 6) (bitsN v.toNat 8 5) →
      Gives (.macCntSel m d v) s fun t =>
        t.chip.rd d R.macCntSnapLo = n % 2 ^ 32 ∧ t.chip.rd d ⟨R.macCntSnapLo.blk, R.macCntSnapLo.off + 4⟩ = n / 2 ^ 32 % 2 ^ 32 ∧
        t.chip.mac (d * 64 + bitsN v.toNat 0 6) (bitsN v.toNat 8 5) = 0) ∧
    (s.reaches m d 9 → v.getLsbD 30 = true →
      Gives (.cipSlotSel m d v) s fun t =>
        t.chip.rd d R.cipSlotAuthfail = (tget (0, 0) s.chip.cp.keyCtr (d * 65536 + bitsN v.toNat 0 16)).1 % 2 ^ 32 ∧
        t.chip.rd d R.cipSlotReplay = (tget (0, 0) s.chip.cp.keyCtr (d * 65536 + bitsN v.toNat 0 16)).2 % 2 ^ 32 ∧
        tget (0, 0) t.chip.cp.keyCtr (d * 65536 + bitsN v.toNat 0 16) = (0, 0)) ∧
    (s.reaches m d 11 → s.chip.ctx d (bitsN v.toNat 0 6) (bitsN v.toNat 6 7) = none →
      Gives (.dreCtxSel m d v) s fun t => t.chip.rd d R.dreCtxSnapState = 0 ∧ t.chip.rd d R.dreCtxSnapWords = 0) ∧
    (∀ k, s.reaches m d 11 → s.chip.ctx d (bitsN v.toNat 0 6) (bitsN v.toNat 6 7) = some k →
      Gives (.dreCtxSel m d v) s fun t => t.chip.rd d R.dreCtxSnapWords = min k.words (2 ^ 32 - 1) ∧ t.chip.dre = s.chip.dre)

/-- Register rows with an effect of their own: the enables, the Spillway, the mode, clocks, soft resets, and the plain 32-bit
write and read (R65, R470, R478, R494, R528, R531, R532). -/
def Obligations.RegisterRowsComplete : Prop :=
  ∀ (s : State) (m : Master) (d b : Nat) (v : Reg32),
    (s.reaches m d b → v.getLsbD 0 = true → b < 17 → b ≠ 3 →
      exec (.blockEnable m d b v) s = .next (s.onChip fun c => c.ctrlWrite m d b v)) ∧
    (s.reaches m d b → v.getLsbD 0 = false → b < 17 → b ≠ 3 →
      exec (.blockDisable m d b v) s = .next (s.onChip fun c => c.ctrlWrite m d b v)) ∧
    (s.reaches m d 5 → v.getLsbD 2 = false →
      exec (.spillDisable m d v) s = .next (s.onChip fun c => c.ctrlWrite m d 5 v)) ∧
    (∀ q, s.reaches m 0 32 → q = s.chip.writeStored m 0 R.pkgTenantMode v →
      (s.chip.mode = 1 ∨ q.mode ≠ 1 ∨ ∀ d ∈ q.allDies, q.en d 10 = true → q.macsecLanes d ≤ 16) →
      exec (.pkgTenantMode m v) s = .next (s.onChip fun c => if (c.mode == 3) = (q.mode == 3) then q else q.flowClear)) ∧
    (∀ q, s.reaches m 0 32 → q = s.chip.writeStored m 0 R.pkgTenantMode v → s.chip.mode ≠ 1 → q.mode = 1 → q.dies = 2 →
      q.en 0 10 = true → 16 < q.macsecLanes 0 →
      exec (.pkgTenantMode m v) s = .next (s.onChip fun c => c.raise Cls.cipCfgInvalid 0 { block := 10 })) ∧
    (∀ off a, s.chip.masterOk .tether = true → off < 0x40000000 → off % 4 = 0 → namedBar4 off = some (d, a) →
      s.chip.path .tether d a.blk = .clear → off ≠ 0x20100020 →
      exec (.registerWrite .tether off 4 (v.setWidth 64)) s = .next (s.onChip fun c => c.regWrite .tether d a v)) ∧
    (∀ off a x, s.chip.masterOk .tether = true → off < 0x40000000 → off % 4 = 0 → namedBar4 off = some (d, a) →
      s.chip.path .tether d a.blk = .clear →
      exec (.counterReadClear .tether off 4 x) s =
        .next ((s.regRead .tether d a).2.onChip fun c => c.emit (.regRead off (s.regRead .tether d a).1 x))) ∧
    (s.reaches m d 17 → b < 17 → v.getLsbD b = true →
      Gives (.clkGate m d v) s fun t => t.chip.gateOpen d b = true) ∧
    (s.reaches m d 17 → b < 17 → v.getLsbD b = false → b ≠ 3 → s.chip.blockDisabled d b = true →
      Gives (.clkGate m d v) s fun t => t.chip.bit d R.clkGate b = false) ∧
    (s.reaches m d 18 → b < 17 → b ≠ 3 → v.getLsbD b = true → s.chip.blockDisabled d b = true → s.chip.gateOpen d b = true →
      Gives (.pwrSoftRst m d v) s fun t => t.chip.bit d R.pwrSoftRst b = true) ∧
    (s.reaches m 0 17 →
      Gives (.clkTbRate m v) s fun t => t.chip.rate = max (-429497) (min 429497 v.toInt) ∧ t.chip.clk = s.chip.clk) ∧
    (s.reaches m 0 17 → v.getLsbD 31 = false → s.chip.clk.stepLo + v.toNat * 2 ^ 32 ≠ 0 →
      Gives (.clkTbStep m v) s fun t =>
        t.chip.clk.tb = s.chip.clk.tb + (s.chip.clk.stepLo + v.toNat * 2 ^ 32) * tbPerNs ∧
        t.chip.clk.learnHold = s.chip.steady + 4000 ∧ t.chip.steady = s.chip.steady ∧ t.chip.regs = s.chip.regs)

/-- Clocks, row by row (R471–R479): the Windsock's stages, its trips, the Pilot. `up` says that AUX_3V3 is present and PKG_RST_N
released. -/
def Obligations.ClockRowsComplete : Prop :=
  ∀ (s : State) (d : Nat), s.chip.pwr.aux = true → s.chip.pwr.inReset = false →
    (s.chip.clk.stage = .starting → s.chip.booting = false →
      Gives .pilotArmed s fun t => t.chip = { s.chip with clk := { s.chip.clk with stage := .armed } }) ∧
    (s.chip.clk.stage = .starting → s.chip.booting = true →
      Gives .pilotArmed s fun t => t.chip.clk.stage = .armed ∧ t.chip.boot = { s.chip.boot with state := .waitRefclk }) ∧
    (s.chip.clk.stage = .armed → s.chip.pwr.standby = true → s.chip.boot.state = .waitRefclk →
      Gives .refclkQualified s fun t => t.chip.clk.refclkOk = true ∧ t.chip.boot = { s.chip.boot with state := .start }) ∧
    (s.chip.clk.stage = .armed → s.chip.clk.refclkOk = true →
      Gives .pllLockAll s fun t =>
        t.chip = { s.chip with clk := { s.chip.clk with stage := .locked, pllLocked := true, mgmtOnPilot := false } }) ∧
    (s.chip.clk.stage = .armed → s.chip.clk.refclkOk = true → s.chip.hasDie d = true → s.chip.booting = true →
      exec (.pllLockTimeout d) s = .next (s.onChip fun c => c.bootFail Fail.hardware 0 d)) ∧
    (s.chip.clk.stage = .armed → s.chip.clk.refclkOk = true → s.chip.booting = true →
      Gives .refclkStopBeforeLock s fun t =>
        t.chip.clk = { s.chip.clk with refclkOk := false } ∧ t.chip.boot = { s.chip.boot with state := .waitRefclk }) ∧
    (s.chip.clk.refclkOk = true → s.chip.clk.pilotFailed = false →
      Gives (.pilotTrimTick .within) s fun t => t.chip = { s.chip with clk := { s.chip.clk with settled := true } }) ∧
    (s.chip.clk.refclkOk = true → s.chip.clk.pilotFailed = false → s.chip.clk.trim < 127 →
      Gives (.pilotTrimTick .slow) s fun t =>
        t.chip.clk.trim = s.chip.clk.trim + 1 ∧ t.chip.clk.settled = s.chip.clk.settled ∧ t.chip.clk.refCount = none ∧
        t.chip.clk.skipWindow = s.chip.clk.settled) ∧
    (s.chip.clk.refclkOk = true → s.chip.clk.pilotFailed = false → 0 < s.chip.clk.trim →
      Gives (.pilotTrimTick .fast) s fun t =>
        t.chip.clk.trim = s.chip.clk.trim - 1 ∧ t.chip.clk.settled = s.chip.clk.settled ∧ t.chip.clk.refCount = none ∧
        t.chip.clk.skipWindow = s.chip.clk.settled) ∧
    (s.chip.clk.trim = 127 → exec (.pilotTrimTick .slow) s = .next s) ∧
    (s.chip.clk.trim = 0 → exec (.pilotTrimTick .fast) s = .next s) ∧
    (s.chip.watching = true → s.chip.clk.pilotFailed = false →
      exec .refclkLost s = .next (s.onChip fun c => ({ c with clk := { c.clk with refclkOk := false } }).trip 1 0 0)) ∧
    (s.chip.watching = true → s.chip.hasDie d = true → d ≠ 0 →
      exec (.pllUnlocked d) s = .next (s.onChip fun c => c.trip 2 d 0)) ∧
    (∀ k n, s.chip.watching = true → s.chip.clk.settled = true → s.chip.clk.pilotFailed = false → s.chip.hasDie d = true → k < 7 →
      s.chip.pwr.psPg = true → s.chip.pwr.pgAt + 1000000 ≤ s.chip.steady → offFrequency k n = true →
      exec (.domainCountWindow d k n) s = .next (s.onChip fun c => c.trip 3 d k)) ∧
    (∀ n, s.chip.watching = true → s.chip.clk.settled = true → s.chip.clk.pilotFailed = false → s.chip.clk.skipWindow = false →
      s.chip.clk.refCount = none →
      Gives (.refclkFreqWindow n) s fun t => t.chip = { s.chip with clk := { s.chip.clk with refCount := some (n * 10000000) } }) ∧
    (∀ n r, s.chip.watching = true → s.chip.clk.settled = true → s.chip.clk.pilotFailed = false → s.chip.clk.skipWindow = false →
      s.chip.clk.refCount = some r → r < ((n * 10000000 : Nat) - (r : Int)).natAbs * 1000 →
      exec (.refclkFreqWindow n) s = .next (s.onChip fun c => c.trip 4 0 0)) ∧
    (s.chip.clk.stage = .locked → s.chip.clk.pilotFailed = false →
      exec .pilotEdgeTimeout s = .next (s.onChip fun c =>
        (({ c with clk := { c.clk with pilotFailed := true } }).hold .pilotFail).raise Cls.clkPilotFail 0 { block := 0x24 })) ∧
    (∀ b, s.chip.alive = true → s.chip.hasDie d = true → b < 17 → b ≠ 3 → s.chip.blockDisabled d b = true →
      exec (.gateForceTimeout d b) s = .next (s.onChip fun c =>
        ((c.wfld d R.clkGate b 1 0).wfld d R.clkGateFlags 0 1 1).raise Cls.clkGateForced d { block := b })) ∧
    (∀ b, s.chip.alive = true → s.chip.hasDie d = true → b < 17 → s.chip.bit d R.pwrSoftRst b = true →
      Gives (.softResetDone d b) s fun t => t.chip.bit d R.pwrSoftRst b = false)

/-- Supplies, telemetry and the resets of the package, row by row (R458, R481–R493, R560, R561). -/
def Obligations.PowerRowsComplete : Prop :=
  ∀ (s : State),
    (s.chip.pwr.aux = false → s.root.fuses.dieCount = 0b10#2 →
      Gives .auxPowerOn s fun t =>
        t.chip.dies = 4 ∧ t.chip.pwr.aux = true ∧ t.chip.pwr.inReset = true ∧ t.chip.regs = [] ∧ t.root = s.root) ∧
    (s.chip.pwr.aux = true →
    (∀ l, Gives (.psEnChange l) s fun t => t = s.onChip fun c => { c with pwr := { c.pwr with psEn := l } }) ∧
    (s.chip.pwr.psEn = true → s.chip.boot.state ≠ .waitPower →
      Gives .psPgRise s fun t => t = s.onChip fun c =>
        { c with pwr := { c.pwr with psPg := true, pgAt := if c.pwr.psPg then c.pwr.pgAt else c.steady } }) ∧
    (s.chip.pwr.psEn = true → s.chip.boot.state = .waitPower →
      Gives .psPgRise s fun t => t = s.onChip fun c =>
        { c with
          pwr := { c.pwr with psPg := true, pgAt := if c.pwr.psPg then c.pwr.pgAt else c.steady }
          boot := { c.boot with state := .start } }) ∧
    (∀ d, s.chip.pwr.psPg = true → s.chip.pwr.inReset = false → s.chip.hasDie d = true → s.chip.booting = false →
      exec (.psPgFall d) s = .next (s.onChip fun c =>
        ((({ c with pwr := { c.pwr with psPg := false, therm := false } }).hold .mainLost).raise Cls.pwrMainLost d
          { block := 0x23 }).watchAll fun c =>
            { c.dropMain with pwr := { c.pwr with mainDown := true, mainLost := true } })) ∧
    (∀ d, s.chip.pwr.psPg = true → s.chip.pwr.inReset = true →
      Gives (.psPgFall d) s fun t => t = s.onChip fun c => { c with pwr := { c.pwr with psPg := false, therm := false } }) ∧
    (∀ d rail, s.chip.pwr.inReset = false → s.chip.hasDie d = true →
      exec (.powerStageFault .railLimit d rail) s = .next (s.onChip fun c =>
        ({ c with pwr := { c.pwr with psFlt := true, fltCause := 2, fltDie := d % 8 } }).raise Cls.pwrStageFault d
          { block := 0x23, cause := 2, value := rail })) ∧
    (Gives .psFltFall s fun t => t = s.onChip fun c => { c with pwr := { c.pwr with psFlt := false } }) ∧
    (∀ v i p rails, s.chip.mgmtUp = true →
      Gives (.telemetryUpdate v i p rails) s fun t => t = s.onChip fun c =>
        { c with pwr := { c.pwr with vbus := v.toNat, ibus := i.toNat, power := p.toNat, rails := rails, stale := false } }) ∧
    (s.chip.mgmtUp = true →
      exec .telemetryTimeout s = .next (s.onChip fun c =>
        ({ c with pwr := { c.pwr with stale := true } }).raise Cls.pwrLinkFail 0 { block := 0x23 })) ∧
    (∀ d l k, s.chip.pwr.mainDown = false → s.chip.pwr.psPg = true → s.chip.hasDie d = true → k < 16 →
      thermLimit (d * 16 + k) ≤ l.getD k 0 →
      Gives (.sensorUpdate d l) s fun t => tget 0 t.chip.pwr.sensors (d * 16 + k) = l.getD k 0 ∧ t.chip.pwr.therm = true) ∧
    (s.chip.pwr.inReset = true ∨ s.chip.clk.stage = .starting →
      Gives (.standbyRailsChange false) s fun t => t = s.onChip fun c => { c with pwr := { c.pwr with standby := false } }) ∧
    (s.chip.pwr.inReset = false → s.chip.clk.stage = .locked →
      exec (.standbyRailsChange false) s = .next (s.onChip fun c => refclkLost { c with pwr := { c.pwr with standby := false } })) ∧
    (s.chip.pwr.inReset = false →
      exec .pkgRstAssert s = .next { s with
        root := s.root.pkgReset s.chip.free, chip := { s.chip.pkgReset with free := s.chip.free + s.root.cutDraws } }) ∧
    (∀ a b c, s.chip.pwr.inReset = true → s.root.fuses.dieCount = 0b01#2 →
      Gives (.pkgRstRelease a b c) s fun t => t = { s with chip := { s.chip with
        dies := 2, pwr := { s.chip.pwr with inReset := false }
        boot := { Boot.reset with step := 1, bootSel := a, rcvPort := b, smbAddr := c, slotB := decide (a = 0b01#2) } } }) ∧
    (Gives .auxPowerLoss s fun t => t.chip.pwr.aux = false ∧ t.chip.regs = [] ∧ t.pending = s.pending ∧
      t.chip.pwr.standby = s.chip.pwr.standby ∧ t.chip.pwr.perst = s.chip.pwr.perst)) ∧
    (s.chip.pwr.aux = false →
      Gives (.standbyRailsChange false) s fun t => t = s.onChip fun c => { c with pwr := { c.pwr with standby := false } })

/-- The steps of the boot, and what it ends in (R453–R457). -/
def Obligations.BootStepsComplete : Prop :=
  ∀ (s : State) (hw : Option Nat), s.chip.pwr.aux = true → s.chip.pwr.inReset = false → s.chip.tetherUp = true → s.chip.booting = true →
    (s.chip.boot.step = 1 →
      Gives (.bootStepComplete hw) s fun t => t = s.onChip fun c => { c with boot := { c.boot with step := 2 } }) ∧
    (∀ d, s.chip.boot.step = 2 → hw = some d → s.chip.hasDie d = true →
      exec (.bootStepComplete hw) s = .next (s.onChip fun c => c.bootFail Fail.hardware 0 d)) ∧
    (s.chip.boot.step = 2 → hw = none → s.chip.clk.stage = .locked → s.chip.boot.bootSel = 0b00#2 → s.root.fuses.valid = true →
      Gives (.bootStepComplete hw) s fun t => t = s.onChip fun c =>
        { c with clk := { c.clk with tb := 0, tbRun := true }, boot := { c.boot with
          step := 3, state := if c.pwr.psPg then .start else .waitPower } }) ∧
    (s.chip.boot.step = 2 → hw = none → s.chip.clk.stage = .locked → s.chip.boot.bootSel = 0b11#2 →
      exec (.bootStepComplete hw) s = .next (s.onChip fun c =>
        ({ c with clk := { c.clk with tb := 0, tbRun := true } }).bootFail Fail.strapInvalid 0 0)) ∧
    (s.chip.boot.step = 3 → s.chip.pwr.psPg = false →
      Gives (.bootStepComplete hw) s fun t => t = s.onChip fun c => { c with boot := { c.boot with state := .waitPower } }) ∧
    (s.chip.boot.step = 3 → s.chip.pwr.psPg = true → hw = none → s.root.nvmOk = true →
      Gives (.bootStepComplete hw) s fun t => t = s.onChip fun c => { c with boot := { c.boot with step := 4, state := .reading } }) ∧
    (s.chip.boot.step = 4 →
      exec (.bootStepComplete hw) s = .next (s.onChip fun c =>
        match s.root.headerFails c.boot.slotB c.dies with
        | none => { c with boot := { c.boot with step := 5, state := .reading, bifurcation := s.root.imgBe c.boot.slotB 20 4 } }
        | some code => c.bootFail code 0 0)) ∧
    (s.chip.boot.step = 5 →
      Gives (.bootStepComplete hw) s fun t => t.root = s.root ∧
        match s.root.imageFails s.chip.boot.slotB with
        | none => t.chip.boot.state = .verified ∧ t.chip.boot.step = 6 ∧ t.chip.boot.secVersion = s.root.imgBe s.chip.boot.slotB 16 4 ∧
            t.chip.regs = s.chip.regs
        | some code => t.chip = s.chip.bootFail code 0 0) ∧
    (s.chip.boot.step = 6 →
      Gives (.bootStepComplete hw) s fun t => t.chip =
        match (s.chip.loadConfig s.root).2 with
        | none => (s.chip.loadConfig s.root).1.nextStep .loading
        | some x => ((s.chip.loadConfig s.root).1.raise x.1 x.2 { block := 0x22, cause := (s.chip.loadConfig s.root).1.loadCause x.1 x.2 }).bootFail Fail.configError x.1 x.2) ∧
    (s.chip.boot.step = 7 →
      exec (.bootStepComplete hw) s = .next (s.onChip fun c =>
        match (c.loadMemories s.root).2 with
        | none => (c.loadMemories s.root).1.nextStep .enabling
        | some x => ((c.loadMemories s.root).1.raise x.1 x.2 { block := 0x22, cause := (c.loadMemories s.root).1.loadCause x.1 x.2 }).bootFail Fail.configError x.1 x.2)) ∧
    (s.chip.boot.step = 8 →
      exec (.bootStepComplete hw) s = .next (s.onChip fun c =>
        match c.enableAll.2 with
        | none => c.enableAll.1.nextStep .enabling
        | some x => (c.enableAll.1.raise x.1 x.2 { block := 0x22, cause := c.enableAll.1.loadCause x.1 x.2 }).bootFail Fail.configError x.1 x.2)) ∧
    (s.chip.boot.step = 9 → exec (.bootStepComplete hw) s = .next (s.onChip fun c => c.bootDone))

/-- Fuses and the recovery function, row by row (R457, R459, R460). -/
def Obligations.FuseRowsComplete : Prop :=
  ∀ (s : State) (m : Master),
    (s.chip.masterOk m = true → s.root.blow = none →
      Gives (.fuseArm m 0x46555340#32) s fun t => t = s.onRoot fun r => { r with armed := true }) ∧
    (Gives .fuseArmExpiry s fun t => t = s.onRoot fun r => { r with armed := false }) ∧
    (s.chip.masterOk m = true → s.root.blow = none → s.root.armed = true → s.root.arbCounter < s.chip.boot.secVersion →
      Gives (.advanceCounter m) s fun t => t = s.onRoot fun r =>
        { r with armed := false, blow := some (.counter s.chip.boot.secVersion) }) ∧
    (s.chip.masterOk m = true → s.root.blow = none → s.root.armed = false →
      Gives (.advanceCounter m) s fun t => t = s.onRoot fun r => { r with result := .notArmed }) ∧
    (s.chip.masterOk m = true → s.root.blow = none → s.root.armed = true →
      Gives (.debugLock m) s fun t => t = s.onRoot fun r => { r with armed := false, blow := some .lock }) ∧
    (s.root.blow = some .lock →
      Gives (.fuseBlowDone true) s fun t =>
        t.root = { s.root with blow := none, result := .ok, fuses := { s.root.fuses with debugLock := 0b1111#4 } }) ∧
    (∀ n, s.root.blow = some (.counter n) →
      Gives (.fuseBlowDone true) s fun t => t.root.blow = none ∧ t.root.result = .ok ∧
        t.root.fuses = { s.root.fuses with arb := s.root.fuses.arb ||| BitVec.ofNat 64 (2 ^ n - 1) }) ∧
    (∀ a l, s.chip.recovering = true → s.root.rcvOp = none →
      Gives (.rcvRead a l) s fun t => t = s.onRoot fun r => { r with rcvAddr := a.toNat, rcvLen := l.toNat, rcvOp := some 1 }) ∧
    (∀ a l, s.chip.recovering = true → s.root.rcvOp = none →
      Gives (.rcvErase a l) s fun t => t = s.onRoot fun r => { r with rcvAddr := a.toNat, rcvLen := l.toNat, rcvOp := some 2 }) ∧
    (∀ a l b, s.chip.recovering = true → s.root.rcvOp = none →
      Gives (.rcvProgram a l b) s fun t => t = s.onRoot fun r =>
        { r with rcvAddr := a.toNat, rcvLen := l.toNat, rcvOp := some 3, rcvBuf := twriteN 0#8 r.rcvBuf 0 (b.take 32768) }) ∧
    (s.root.rcvOp = some 3 → s.root.rcvReset = false → 0 < s.root.rcvLen → s.root.rcvAddr + s.root.rcvLen ≤ s.root.nvmSize →
      Gives (.rcvOpDone true) s fun t => t.root.rcvOp = none ∧ t.root.rcvResult = 0 ∧
        ∀ k, tget 0xFF#8 t.root.nvm k =
          if s.root.rcvAddr ≤ k ∧ k < s.root.rcvAddr + s.root.rcvLen then
            tget 0xFF#8 s.root.nvm k &&& tget 0#8 s.root.rcvBuf (k - s.root.rcvAddr)
          else tget 0xFF#8 s.root.nvm k) ∧
    (∀ v, s.chip.masterOk m = true →
      (s.root.blow = none → s.root.armed = false → v ≠ 0x46555340#32 →
        Gives (.fuseArm m v) s fun t => t.root.armed = false ∧ t.root.blow = none ∧ t.root.fuses = s.root.fuses) ∧
      (∀ b, s.root.blow = some b → ∀ i ∈ [Instr.fuseArm m v, .advanceCounter m, .debugLock m],
        exec i s = .next (s.onRoot fun r => { r with result := .busy })) ∧
      (s.root.blow = none → s.root.armed = false → ∀ i ∈ [Instr.advanceCounter m, .debugLock m],
        exec i s = .next (s.onRoot fun r => { r with result := .notArmed })) ∧
      (s.root.blow = none → s.root.armed = true → s.chip.boot.secVersion ≤ s.root.arbCounter →
        Gives (.advanceCounter m) s fun t => t.root.fuses = s.root.fuses ∧ t.root.blow = none ∧ t.root.armed = false))

/-- The management transports, row by row (R341, R461–R465, R515): the sideband, the mailbox, SPDM, the test port. The formats
are those of the standards the spec names, logs 35 to 37. -/
def Obligations.TransportRowsComplete : Prop :=
  ∀ (s : State),
    (∀ smb, s.chip.sideband smb = true →
      (∀ eid, exec (.setEndpointId smb eid) s = .next (s.onChip fun c =>
        ({ c with trust := { c.trust with eid := eid } }).answer "MCTP Set Endpoint ID" [0, eid])) ∧
      exec (.mctpControlDiscovery smb .endpointId) s = .next (s.onChip fun c => c.answer "MCTP Get Endpoint ID" [0, c.trust.eid]) ∧
      (∀ n, n < 16 * s.chip.dies → s.chip.pwr.psPg = true → s.chip.pwr.mainDown = false →
        exec (.pldmSensorRead smb n) s = .next (s.onChip fun c =>
          c.answer "PLDM GetSensorReading" (sensorReply 5 0 (toLE 4 (BitVec.ofInt 32 (tget 0 c.pwr.sensors n)).toNat)))) ∧
      (∀ n, n < 16 * s.chip.dies → s.chip.pwr.mainDown = true →
        exec (.pldmSensorRead smb n) s = .next (s.onChip fun c =>
          c.answer "PLDM GetSensorReading" (sensorReply 5 2 (toLE 4 (BitVec.ofInt 32 (tget 0 c.pwr.sensors n)).toNat)))) ∧
      exec (.vendorBootStatus smb) s = .next (s.onChip fun c =>
        c.answer "vendor" (vendorHead 1 ++ toBE 4 (s.regView 0 R.tetBootStatus) ++ toBE 4 (s.regView 0 R.tetImageInfo))) ∧
      (∀ d k, s.chip.hasDie d = true → k < 256 → (s.chip.cls d k).first = none → (s.chip.cls d k).last = none →
        exec (.vendorClassRead smb d k) s = .next (s.onChip fun c =>
          (c.setCls d k { c.cls d k with sbPending := false }).answer "vendor"
            (vendorHead 2 ++ toBE 4 (c.cls d k).count ++ List.replicate 32 0#8 ++ List.replicate 32 0#8)))) ∧
    (∀ smb, s.chip.sideband smb = false → ∀ eid n d k what,
      ∀ i ∈ [Instr.setEndpointId smb eid, .mctpControlDiscovery smb what, .pldmSensorRead smb n, .vendorBootStatus smb,
        .vendorClassRead smb d k, .getVersion (.sideband smb)], exec i s = .next s) ∧
    (s.chip.doeUp = true → s.chip.trust.doeError = false →
      exec (.doeDiscovery 1 0 3 0) s = .next (s.onChip fun c => c.answer "DOE Discovery" [1, 0, 0, 1]) ∧
      exec (.doeDiscovery 1 0 3 1) s = .next (s.onChip fun c => c.answer "DOE Discovery" [1, 0, 1, 0])) ∧
    (s.chip.doeUp = true → Gives .doeAbort s fun t => t.chip.trust = { s.chip.trust with doeError := false }) ∧
    (∀ via, s.chip.spdmUp via = true → s.chip.booted = true →
      exec (.getVersion via) s = .next (s.onChip fun c =>
        (c.setSession via { Spdm.none with phase := 1, vca := [0x10, 0x84, 0, 0, 0x10, 0x04, 0, 0, 0, 1, 0x00, 0x12] }).answer
          "SPDM VERSION" [0x10, 0x04, 0, 0, 0, 1, 0x00, 0x12]) ∧
      (∀ req, (s.chip.session via).phase = 1 →
        exec (.getCapabilities via req) s = .next (s.onChip fun c =>
          (c.setSession via { c.session via with phase := 3 }).spdmReply via .vca "SPDM CAPABILITIES" (spdmMsg 0xE1 0 0 req)
            (spdmMsg 0x61 0 0 ([0, BitVec.ofNat 8 (Config.spdmLimits 0), 0, 0] ++ toLE 4 0x16 ++ toLE 4 (Config.spdmLimits 1) ++
              toLE 4 (Config.spdmLimits 2))))) ∧
      (∀ req, (s.chip.session via).phase = 3 → byteAt req 2 = 1 → leAt req 4 4 = 0x200 → leAt req 8 4 = 0x40 →
        exec (.negotiateAlgorithms via req) s = .next (s.onChip fun c =>
          (c.setSession via { c.session via with phase := 7 }).spdmReply via .vca "SPDM ALGORITHMS" (spdmMsg 0xE3 0 0 req)
            (spdmMsg 0x63 0 0 ([36, 0, 1, 0] ++ toLE 4 0x80 ++ toLE 4 0x200 ++ toLE 4 0x40 ++ List.replicate 16 0#8)))) ∧
      ((s.chip.session via).phase = 7 → s.chip.boot.certPresent = true →
        exec (.getDigests via) s = .next (s.onChip fun c =>
          c.spdmReply via .certs "SPDM DIGESTS" (spdmMsg 0x81 0 0 []) (spdmMsg 0x01 0 1 c.chainDigest)) ∧
        (∀ off len, off < s.chip.spdmChain.length →
          exec (.getCertificate via 0 off len) s = .next (s.onChip fun c =>
            let part := (c.spdmChain.drop off).take len
            c.spdmReply via .certs "SPDM CERTIFICATE" (spdmMsg 0x82 0 0 (toLE 2 off ++ toLE 2 len))
              (spdmMsg 0x02 0 0 (toLE 2 part.length ++ toLE 2 (c.spdmChain.length - off - part.length) ++ part)))) ∧
        (∀ nonce, exec (.challenge via 0 0 nonce) s = .next (s.onChip fun c =>
          let x := c.session via
          let body := spdmMsg 0x03 0 1 (c.chainDigest ++ c.nonce ++ [0, 0])
          (c.draw.setSession via { x with certs := [], meas := [] }).answer "SPDM CHALLENGE_AUTH"
            (body ++ spdmSign s.root.fuses.identitySeed "responder-challenge_auth signing"
              (x.vca ++ x.certs ++ spdmMsg 0x83 0 0 nonce ++ body)))) ∧
        (∀ nonce slot, exec (.getMeasurements via 0 false nonce slot) s = .next (s.onChip fun c =>
          c.draw.spdmReply via .meas "SPDM MEASUREMENTS" (spdmMsg 0xE0 0 0 [])
            (spdmMsg 0x60 s.measurements.length 0 ([0, 0, 0, 0] ++ c.nonce ++ [0, 0])))) ∧
        (∀ nonce slot x, s.measurements.filter (fun m => m.index == 1) = [x] →
          exec (.getMeasurements via 1 false nonce slot) s = .next (s.onChip fun c =>
            c.draw.spdmReply via .meas "SPDM MEASUREMENTS" (spdmMsg 0xE0 0 1 [])
              (spdmMsg 0x60 0 0 (toLE 1 1 ++ toLE 3 x.bytes.length ++ x.bytes ++ c.nonce ++ [0, 0])))))) ∧
    (s.chip.pwr.aux = true →
      exec (.testPortInstruction .idcode) s = .next (s.onChip fun c => c.emit (.tdo "IDCODE" c.idcode)) ∧
      exec (.testPortInstruction .bypass) s = .next (s.onChip fun c => c.emit (.tdo "BYPASS" 0)) ∧
      (s.debugOk = true → exec (.testPortInstruction .debugHalt) s = .next (s.onChip fun c =>
        { c with trust := { c.trust with halted := true } })) ∧
      (∀ d a, s.debugOk = true → s.chip.debugDie d = true →
        exec (.testPortInstruction (.debugMemRead d .controlStore a)) s = .next (s.onChip fun c =>
          c.emit (.tdo "MEM" (bitsN (tget 0 c.dre.cstore (a / 24)) (8 * (a % 24)) 8)))) ∧
      (∀ d a b, s.debugOk = true → s.chip.debugDie d = true → a < 32768 * 24 →
        Gives (.testPortInstruction (.debugMemWrite d .controlStore a b)) s fun t =>
          bitsN (tget 0 t.chip.dre.cstore (a / 24)) (8 * (a % 24)) 8 = b.toNat ∧
          (∀ k, k ≠ a / 24 → tget 0 t.chip.dre.cstore k = tget 0 s.chip.dre.cstore k) ∧
          t.chip.regs = s.chip.regs ∧ t.chip.dp = s.chip.dp ∧ t.root = s.root) ∧
      (s.root.locked = true → ∀ off v d mem a b,
        ∀ i ∈ [TestInstr.debugHalt, .debugRegRead off, .debugRegWrite off v, .debugMemRead d mem a, .debugMemWrite d mem a b],
          exec (.testPortInstruction i) s = .next (s.onChip fun c => c.emit (.tdo "BYPASS" 0))))
end

