-- ==== Sys2Proof/Laws/Map.lean ====
section
/-! SUPPORT. Laws of the sparse tables: reading after writing, and the canonical form that every write keeps. -/

namespace Sys2Proof.Machine

variable {α : Type}

theorem tget_filter_same (d : α) (t : Tab α) (k : Nat) : tget d (t.filter fun e => e.1 != k) k = d := by
  induction t with
  | nil => rfl
  | cons e t ih =>
    obtain ⟨k', v⟩ := e
    by_cases h : k' = k
    · simpa [List.filter, h] using ih
    · have : (k' != k) = true := by simpa using h
      simp [List.filter, this, tget, h, ih]

theorem tget_filter_ne (d : α) (t : Tab α) {j k : Nat} (h : j ≠ k) :
    tget d (t.filter fun e => e.1 != k) j = tget d t j := by
  induction t with
  | nil => rfl
  | cons e t ih =>
    obtain ⟨k', v⟩ := e
    by_cases hk : k' = k
    · subst hk; simp [tget, ih, Ne.symm h]
    · have : (k' != k) = true := by simpa using hk
      simp only [List.filter, this, tget, ih]

theorem tget_tins_same (d : α) (t : Tab α) (k : Nat) (v : α) : tget d (tins t k v) k = v := by
  induction t with
  | nil => simp [tins, tget]
  | cons e t ih =>
    obtain ⟨k', v'⟩ := e
    simp only [tins]
    split
    · simp [tget]
    · split
      · simp [tget]
      · rename_i h; simp [tget, Ne.symm h, ih]

theorem tget_tins_ne (d : α) (t : Tab α) {j k : Nat} (v : α) (h : j ≠ k) : tget d (tins t k v) j = tget d t j := by
  induction t with
  | nil => simp [tins, tget, Ne.symm h]
  | cons e t ih =>
    obtain ⟨k', v'⟩ := e
    simp only [tins]
    split
    · simp [tget, Ne.symm h]
    · split
      · rename_i hk; subst hk; simp [tget, Ne.symm h]
      · simp only [tget, ih]

/-- Reading the key written gives the value written. -/
@[simp] theorem tget_tput_same [DecidableEq α] (d : α) (t : Tab α) (k : Nat) (v : α) : tget d (tput d t k v) k = v := by
  unfold tput
  split
  · rename_i h; rw [h]; exact tget_filter_same d t k
  · exact tget_tins_same d t k v

/-- A write leaves every other key alone. -/
theorem tget_tput_ne [DecidableEq α] (d : α) (t : Tab α) {j k : Nat} (v : α) (h : j ≠ k) :
    tget d (tput d t k v) j = tget d t j := by
  unfold tput
  split
  · exact tget_filter_ne d t h
  · exact tget_tins_ne d t v h

theorem tins_tins (t : Tab α) (k : Nat) (v w : α) : tins (tins t k w) k v = tins t k v := by
  induction t with
  | nil => simp [tins]
  | cons e t ih =>
    obtain ⟨j, x⟩ := e
    rcases lt_trichotomy k j with h | h | h
    · simp [tins, h]
    · simp [tins, h]
    · simp [tins, Nat.not_lt.mpr h.le, (ne_of_gt h), ih]

theorem filter_tins (t : Tab α) (k : Nat) (w : α) : ((tins t k w).filter fun e => e.1 != k) = t.filter fun e => e.1 != k := by
  induction t with
  | nil => simp [tins]
  | cons e t ih =>
    obtain ⟨j, x⟩ := e
    rcases lt_trichotomy k j with h | h | h
    · simp [tins, h]
    · simp [tins, h]
    · simp only [tins, Nat.not_lt.mpr h.le, if_false, if_neg (ne_of_gt h), List.filter_cons, ih]

/-- The later of two writes of a key stands, where the earlier is not of the default. -/
theorem tput_tput [DecidableEq α] (d : α) (t : Tab α) (k : Nat) {v w : α} (h : w ≠ d) : tput d (tput d t k w) k v = tput d t k v := by
  unfold tput
  rw [if_neg h]
  split
  · exact filter_tins t k w
  · exact tins_tins t k v w

/-- Both laws at once. -/
theorem tget_tput [DecidableEq α] (d : α) (t : Tab α) (j k : Nat) (v : α) :
    tget d (tput d t k v) j = if j = k then v else tget d t j := by
  split
  · rename_i h; rw [h, tget_tput_same]
  · rename_i h; exact tget_tput_ne d t v h

theorem tabWfFrom_mono [DecidableEq α] {d : α} {t : Tab α} {lo lo' : Nat} (h : lo' ≤ lo) (w : tabWfFrom d lo t = true) :
    tabWfFrom d lo' t = true := by
  cases t with
  | nil => rfl
  | cons e t =>
    obtain ⟨k, v⟩ := e
    simp only [tabWfFrom, Bool.and_eq_true, decide_eq_true_eq] at w ⊢
    exact ⟨⟨le_trans h w.1.1, w.1.2⟩, w.2⟩

theorem tabWfFrom_filter [DecidableEq α] {d : α} {t : Tab α} {lo : Nat} (p : Nat × α → Bool) (w : tabWfFrom d lo t = true) :
    tabWfFrom d lo (t.filter p) = true := by
  induction t generalizing lo with
  | nil => rfl
  | cons e t ih =>
    obtain ⟨k, v⟩ := e
    simp only [tabWfFrom, Bool.and_eq_true, decide_eq_true_eq] at w
    by_cases h : p (k, v) = true
    · simp only [List.filter, h, tabWfFrom, Bool.and_eq_true, decide_eq_true_eq]
      exact ⟨w.1, ih w.2⟩
    · have h' : p (k, v) = false := by simpa using h
      simp only [List.filter, h']
      exact tabWfFrom_mono (by omega) (ih w.2)

theorem tabWfFrom_tins [DecidableEq α] {d : α} {t : Tab α} {lo k : Nat} {v : α} (w : tabWfFrom d lo t = true) (hk : lo ≤ k)
    (hv : v ≠ d) : tabWfFrom d lo (tins t k v) = true := by
  induction t generalizing lo with
  | nil => simp [tins, tabWfFrom, hk, hv]
  | cons e t ih =>
    obtain ⟨k', v'⟩ := e
    simp only [tabWfFrom, Bool.and_eq_true, decide_eq_true_eq] at w
    simp only [tins]
    split
    · simp only [tabWfFrom, Bool.and_eq_true, decide_eq_true_eq]
      exact ⟨⟨hk, by simpa using hv⟩, ⟨by omega, w.1.2⟩, w.2⟩
    · split
      · rename_i h; subst h
        simp only [tabWfFrom, Bool.and_eq_true, decide_eq_true_eq]
        exact ⟨⟨hk, by simpa using hv⟩, w.2⟩
      · simp only [tabWfFrom, Bool.and_eq_true, decide_eq_true_eq]
        exact ⟨w.1, ih w.2 (by omega)⟩

/-- A write keeps the canonical form. -/
theorem tput_wf [DecidableEq α] {d : α} {t : Tab α} (k : Nat) (v : α) (w : tabWf d t = true) : tabWf d (tput d t k v) = true := by
  unfold tput
  split
  · exact tabWfFrom_filter _ w
  · rename_i h; exact tabWfFrom_tins w (Nat.zero_le k) h

theorem tmod_wf [DecidableEq α] {d : α} {t : Tab α} (k : Nat) (f : α → α) (w : tabWf d t = true) : tabWf d (tmod d t k f) = true :=
  tput_wf k _ w

theorem tdrop_wf [DecidableEq α] {d : α} {t : Tab α} (p : Nat → Bool) (w : tabWf d t = true) : tabWf d (tdrop p t) = true :=
  tabWfFrom_filter _ w

theorem twriteN_wf [DecidableEq α] {d : α} {t : Tab α} (a : Nat) (vs : List α) (w : tabWf d t = true) :
    tabWf d (twriteN d t a vs) = true := by
  induction vs generalizing t a with
  | nil => exact w
  | cons v vs ih => exact ih (a + 1) (tput_wf a v w)

theorem tfillN_wf [DecidableEq α] {d : α} {t : Tab α} (a n : Nat) (v : α) (w : tabWf d t = true) :
    tabWf d (tfillN d t a n v) = true := by
  unfold tfillN
  split
  · exact tdrop_wf _ w
  · exact twriteN_wf _ _ w

/-- Reading a dropped key gives the default, another key what it held. -/
theorem tget_tdrop (d : α) (p : Nat → Bool) (t : Tab α) (k : Nat) : tget d (tdrop p t) k = if p k then d else tget d t k := by
  induction t with
  | nil => simp [tdrop, tget]
  | cons e t ih =>
    obtain ⟨k', v⟩ := e
    unfold tdrop at ih ⊢
    by_cases hp : p k' = true
    · simp only [List.filter, hp, Bool.not_true, ih, tget]
      by_cases hk : k' = k
      · subst hk; simp [hp]
      · simp [hk]
    · have hp' : p k' = false := by simpa using hp
      simp only [List.filter, hp', Bool.not_false, ih, tget]
      by_cases hk : k' = k
      · subst hk; simp [hp']
      · simp [hk]

/-- What a block write leaves at a key: the value at its place in the block, or what was there. -/
theorem tget_twriteN [DecidableEq α] (d : α) (t : Tab α) (a : Nat) (vs : List α) (k : Nat) :
    tget d (twriteN d t a vs) k = if h : a ≤ k ∧ k - a < vs.length then vs[k - a]'h.2 else tget d t k := by
  induction vs generalizing t a with
  | nil => simp [twriteN]
  | cons v vs ih =>
    simp only [twriteN, ih]
    by_cases h : a + 1 ≤ k ∧ k - (a + 1) < vs.length
    · have h' : a ≤ k ∧ k - a < (v :: vs).length := by simp only [List.length_cons]; omega
      rw [dif_pos h, dif_pos h']
      have e : k - a = (k - (a + 1)) + 1 := by omega
      simp only [e, List.getElem_cons_succ]
    · rw [dif_neg h, tget_tput]
      by_cases hk : k = a
      · subst hk; simp
      · have h' : ¬ (a ≤ k ∧ k - a < (v :: vs).length) := by simp only [List.length_cons]; omega
        rw [dif_neg h', if_neg hk]

/-- A block write leaves every key outside it alone. -/
theorem tget_twriteN_out [DecidableEq α] (d : α) (t : Tab α) (a : Nat) (vs : List α) (k : Nat) (h : k < a ∨ a + vs.length ≤ k) :
    tget d (twriteN d t a vs) k = tget d t k := by
  rw [tget_twriteN, dif_neg (by omega)]

end Sys2Proof.Machine
end

