-- ==== Sys2Proof/Laws/State.lean ====
section
/-! SUPPORT. One lemma per field and update of the state, each true by unfolding the update. -/

namespace Sys2Proof.Machine

@[simp] theorem State.onChip_pending (f : Chip → Chip) (s : State) : (s.onChip f).pending = s.pending := (rfl)
@[simp] theorem State.onChip_root (f : Chip → Chip) (s : State) : (s.onChip f).root = s.root := (rfl)
@[simp] theorem State.onChip_chip (f : Chip → Chip) (s : State) : (s.onChip f).chip = f s.chip := (rfl)
@[simp] theorem State.onRoot_pending (f : Root → Root) (s : State) : (s.onRoot f).pending = s.pending := (rfl)
@[simp] theorem State.onRoot_root (f : Root → Root) (s : State) : (s.onRoot f).root = f s.root := (rfl)
@[simp] theorem State.onRoot_chip (f : Root → Root) (s : State) : (s.onRoot f).chip = s.chip := (rfl)

/-! emit -/

@[simp] theorem Chip.emit_dies (c : Chip) (o : Out) : (c.emit o).dies = c.dies := rfl
@[simp] theorem Chip.emit_free (c : Chip) (o : Out) : (c.emit o).free = c.free := rfl
@[simp] theorem Chip.emit_clk (c : Chip) (o : Out) : (c.emit o).clk = c.clk := rfl
@[simp] theorem Chip.emit_pwr (c : Chip) (o : Out) : (c.emit o).pwr = c.pwr := rfl
@[simp] theorem Chip.emit_boot (c : Chip) (o : Out) : (c.emit o).boot = c.boot := rfl
@[simp] theorem Chip.emit_trust (c : Chip) (o : Out) : (c.emit o).trust = c.trust := rfl
@[simp] theorem Chip.emit_cfg (c : Chip) (o : Out) : (c.emit o).cfg = c.cfg := rfl
@[simp] theorem Chip.emit_faults (c : Chip) (o : Out) : (c.emit o).faults = c.faults := rfl
@[simp] theorem Chip.emit_regs (c : Chip) (o : Out) : (c.emit o).regs = c.regs := rfl
@[simp] theorem Chip.emit_fns (c : Chip) (o : Out) : (c.emit o).fns = c.fns := rfl
@[simp] theorem Chip.emit_tags (c : Chip) (o : Out) : (c.emit o).tags = c.tags := rfl
@[simp] theorem Chip.emit_culDown (c : Chip) (o : Out) : (c.emit o).culDown = c.culDown := rfl
@[simp] theorem Chip.emit_culTrain (c : Chip) (o : Out) : (c.emit o).culTrain = c.culTrain := rfl
@[simp] theorem Chip.emit_insts (c : Chip) (o : Out) : (c.emit o).insts = c.insts := rfl
@[simp] theorem Chip.emit_keygens (c : Chip) (o : Out) : (c.emit o).keygens = c.keygens := rfl
@[simp] theorem Chip.emit_chans (c : Chip) (o : Out) : (c.emit o).chans = c.chans := rfl
@[simp] theorem Chip.emit_dmas (c : Chip) (o : Out) : (c.emit o).dmas = c.dmas := rfl
@[simp] theorem Chip.emit_mapWait (c : Chip) (o : Out) : (c.emit o).mapWait = c.mapWait := rfl
@[simp] theorem Chip.emit_commit (c : Chip) (o : Out) : (c.emit o).commit = c.commit := rfl
@[simp] theorem Chip.emit_dp (c : Chip) (o : Out) : (c.emit o).dp = c.dp := rfl
@[simp] theorem Chip.emit_rl (c : Chip) (o : Out) : (c.emit o).rl = c.rl := rfl
@[simp] theorem Chip.emit_tb (c : Chip) (o : Out) : (c.emit o).tb = c.tb := rfl
@[simp] theorem Chip.emit_qs (c : Chip) (o : Out) : (c.emit o).qs = c.qs := rfl
@[simp] theorem Chip.emit_cp (c : Chip) (o : Out) : (c.emit o).cp = c.cp := rfl
@[simp] theorem Chip.emit_dre (c : Chip) (o : Out) : (c.emit o).dre = c.dre := rfl
@[simp] theorem Chip.emit_sp (c : Chip) (o : Out) : (c.emit o).sp = c.sp := rfl
@[simp] theorem Chip.emit_out (c : Chip) (o : Out) : (c.emit o).out = c.out ++ [o] := rfl

/-! draw -/

@[simp] theorem Chip.draw_dies (c : Chip)  : (c.draw).dies = c.dies := rfl
@[simp] theorem Chip.draw_clk (c : Chip)  : (c.draw).clk = c.clk := rfl
@[simp] theorem Chip.draw_pwr (c : Chip)  : (c.draw).pwr = c.pwr := rfl
@[simp] theorem Chip.draw_boot (c : Chip)  : (c.draw).boot = c.boot := rfl
@[simp] theorem Chip.draw_trust (c : Chip)  : (c.draw).trust = c.trust := rfl
@[simp] theorem Chip.draw_cfg (c : Chip)  : (c.draw).cfg = c.cfg := rfl
@[simp] theorem Chip.draw_faults (c : Chip)  : (c.draw).faults = c.faults := rfl
@[simp] theorem Chip.draw_regs (c : Chip)  : (c.draw).regs = c.regs := rfl
@[simp] theorem Chip.draw_fns (c : Chip)  : (c.draw).fns = c.fns := rfl
@[simp] theorem Chip.draw_tags (c : Chip)  : (c.draw).tags = c.tags := rfl
@[simp] theorem Chip.draw_culDown (c : Chip)  : (c.draw).culDown = c.culDown := rfl
@[simp] theorem Chip.draw_culTrain (c : Chip)  : (c.draw).culTrain = c.culTrain := rfl
@[simp] theorem Chip.draw_insts (c : Chip)  : (c.draw).insts = c.insts := rfl
@[simp] theorem Chip.draw_keygens (c : Chip)  : (c.draw).keygens = c.keygens := rfl
@[simp] theorem Chip.draw_chans (c : Chip)  : (c.draw).chans = c.chans := rfl
@[simp] theorem Chip.draw_dmas (c : Chip)  : (c.draw).dmas = c.dmas := rfl
@[simp] theorem Chip.draw_mapWait (c : Chip)  : (c.draw).mapWait = c.mapWait := rfl
@[simp] theorem Chip.draw_commit (c : Chip)  : (c.draw).commit = c.commit := rfl
@[simp] theorem Chip.draw_dp (c : Chip)  : (c.draw).dp = c.dp := rfl
@[simp] theorem Chip.draw_rl (c : Chip)  : (c.draw).rl = c.rl := rfl
@[simp] theorem Chip.draw_tb (c : Chip)  : (c.draw).tb = c.tb := rfl
@[simp] theorem Chip.draw_qs (c : Chip)  : (c.draw).qs = c.qs := rfl
@[simp] theorem Chip.draw_cp (c : Chip)  : (c.draw).cp = c.cp := rfl
@[simp] theorem Chip.draw_dre (c : Chip)  : (c.draw).dre = c.dre := rfl
@[simp] theorem Chip.draw_sp (c : Chip)  : (c.draw).sp = c.sp := rfl
@[simp] theorem Chip.draw_out (c : Chip)  : (c.draw).out = c.out := rfl
@[simp] theorem Chip.draw_free (c : Chip)  : (c.draw).free = c.free + 1 := rfl

/-! setFn -/

@[simp] theorem Chip.setFn_dies (c : Chip) (k : Nat) (f : PciFn) : (c.setFn k f).dies = c.dies := rfl
@[simp] theorem Chip.setFn_free (c : Chip) (k : Nat) (f : PciFn) : (c.setFn k f).free = c.free := rfl
@[simp] theorem Chip.setFn_clk (c : Chip) (k : Nat) (f : PciFn) : (c.setFn k f).clk = c.clk := rfl
@[simp] theorem Chip.setFn_pwr (c : Chip) (k : Nat) (f : PciFn) : (c.setFn k f).pwr = c.pwr := rfl
@[simp] theorem Chip.setFn_boot (c : Chip) (k : Nat) (f : PciFn) : (c.setFn k f).boot = c.boot := rfl
@[simp] theorem Chip.setFn_trust (c : Chip) (k : Nat) (f : PciFn) : (c.setFn k f).trust = c.trust := rfl
@[simp] theorem Chip.setFn_cfg (c : Chip) (k : Nat) (f : PciFn) : (c.setFn k f).cfg = c.cfg := rfl
@[simp] theorem Chip.setFn_faults (c : Chip) (k : Nat) (f : PciFn) : (c.setFn k f).faults = c.faults := rfl
@[simp] theorem Chip.setFn_regs (c : Chip) (k : Nat) (f : PciFn) : (c.setFn k f).regs = c.regs := rfl
@[simp] theorem Chip.setFn_tags (c : Chip) (k : Nat) (f : PciFn) : (c.setFn k f).tags = c.tags := rfl
@[simp] theorem Chip.setFn_culDown (c : Chip) (k : Nat) (f : PciFn) : (c.setFn k f).culDown = c.culDown := rfl
@[simp] theorem Chip.setFn_culTrain (c : Chip) (k : Nat) (f : PciFn) : (c.setFn k f).culTrain = c.culTrain := rfl
@[simp] theorem Chip.setFn_insts (c : Chip) (k : Nat) (f : PciFn) : (c.setFn k f).insts = c.insts := rfl
@[simp] theorem Chip.setFn_keygens (c : Chip) (k : Nat) (f : PciFn) : (c.setFn k f).keygens = c.keygens := rfl
@[simp] theorem Chip.setFn_chans (c : Chip) (k : Nat) (f : PciFn) : (c.setFn k f).chans = c.chans := rfl
@[simp] theorem Chip.setFn_dmas (c : Chip) (k : Nat) (f : PciFn) : (c.setFn k f).dmas = c.dmas := rfl
@[simp] theorem Chip.setFn_mapWait (c : Chip) (k : Nat) (f : PciFn) : (c.setFn k f).mapWait = c.mapWait := rfl
@[simp] theorem Chip.setFn_commit (c : Chip) (k : Nat) (f : PciFn) : (c.setFn k f).commit = c.commit := rfl
@[simp] theorem Chip.setFn_dp (c : Chip) (k : Nat) (f : PciFn) : (c.setFn k f).dp = c.dp := rfl
@[simp] theorem Chip.setFn_rl (c : Chip) (k : Nat) (f : PciFn) : (c.setFn k f).rl = c.rl := rfl
@[simp] theorem Chip.setFn_tb (c : Chip) (k : Nat) (f : PciFn) : (c.setFn k f).tb = c.tb := rfl
@[simp] theorem Chip.setFn_qs (c : Chip) (k : Nat) (f : PciFn) : (c.setFn k f).qs = c.qs := rfl
@[simp] theorem Chip.setFn_cp (c : Chip) (k : Nat) (f : PciFn) : (c.setFn k f).cp = c.cp := rfl
@[simp] theorem Chip.setFn_dre (c : Chip) (k : Nat) (f : PciFn) : (c.setFn k f).dre = c.dre := rfl
@[simp] theorem Chip.setFn_sp (c : Chip) (k : Nat) (f : PciFn) : (c.setFn k f).sp = c.sp := rfl
@[simp] theorem Chip.setFn_out (c : Chip) (k : Nat) (f : PciFn) : (c.setFn k f).out = c.out := rfl

/-! setInst -/

@[simp] theorem Chip.setInst_dies (c : Chip) (i : Nat) (x : Inst) : (c.setInst i x).dies = c.dies := rfl
@[simp] theorem Chip.setInst_free (c : Chip) (i : Nat) (x : Inst) : (c.setInst i x).free = c.free := rfl
@[simp] theorem Chip.setInst_clk (c : Chip) (i : Nat) (x : Inst) : (c.setInst i x).clk = c.clk := rfl
@[simp] theorem Chip.setInst_pwr (c : Chip) (i : Nat) (x : Inst) : (c.setInst i x).pwr = c.pwr := rfl
@[simp] theorem Chip.setInst_boot (c : Chip) (i : Nat) (x : Inst) : (c.setInst i x).boot = c.boot := rfl
@[simp] theorem Chip.setInst_trust (c : Chip) (i : Nat) (x : Inst) : (c.setInst i x).trust = c.trust := rfl
@[simp] theorem Chip.setInst_cfg (c : Chip) (i : Nat) (x : Inst) : (c.setInst i x).cfg = c.cfg := rfl
@[simp] theorem Chip.setInst_faults (c : Chip) (i : Nat) (x : Inst) : (c.setInst i x).faults = c.faults := rfl
@[simp] theorem Chip.setInst_regs (c : Chip) (i : Nat) (x : Inst) : (c.setInst i x).regs = c.regs := rfl
@[simp] theorem Chip.setInst_fns (c : Chip) (i : Nat) (x : Inst) : (c.setInst i x).fns = c.fns := rfl
@[simp] theorem Chip.setInst_tags (c : Chip) (i : Nat) (x : Inst) : (c.setInst i x).tags = c.tags := rfl
@[simp] theorem Chip.setInst_culDown (c : Chip) (i : Nat) (x : Inst) : (c.setInst i x).culDown = c.culDown := rfl
@[simp] theorem Chip.setInst_culTrain (c : Chip) (i : Nat) (x : Inst) : (c.setInst i x).culTrain = c.culTrain := rfl
@[simp] theorem Chip.setInst_keygens (c : Chip) (i : Nat) (x : Inst) : (c.setInst i x).keygens = c.keygens := rfl
@[simp] theorem Chip.setInst_chans (c : Chip) (i : Nat) (x : Inst) : (c.setInst i x).chans = c.chans := rfl
@[simp] theorem Chip.setInst_dmas (c : Chip) (i : Nat) (x : Inst) : (c.setInst i x).dmas = c.dmas := rfl
@[simp] theorem Chip.setInst_mapWait (c : Chip) (i : Nat) (x : Inst) : (c.setInst i x).mapWait = c.mapWait := rfl
@[simp] theorem Chip.setInst_commit (c : Chip) (i : Nat) (x : Inst) : (c.setInst i x).commit = c.commit := rfl
@[simp] theorem Chip.setInst_dp (c : Chip) (i : Nat) (x : Inst) : (c.setInst i x).dp = c.dp := rfl
@[simp] theorem Chip.setInst_rl (c : Chip) (i : Nat) (x : Inst) : (c.setInst i x).rl = c.rl := rfl
@[simp] theorem Chip.setInst_tb (c : Chip) (i : Nat) (x : Inst) : (c.setInst i x).tb = c.tb := rfl
@[simp] theorem Chip.setInst_qs (c : Chip) (i : Nat) (x : Inst) : (c.setInst i x).qs = c.qs := rfl
@[simp] theorem Chip.setInst_cp (c : Chip) (i : Nat) (x : Inst) : (c.setInst i x).cp = c.cp := rfl
@[simp] theorem Chip.setInst_dre (c : Chip) (i : Nat) (x : Inst) : (c.setInst i x).dre = c.dre := rfl
@[simp] theorem Chip.setInst_sp (c : Chip) (i : Nat) (x : Inst) : (c.setInst i x).sp = c.sp := rfl
@[simp] theorem Chip.setInst_out (c : Chip) (i : Nat) (x : Inst) : (c.setInst i x).out = c.out := rfl

/-! setChan -/

@[simp] theorem Chip.setChan_dies (c : Chip) (f : Nat) (x : Chan) : (c.setChan f x).dies = c.dies := rfl
@[simp] theorem Chip.setChan_free (c : Chip) (f : Nat) (x : Chan) : (c.setChan f x).free = c.free := rfl
@[simp] theorem Chip.setChan_clk (c : Chip) (f : Nat) (x : Chan) : (c.setChan f x).clk = c.clk := rfl
@[simp] theorem Chip.setChan_pwr (c : Chip) (f : Nat) (x : Chan) : (c.setChan f x).pwr = c.pwr := rfl
@[simp] theorem Chip.setChan_boot (c : Chip) (f : Nat) (x : Chan) : (c.setChan f x).boot = c.boot := rfl
@[simp] theorem Chip.setChan_trust (c : Chip) (f : Nat) (x : Chan) : (c.setChan f x).trust = c.trust := rfl
@[simp] theorem Chip.setChan_cfg (c : Chip) (f : Nat) (x : Chan) : (c.setChan f x).cfg = c.cfg := rfl
@[simp] theorem Chip.setChan_faults (c : Chip) (f : Nat) (x : Chan) : (c.setChan f x).faults = c.faults := rfl
@[simp] theorem Chip.setChan_regs (c : Chip) (f : Nat) (x : Chan) : (c.setChan f x).regs = c.regs := rfl
@[simp] theorem Chip.setChan_fns (c : Chip) (f : Nat) (x : Chan) : (c.setChan f x).fns = c.fns := rfl
@[simp] theorem Chip.setChan_tags (c : Chip) (f : Nat) (x : Chan) : (c.setChan f x).tags = c.tags := rfl
@[simp] theorem Chip.setChan_culDown (c : Chip) (f : Nat) (x : Chan) : (c.setChan f x).culDown = c.culDown := rfl
@[simp] theorem Chip.setChan_culTrain (c : Chip) (f : Nat) (x : Chan) : (c.setChan f x).culTrain = c.culTrain := rfl
@[simp] theorem Chip.setChan_insts (c : Chip) (f : Nat) (x : Chan) : (c.setChan f x).insts = c.insts := rfl
@[simp] theorem Chip.setChan_keygens (c : Chip) (f : Nat) (x : Chan) : (c.setChan f x).keygens = c.keygens := rfl
@[simp] theorem Chip.setChan_dmas (c : Chip) (f : Nat) (x : Chan) : (c.setChan f x).dmas = c.dmas := rfl
@[simp] theorem Chip.setChan_mapWait (c : Chip) (f : Nat) (x : Chan) : (c.setChan f x).mapWait = c.mapWait := rfl
@[simp] theorem Chip.setChan_commit (c : Chip) (f : Nat) (x : Chan) : (c.setChan f x).commit = c.commit := rfl
@[simp] theorem Chip.setChan_dp (c : Chip) (f : Nat) (x : Chan) : (c.setChan f x).dp = c.dp := rfl
@[simp] theorem Chip.setChan_rl (c : Chip) (f : Nat) (x : Chan) : (c.setChan f x).rl = c.rl := rfl
@[simp] theorem Chip.setChan_tb (c : Chip) (f : Nat) (x : Chan) : (c.setChan f x).tb = c.tb := rfl
@[simp] theorem Chip.setChan_qs (c : Chip) (f : Nat) (x : Chan) : (c.setChan f x).qs = c.qs := rfl
@[simp] theorem Chip.setChan_cp (c : Chip) (f : Nat) (x : Chan) : (c.setChan f x).cp = c.cp := rfl
@[simp] theorem Chip.setChan_dre (c : Chip) (f : Nat) (x : Chan) : (c.setChan f x).dre = c.dre := rfl
@[simp] theorem Chip.setChan_sp (c : Chip) (f : Nat) (x : Chan) : (c.setChan f x).sp = c.sp := rfl
@[simp] theorem Chip.setChan_out (c : Chip) (f : Nat) (x : Chan) : (c.setChan f x).out = c.out := rfl

/-! setDma -/

@[simp] theorem Chip.setDma_dies (c : Chip) (d : Nat) (x : DieDma) : (c.setDma d x).dies = c.dies := rfl
@[simp] theorem Chip.setDma_free (c : Chip) (d : Nat) (x : DieDma) : (c.setDma d x).free = c.free := rfl
@[simp] theorem Chip.setDma_clk (c : Chip) (d : Nat) (x : DieDma) : (c.setDma d x).clk = c.clk := rfl
@[simp] theorem Chip.setDma_pwr (c : Chip) (d : Nat) (x : DieDma) : (c.setDma d x).pwr = c.pwr := rfl
@[simp] theorem Chip.setDma_boot (c : Chip) (d : Nat) (x : DieDma) : (c.setDma d x).boot = c.boot := rfl
@[simp] theorem Chip.setDma_trust (c : Chip) (d : Nat) (x : DieDma) : (c.setDma d x).trust = c.trust := rfl
@[simp] theorem Chip.setDma_cfg (c : Chip) (d : Nat) (x : DieDma) : (c.setDma d x).cfg = c.cfg := rfl
@[simp] theorem Chip.setDma_faults (c : Chip) (d : Nat) (x : DieDma) : (c.setDma d x).faults = c.faults := rfl
@[simp] theorem Chip.setDma_regs (c : Chip) (d : Nat) (x : DieDma) : (c.setDma d x).regs = c.regs := rfl
@[simp] theorem Chip.setDma_fns (c : Chip) (d : Nat) (x : DieDma) : (c.setDma d x).fns = c.fns := rfl
@[simp] theorem Chip.setDma_tags (c : Chip) (d : Nat) (x : DieDma) : (c.setDma d x).tags = c.tags := rfl
@[simp] theorem Chip.setDma_culDown (c : Chip) (d : Nat) (x : DieDma) : (c.setDma d x).culDown = c.culDown := rfl
@[simp] theorem Chip.setDma_culTrain (c : Chip) (d : Nat) (x : DieDma) : (c.setDma d x).culTrain = c.culTrain := rfl
@[simp] theorem Chip.setDma_insts (c : Chip) (d : Nat) (x : DieDma) : (c.setDma d x).insts = c.insts := rfl
@[simp] theorem Chip.setDma_keygens (c : Chip) (d : Nat) (x : DieDma) : (c.setDma d x).keygens = c.keygens := rfl
@[simp] theorem Chip.setDma_chans (c : Chip) (d : Nat) (x : DieDma) : (c.setDma d x).chans = c.chans := rfl
@[simp] theorem Chip.setDma_mapWait (c : Chip) (d : Nat) (x : DieDma) : (c.setDma d x).mapWait = c.mapWait := rfl
@[simp] theorem Chip.setDma_commit (c : Chip) (d : Nat) (x : DieDma) : (c.setDma d x).commit = c.commit := rfl
@[simp] theorem Chip.setDma_dp (c : Chip) (d : Nat) (x : DieDma) : (c.setDma d x).dp = c.dp := rfl
@[simp] theorem Chip.setDma_rl (c : Chip) (d : Nat) (x : DieDma) : (c.setDma d x).rl = c.rl := rfl
@[simp] theorem Chip.setDma_tb (c : Chip) (d : Nat) (x : DieDma) : (c.setDma d x).tb = c.tb := rfl
@[simp] theorem Chip.setDma_qs (c : Chip) (d : Nat) (x : DieDma) : (c.setDma d x).qs = c.qs := rfl
@[simp] theorem Chip.setDma_cp (c : Chip) (d : Nat) (x : DieDma) : (c.setDma d x).cp = c.cp := rfl
@[simp] theorem Chip.setDma_dre (c : Chip) (d : Nat) (x : DieDma) : (c.setDma d x).dre = c.dre := rfl
@[simp] theorem Chip.setDma_sp (c : Chip) (d : Nat) (x : DieDma) : (c.setDma d x).sp = c.sp := rfl
@[simp] theorem Chip.setDma_out (c : Chip) (d : Nat) (x : DieDma) : (c.setDma d x).out = c.out := rfl

/-! setTag -/

@[simp] theorem Chip.setTag_dies (c : Chip) (k : Nat) (t : Tag) : (c.setTag k t).dies = c.dies := rfl
@[simp] theorem Chip.setTag_free (c : Chip) (k : Nat) (t : Tag) : (c.setTag k t).free = c.free := rfl
@[simp] theorem Chip.setTag_clk (c : Chip) (k : Nat) (t : Tag) : (c.setTag k t).clk = c.clk := rfl
@[simp] theorem Chip.setTag_pwr (c : Chip) (k : Nat) (t : Tag) : (c.setTag k t).pwr = c.pwr := rfl
@[simp] theorem Chip.setTag_boot (c : Chip) (k : Nat) (t : Tag) : (c.setTag k t).boot = c.boot := rfl
@[simp] theorem Chip.setTag_trust (c : Chip) (k : Nat) (t : Tag) : (c.setTag k t).trust = c.trust := rfl
@[simp] theorem Chip.setTag_cfg (c : Chip) (k : Nat) (t : Tag) : (c.setTag k t).cfg = c.cfg := rfl
@[simp] theorem Chip.setTag_faults (c : Chip) (k : Nat) (t : Tag) : (c.setTag k t).faults = c.faults := rfl
@[simp] theorem Chip.setTag_regs (c : Chip) (k : Nat) (t : Tag) : (c.setTag k t).regs = c.regs := rfl
@[simp] theorem Chip.setTag_fns (c : Chip) (k : Nat) (t : Tag) : (c.setTag k t).fns = c.fns := rfl
@[simp] theorem Chip.setTag_culDown (c : Chip) (k : Nat) (t : Tag) : (c.setTag k t).culDown = c.culDown := rfl
@[simp] theorem Chip.setTag_culTrain (c : Chip) (k : Nat) (t : Tag) : (c.setTag k t).culTrain = c.culTrain := rfl
@[simp] theorem Chip.setTag_insts (c : Chip) (k : Nat) (t : Tag) : (c.setTag k t).insts = c.insts := rfl
@[simp] theorem Chip.setTag_keygens (c : Chip) (k : Nat) (t : Tag) : (c.setTag k t).keygens = c.keygens := rfl
@[simp] theorem Chip.setTag_chans (c : Chip) (k : Nat) (t : Tag) : (c.setTag k t).chans = c.chans := rfl
@[simp] theorem Chip.setTag_dmas (c : Chip) (k : Nat) (t : Tag) : (c.setTag k t).dmas = c.dmas := rfl
@[simp] theorem Chip.setTag_mapWait (c : Chip) (k : Nat) (t : Tag) : (c.setTag k t).mapWait = c.mapWait := rfl
@[simp] theorem Chip.setTag_commit (c : Chip) (k : Nat) (t : Tag) : (c.setTag k t).commit = c.commit := rfl
@[simp] theorem Chip.setTag_dp (c : Chip) (k : Nat) (t : Tag) : (c.setTag k t).dp = c.dp := rfl
@[simp] theorem Chip.setTag_rl (c : Chip) (k : Nat) (t : Tag) : (c.setTag k t).rl = c.rl := rfl
@[simp] theorem Chip.setTag_tb (c : Chip) (k : Nat) (t : Tag) : (c.setTag k t).tb = c.tb := rfl
@[simp] theorem Chip.setTag_qs (c : Chip) (k : Nat) (t : Tag) : (c.setTag k t).qs = c.qs := rfl
@[simp] theorem Chip.setTag_cp (c : Chip) (k : Nat) (t : Tag) : (c.setTag k t).cp = c.cp := rfl
@[simp] theorem Chip.setTag_dre (c : Chip) (k : Nat) (t : Tag) : (c.setTag k t).dre = c.dre := rfl
@[simp] theorem Chip.setTag_sp (c : Chip) (k : Nat) (t : Tag) : (c.setTag k t).sp = c.sp := rfl
@[simp] theorem Chip.setTag_out (c : Chip) (k : Nat) (t : Tag) : (c.setTag k t).out = c.out := rfl

/-! setDp -/

@[simp] theorem Chip.setDp_dies (c : Chip) (f : Packets → Packets) : (c.setDp f).dies = c.dies := rfl
@[simp] theorem Chip.setDp_free (c : Chip) (f : Packets → Packets) : (c.setDp f).free = c.free := rfl
@[simp] theorem Chip.setDp_clk (c : Chip) (f : Packets → Packets) : (c.setDp f).clk = c.clk := rfl
@[simp] theorem Chip.setDp_pwr (c : Chip) (f : Packets → Packets) : (c.setDp f).pwr = c.pwr := rfl
@[simp] theorem Chip.setDp_boot (c : Chip) (f : Packets → Packets) : (c.setDp f).boot = c.boot := rfl
@[simp] theorem Chip.setDp_trust (c : Chip) (f : Packets → Packets) : (c.setDp f).trust = c.trust := rfl
@[simp] theorem Chip.setDp_cfg (c : Chip) (f : Packets → Packets) : (c.setDp f).cfg = c.cfg := rfl
@[simp] theorem Chip.setDp_faults (c : Chip) (f : Packets → Packets) : (c.setDp f).faults = c.faults := rfl
@[simp] theorem Chip.setDp_regs (c : Chip) (f : Packets → Packets) : (c.setDp f).regs = c.regs := rfl
@[simp] theorem Chip.setDp_fns (c : Chip) (f : Packets → Packets) : (c.setDp f).fns = c.fns := rfl
@[simp] theorem Chip.setDp_tags (c : Chip) (f : Packets → Packets) : (c.setDp f).tags = c.tags := rfl
@[simp] theorem Chip.setDp_culDown (c : Chip) (f : Packets → Packets) : (c.setDp f).culDown = c.culDown := rfl
@[simp] theorem Chip.setDp_culTrain (c : Chip) (f : Packets → Packets) : (c.setDp f).culTrain = c.culTrain := rfl
@[simp] theorem Chip.setDp_insts (c : Chip) (f : Packets → Packets) : (c.setDp f).insts = c.insts := rfl
@[simp] theorem Chip.setDp_keygens (c : Chip) (f : Packets → Packets) : (c.setDp f).keygens = c.keygens := rfl
@[simp] theorem Chip.setDp_chans (c : Chip) (f : Packets → Packets) : (c.setDp f).chans = c.chans := rfl
@[simp] theorem Chip.setDp_dmas (c : Chip) (f : Packets → Packets) : (c.setDp f).dmas = c.dmas := rfl
@[simp] theorem Chip.setDp_mapWait (c : Chip) (f : Packets → Packets) : (c.setDp f).mapWait = c.mapWait := rfl
@[simp] theorem Chip.setDp_commit (c : Chip) (f : Packets → Packets) : (c.setDp f).commit = c.commit := rfl
@[simp] theorem Chip.setDp_rl (c : Chip) (f : Packets → Packets) : (c.setDp f).rl = c.rl := rfl
@[simp] theorem Chip.setDp_tb (c : Chip) (f : Packets → Packets) : (c.setDp f).tb = c.tb := rfl
@[simp] theorem Chip.setDp_qs (c : Chip) (f : Packets → Packets) : (c.setDp f).qs = c.qs := rfl
@[simp] theorem Chip.setDp_cp (c : Chip) (f : Packets → Packets) : (c.setDp f).cp = c.cp := rfl
@[simp] theorem Chip.setDp_dre (c : Chip) (f : Packets → Packets) : (c.setDp f).dre = c.dre := rfl
@[simp] theorem Chip.setDp_sp (c : Chip) (f : Packets → Packets) : (c.setDp f).sp = c.sp := rfl
@[simp] theorem Chip.setDp_out (c : Chip) (f : Packets → Packets) : (c.setDp f).out = c.out := rfl
@[simp] theorem Chip.setDp_dp (c : Chip) (f : Packets → Packets) : (c.setDp f).dp = f c.dp := rfl

/-! setTb -/

@[simp] theorem Chip.setTb_dies (c : Chip) (f : Tables → Tables) : (c.setTb f).dies = c.dies := rfl
@[simp] theorem Chip.setTb_free (c : Chip) (f : Tables → Tables) : (c.setTb f).free = c.free := rfl
@[simp] theorem Chip.setTb_clk (c : Chip) (f : Tables → Tables) : (c.setTb f).clk = c.clk := rfl
@[simp] theorem Chip.setTb_pwr (c : Chip) (f : Tables → Tables) : (c.setTb f).pwr = c.pwr := rfl
@[simp] theorem Chip.setTb_boot (c : Chip) (f : Tables → Tables) : (c.setTb f).boot = c.boot := rfl
@[simp] theorem Chip.setTb_trust (c : Chip) (f : Tables → Tables) : (c.setTb f).trust = c.trust := rfl
@[simp] theorem Chip.setTb_cfg (c : Chip) (f : Tables → Tables) : (c.setTb f).cfg = c.cfg := rfl
@[simp] theorem Chip.setTb_faults (c : Chip) (f : Tables → Tables) : (c.setTb f).faults = c.faults := rfl
@[simp] theorem Chip.setTb_regs (c : Chip) (f : Tables → Tables) : (c.setTb f).regs = c.regs := rfl
@[simp] theorem Chip.setTb_fns (c : Chip) (f : Tables → Tables) : (c.setTb f).fns = c.fns := rfl
@[simp] theorem Chip.setTb_tags (c : Chip) (f : Tables → Tables) : (c.setTb f).tags = c.tags := rfl
@[simp] theorem Chip.setTb_culDown (c : Chip) (f : Tables → Tables) : (c.setTb f).culDown = c.culDown := rfl
@[simp] theorem Chip.setTb_culTrain (c : Chip) (f : Tables → Tables) : (c.setTb f).culTrain = c.culTrain := rfl
@[simp] theorem Chip.setTb_insts (c : Chip) (f : Tables → Tables) : (c.setTb f).insts = c.insts := rfl
@[simp] theorem Chip.setTb_keygens (c : Chip) (f : Tables → Tables) : (c.setTb f).keygens = c.keygens := rfl
@[simp] theorem Chip.setTb_chans (c : Chip) (f : Tables → Tables) : (c.setTb f).chans = c.chans := rfl
@[simp] theorem Chip.setTb_dmas (c : Chip) (f : Tables → Tables) : (c.setTb f).dmas = c.dmas := rfl
@[simp] theorem Chip.setTb_mapWait (c : Chip) (f : Tables → Tables) : (c.setTb f).mapWait = c.mapWait := rfl
@[simp] theorem Chip.setTb_commit (c : Chip) (f : Tables → Tables) : (c.setTb f).commit = c.commit := rfl
@[simp] theorem Chip.setTb_dp (c : Chip) (f : Tables → Tables) : (c.setTb f).dp = c.dp := rfl
@[simp] theorem Chip.setTb_rl (c : Chip) (f : Tables → Tables) : (c.setTb f).rl = c.rl := rfl
@[simp] theorem Chip.setTb_qs (c : Chip) (f : Tables → Tables) : (c.setTb f).qs = c.qs := rfl
@[simp] theorem Chip.setTb_cp (c : Chip) (f : Tables → Tables) : (c.setTb f).cp = c.cp := rfl
@[simp] theorem Chip.setTb_dre (c : Chip) (f : Tables → Tables) : (c.setTb f).dre = c.dre := rfl
@[simp] theorem Chip.setTb_sp (c : Chip) (f : Tables → Tables) : (c.setTb f).sp = c.sp := rfl
@[simp] theorem Chip.setTb_out (c : Chip) (f : Tables → Tables) : (c.setTb f).out = c.out := rfl
@[simp] theorem Chip.setTb_tb (c : Chip) (f : Tables → Tables) : (c.setTb f).tb = f c.tb := rfl

/-! setQs -/

@[simp] theorem Chip.setQs_dies (c : Chip) (f : Sched → Sched) : (c.setQs f).dies = c.dies := rfl
@[simp] theorem Chip.setQs_free (c : Chip) (f : Sched → Sched) : (c.setQs f).free = c.free := rfl
@[simp] theorem Chip.setQs_clk (c : Chip) (f : Sched → Sched) : (c.setQs f).clk = c.clk := rfl
@[simp] theorem Chip.setQs_pwr (c : Chip) (f : Sched → Sched) : (c.setQs f).pwr = c.pwr := rfl
@[simp] theorem Chip.setQs_boot (c : Chip) (f : Sched → Sched) : (c.setQs f).boot = c.boot := rfl
@[simp] theorem Chip.setQs_trust (c : Chip) (f : Sched → Sched) : (c.setQs f).trust = c.trust := rfl
@[simp] theorem Chip.setQs_cfg (c : Chip) (f : Sched → Sched) : (c.setQs f).cfg = c.cfg := rfl
@[simp] theorem Chip.setQs_faults (c : Chip) (f : Sched → Sched) : (c.setQs f).faults = c.faults := rfl
@[simp] theorem Chip.setQs_regs (c : Chip) (f : Sched → Sched) : (c.setQs f).regs = c.regs := rfl
@[simp] theorem Chip.setQs_fns (c : Chip) (f : Sched → Sched) : (c.setQs f).fns = c.fns := rfl
@[simp] theorem Chip.setQs_tags (c : Chip) (f : Sched → Sched) : (c.setQs f).tags = c.tags := rfl
@[simp] theorem Chip.setQs_culDown (c : Chip) (f : Sched → Sched) : (c.setQs f).culDown = c.culDown := rfl
@[simp] theorem Chip.setQs_culTrain (c : Chip) (f : Sched → Sched) : (c.setQs f).culTrain = c.culTrain := rfl
@[simp] theorem Chip.setQs_insts (c : Chip) (f : Sched → Sched) : (c.setQs f).insts = c.insts := rfl
@[simp] theorem Chip.setQs_keygens (c : Chip) (f : Sched → Sched) : (c.setQs f).keygens = c.keygens := rfl
@[simp] theorem Chip.setQs_chans (c : Chip) (f : Sched → Sched) : (c.setQs f).chans = c.chans := rfl
@[simp] theorem Chip.setQs_dmas (c : Chip) (f : Sched → Sched) : (c.setQs f).dmas = c.dmas := rfl
@[simp] theorem Chip.setQs_mapWait (c : Chip) (f : Sched → Sched) : (c.setQs f).mapWait = c.mapWait := rfl
@[simp] theorem Chip.setQs_commit (c : Chip) (f : Sched → Sched) : (c.setQs f).commit = c.commit := rfl
@[simp] theorem Chip.setQs_dp (c : Chip) (f : Sched → Sched) : (c.setQs f).dp = c.dp := rfl
@[simp] theorem Chip.setQs_rl (c : Chip) (f : Sched → Sched) : (c.setQs f).rl = c.rl := rfl
@[simp] theorem Chip.setQs_tb (c : Chip) (f : Sched → Sched) : (c.setQs f).tb = c.tb := rfl
@[simp] theorem Chip.setQs_cp (c : Chip) (f : Sched → Sched) : (c.setQs f).cp = c.cp := rfl
@[simp] theorem Chip.setQs_dre (c : Chip) (f : Sched → Sched) : (c.setQs f).dre = c.dre := rfl
@[simp] theorem Chip.setQs_sp (c : Chip) (f : Sched → Sched) : (c.setQs f).sp = c.sp := rfl
@[simp] theorem Chip.setQs_out (c : Chip) (f : Sched → Sched) : (c.setQs f).out = c.out := rfl
@[simp] theorem Chip.setQs_qs (c : Chip) (f : Sched → Sched) : (c.setQs f).qs = f c.qs := rfl

/-! setRl -/

@[simp] theorem Chip.setRl_dies (c : Chip) (f : Rules → Rules) : (c.setRl f).dies = c.dies := rfl
@[simp] theorem Chip.setRl_free (c : Chip) (f : Rules → Rules) : (c.setRl f).free = c.free := rfl
@[simp] theorem Chip.setRl_clk (c : Chip) (f : Rules → Rules) : (c.setRl f).clk = c.clk := rfl
@[simp] theorem Chip.setRl_pwr (c : Chip) (f : Rules → Rules) : (c.setRl f).pwr = c.pwr := rfl
@[simp] theorem Chip.setRl_boot (c : Chip) (f : Rules → Rules) : (c.setRl f).boot = c.boot := rfl
@[simp] theorem Chip.setRl_trust (c : Chip) (f : Rules → Rules) : (c.setRl f).trust = c.trust := rfl
@[simp] theorem Chip.setRl_cfg (c : Chip) (f : Rules → Rules) : (c.setRl f).cfg = c.cfg := rfl
@[simp] theorem Chip.setRl_faults (c : Chip) (f : Rules → Rules) : (c.setRl f).faults = c.faults := rfl
@[simp] theorem Chip.setRl_regs (c : Chip) (f : Rules → Rules) : (c.setRl f).regs = c.regs := rfl
@[simp] theorem Chip.setRl_fns (c : Chip) (f : Rules → Rules) : (c.setRl f).fns = c.fns := rfl
@[simp] theorem Chip.setRl_tags (c : Chip) (f : Rules → Rules) : (c.setRl f).tags = c.tags := rfl
@[simp] theorem Chip.setRl_culDown (c : Chip) (f : Rules → Rules) : (c.setRl f).culDown = c.culDown := rfl
@[simp] theorem Chip.setRl_culTrain (c : Chip) (f : Rules → Rules) : (c.setRl f).culTrain = c.culTrain := rfl
@[simp] theorem Chip.setRl_insts (c : Chip) (f : Rules → Rules) : (c.setRl f).insts = c.insts := rfl
@[simp] theorem Chip.setRl_keygens (c : Chip) (f : Rules → Rules) : (c.setRl f).keygens = c.keygens := rfl
@[simp] theorem Chip.setRl_chans (c : Chip) (f : Rules → Rules) : (c.setRl f).chans = c.chans := rfl
@[simp] theorem Chip.setRl_dmas (c : Chip) (f : Rules → Rules) : (c.setRl f).dmas = c.dmas := rfl
@[simp] theorem Chip.setRl_mapWait (c : Chip) (f : Rules → Rules) : (c.setRl f).mapWait = c.mapWait := rfl
@[simp] theorem Chip.setRl_commit (c : Chip) (f : Rules → Rules) : (c.setRl f).commit = c.commit := rfl
@[simp] theorem Chip.setRl_dp (c : Chip) (f : Rules → Rules) : (c.setRl f).dp = c.dp := rfl
@[simp] theorem Chip.setRl_tb (c : Chip) (f : Rules → Rules) : (c.setRl f).tb = c.tb := rfl
@[simp] theorem Chip.setRl_qs (c : Chip) (f : Rules → Rules) : (c.setRl f).qs = c.qs := rfl
@[simp] theorem Chip.setRl_cp (c : Chip) (f : Rules → Rules) : (c.setRl f).cp = c.cp := rfl
@[simp] theorem Chip.setRl_dre (c : Chip) (f : Rules → Rules) : (c.setRl f).dre = c.dre := rfl
@[simp] theorem Chip.setRl_sp (c : Chip) (f : Rules → Rules) : (c.setRl f).sp = c.sp := rfl
@[simp] theorem Chip.setRl_out (c : Chip) (f : Rules → Rules) : (c.setRl f).out = c.out := rfl
@[simp] theorem Chip.setRl_rl (c : Chip) (f : Rules → Rules) : (c.setRl f).rl = f c.rl := rfl

/-! setCp -/

@[simp] theorem Chip.setCp_dies (c : Chip) (f : Cipher → Cipher) : (c.setCp f).dies = c.dies := rfl
@[simp] theorem Chip.setCp_free (c : Chip) (f : Cipher → Cipher) : (c.setCp f).free = c.free := rfl
@[simp] theorem Chip.setCp_clk (c : Chip) (f : Cipher → Cipher) : (c.setCp f).clk = c.clk := rfl
@[simp] theorem Chip.setCp_pwr (c : Chip) (f : Cipher → Cipher) : (c.setCp f).pwr = c.pwr := rfl
@[simp] theorem Chip.setCp_boot (c : Chip) (f : Cipher → Cipher) : (c.setCp f).boot = c.boot := rfl
@[simp] theorem Chip.setCp_trust (c : Chip) (f : Cipher → Cipher) : (c.setCp f).trust = c.trust := rfl
@[simp] theorem Chip.setCp_cfg (c : Chip) (f : Cipher → Cipher) : (c.setCp f).cfg = c.cfg := rfl
@[simp] theorem Chip.setCp_faults (c : Chip) (f : Cipher → Cipher) : (c.setCp f).faults = c.faults := rfl
@[simp] theorem Chip.setCp_regs (c : Chip) (f : Cipher → Cipher) : (c.setCp f).regs = c.regs := rfl
@[simp] theorem Chip.setCp_fns (c : Chip) (f : Cipher → Cipher) : (c.setCp f).fns = c.fns := rfl
@[simp] theorem Chip.setCp_tags (c : Chip) (f : Cipher → Cipher) : (c.setCp f).tags = c.tags := rfl
@[simp] theorem Chip.setCp_culDown (c : Chip) (f : Cipher → Cipher) : (c.setCp f).culDown = c.culDown := rfl
@[simp] theorem Chip.setCp_culTrain (c : Chip) (f : Cipher → Cipher) : (c.setCp f).culTrain = c.culTrain := rfl
@[simp] theorem Chip.setCp_insts (c : Chip) (f : Cipher → Cipher) : (c.setCp f).insts = c.insts := rfl
@[simp] theorem Chip.setCp_keygens (c : Chip) (f : Cipher → Cipher) : (c.setCp f).keygens = c.keygens := rfl
@[simp] theorem Chip.setCp_chans (c : Chip) (f : Cipher → Cipher) : (c.setCp f).chans = c.chans := rfl
@[simp] theorem Chip.setCp_dmas (c : Chip) (f : Cipher → Cipher) : (c.setCp f).dmas = c.dmas := rfl
@[simp] theorem Chip.setCp_mapWait (c : Chip) (f : Cipher → Cipher) : (c.setCp f).mapWait = c.mapWait := rfl
@[simp] theorem Chip.setCp_commit (c : Chip) (f : Cipher → Cipher) : (c.setCp f).commit = c.commit := rfl
@[simp] theorem Chip.setCp_dp (c : Chip) (f : Cipher → Cipher) : (c.setCp f).dp = c.dp := rfl
@[simp] theorem Chip.setCp_rl (c : Chip) (f : Cipher → Cipher) : (c.setCp f).rl = c.rl := rfl
@[simp] theorem Chip.setCp_tb (c : Chip) (f : Cipher → Cipher) : (c.setCp f).tb = c.tb := rfl
@[simp] theorem Chip.setCp_qs (c : Chip) (f : Cipher → Cipher) : (c.setCp f).qs = c.qs := rfl
@[simp] theorem Chip.setCp_dre (c : Chip) (f : Cipher → Cipher) : (c.setCp f).dre = c.dre := rfl
@[simp] theorem Chip.setCp_sp (c : Chip) (f : Cipher → Cipher) : (c.setCp f).sp = c.sp := rfl
@[simp] theorem Chip.setCp_out (c : Chip) (f : Cipher → Cipher) : (c.setCp f).out = c.out := rfl
@[simp] theorem Chip.setCp_cp (c : Chip) (f : Cipher → Cipher) : (c.setCp f).cp = f c.cp := rfl

/-! setDre -/

@[simp] theorem Chip.setDre_dies (c : Chip) (f : Dre → Dre) : (c.setDre f).dies = c.dies := rfl
@[simp] theorem Chip.setDre_free (c : Chip) (f : Dre → Dre) : (c.setDre f).free = c.free := rfl
@[simp] theorem Chip.setDre_clk (c : Chip) (f : Dre → Dre) : (c.setDre f).clk = c.clk := rfl
@[simp] theorem Chip.setDre_pwr (c : Chip) (f : Dre → Dre) : (c.setDre f).pwr = c.pwr := rfl
@[simp] theorem Chip.setDre_boot (c : Chip) (f : Dre → Dre) : (c.setDre f).boot = c.boot := rfl
@[simp] theorem Chip.setDre_trust (c : Chip) (f : Dre → Dre) : (c.setDre f).trust = c.trust := rfl
@[simp] theorem Chip.setDre_cfg (c : Chip) (f : Dre → Dre) : (c.setDre f).cfg = c.cfg := rfl
@[simp] theorem Chip.setDre_faults (c : Chip) (f : Dre → Dre) : (c.setDre f).faults = c.faults := rfl
@[simp] theorem Chip.setDre_regs (c : Chip) (f : Dre → Dre) : (c.setDre f).regs = c.regs := rfl
@[simp] theorem Chip.setDre_fns (c : Chip) (f : Dre → Dre) : (c.setDre f).fns = c.fns := rfl
@[simp] theorem Chip.setDre_tags (c : Chip) (f : Dre → Dre) : (c.setDre f).tags = c.tags := rfl
@[simp] theorem Chip.setDre_culDown (c : Chip) (f : Dre → Dre) : (c.setDre f).culDown = c.culDown := rfl
@[simp] theorem Chip.setDre_culTrain (c : Chip) (f : Dre → Dre) : (c.setDre f).culTrain = c.culTrain := rfl
@[simp] theorem Chip.setDre_insts (c : Chip) (f : Dre → Dre) : (c.setDre f).insts = c.insts := rfl
@[simp] theorem Chip.setDre_keygens (c : Chip) (f : Dre → Dre) : (c.setDre f).keygens = c.keygens := rfl
@[simp] theorem Chip.setDre_chans (c : Chip) (f : Dre → Dre) : (c.setDre f).chans = c.chans := rfl
@[simp] theorem Chip.setDre_dmas (c : Chip) (f : Dre → Dre) : (c.setDre f).dmas = c.dmas := rfl
@[simp] theorem Chip.setDre_mapWait (c : Chip) (f : Dre → Dre) : (c.setDre f).mapWait = c.mapWait := rfl
@[simp] theorem Chip.setDre_commit (c : Chip) (f : Dre → Dre) : (c.setDre f).commit = c.commit := rfl
@[simp] theorem Chip.setDre_dp (c : Chip) (f : Dre → Dre) : (c.setDre f).dp = c.dp := rfl
@[simp] theorem Chip.setDre_rl (c : Chip) (f : Dre → Dre) : (c.setDre f).rl = c.rl := rfl
@[simp] theorem Chip.setDre_tb (c : Chip) (f : Dre → Dre) : (c.setDre f).tb = c.tb := rfl
@[simp] theorem Chip.setDre_qs (c : Chip) (f : Dre → Dre) : (c.setDre f).qs = c.qs := rfl
@[simp] theorem Chip.setDre_cp (c : Chip) (f : Dre → Dre) : (c.setDre f).cp = c.cp := rfl
@[simp] theorem Chip.setDre_sp (c : Chip) (f : Dre → Dre) : (c.setDre f).sp = c.sp := rfl
@[simp] theorem Chip.setDre_out (c : Chip) (f : Dre → Dre) : (c.setDre f).out = c.out := rfl
@[simp] theorem Chip.setDre_dre (c : Chip) (f : Dre → Dre) : (c.setDre f).dre = f c.dre := rfl

/-! setSp -/

@[simp] theorem Chip.setSp_dies (c : Chip) (f : Span → Span) : (c.setSp f).dies = c.dies := rfl
@[simp] theorem Chip.setSp_free (c : Chip) (f : Span → Span) : (c.setSp f).free = c.free := rfl
@[simp] theorem Chip.setSp_clk (c : Chip) (f : Span → Span) : (c.setSp f).clk = c.clk := rfl
@[simp] theorem Chip.setSp_pwr (c : Chip) (f : Span → Span) : (c.setSp f).pwr = c.pwr := rfl
@[simp] theorem Chip.setSp_boot (c : Chip) (f : Span → Span) : (c.setSp f).boot = c.boot := rfl
@[simp] theorem Chip.setSp_trust (c : Chip) (f : Span → Span) : (c.setSp f).trust = c.trust := rfl
@[simp] theorem Chip.setSp_cfg (c : Chip) (f : Span → Span) : (c.setSp f).cfg = c.cfg := rfl
@[simp] theorem Chip.setSp_faults (c : Chip) (f : Span → Span) : (c.setSp f).faults = c.faults := rfl
@[simp] theorem Chip.setSp_regs (c : Chip) (f : Span → Span) : (c.setSp f).regs = c.regs := rfl
@[simp] theorem Chip.setSp_fns (c : Chip) (f : Span → Span) : (c.setSp f).fns = c.fns := rfl
@[simp] theorem Chip.setSp_tags (c : Chip) (f : Span → Span) : (c.setSp f).tags = c.tags := rfl
@[simp] theorem Chip.setSp_culDown (c : Chip) (f : Span → Span) : (c.setSp f).culDown = c.culDown := rfl
@[simp] theorem Chip.setSp_culTrain (c : Chip) (f : Span → Span) : (c.setSp f).culTrain = c.culTrain := rfl
@[simp] theorem Chip.setSp_insts (c : Chip) (f : Span → Span) : (c.setSp f).insts = c.insts := rfl
@[simp] theorem Chip.setSp_keygens (c : Chip) (f : Span → Span) : (c.setSp f).keygens = c.keygens := rfl
@[simp] theorem Chip.setSp_chans (c : Chip) (f : Span → Span) : (c.setSp f).chans = c.chans := rfl
@[simp] theorem Chip.setSp_dmas (c : Chip) (f : Span → Span) : (c.setSp f).dmas = c.dmas := rfl
@[simp] theorem Chip.setSp_mapWait (c : Chip) (f : Span → Span) : (c.setSp f).mapWait = c.mapWait := rfl
@[simp] theorem Chip.setSp_commit (c : Chip) (f : Span → Span) : (c.setSp f).commit = c.commit := rfl
@[simp] theorem Chip.setSp_dp (c : Chip) (f : Span → Span) : (c.setSp f).dp = c.dp := rfl
@[simp] theorem Chip.setSp_rl (c : Chip) (f : Span → Span) : (c.setSp f).rl = c.rl := rfl
@[simp] theorem Chip.setSp_tb (c : Chip) (f : Span → Span) : (c.setSp f).tb = c.tb := rfl
@[simp] theorem Chip.setSp_qs (c : Chip) (f : Span → Span) : (c.setSp f).qs = c.qs := rfl
@[simp] theorem Chip.setSp_cp (c : Chip) (f : Span → Span) : (c.setSp f).cp = c.cp := rfl
@[simp] theorem Chip.setSp_dre (c : Chip) (f : Span → Span) : (c.setSp f).dre = c.dre := rfl
@[simp] theorem Chip.setSp_out (c : Chip) (f : Span → Span) : (c.setSp f).out = c.out := rfl
@[simp] theorem Chip.setSp_sp (c : Chip) (f : Span → Span) : (c.setSp f).sp = f c.sp := rfl

/-! setCommit -/

@[simp] theorem Chip.setCommit_dies (c : Chip) (f : Commit → Commit) : (c.setCommit f).dies = c.dies := rfl
@[simp] theorem Chip.setCommit_free (c : Chip) (f : Commit → Commit) : (c.setCommit f).free = c.free := rfl
@[simp] theorem Chip.setCommit_clk (c : Chip) (f : Commit → Commit) : (c.setCommit f).clk = c.clk := rfl
@[simp] theorem Chip.setCommit_pwr (c : Chip) (f : Commit → Commit) : (c.setCommit f).pwr = c.pwr := rfl
@[simp] theorem Chip.setCommit_boot (c : Chip) (f : Commit → Commit) : (c.setCommit f).boot = c.boot := rfl
@[simp] theorem Chip.setCommit_trust (c : Chip) (f : Commit → Commit) : (c.setCommit f).trust = c.trust := rfl
@[simp] theorem Chip.setCommit_cfg (c : Chip) (f : Commit → Commit) : (c.setCommit f).cfg = c.cfg := rfl
@[simp] theorem Chip.setCommit_faults (c : Chip) (f : Commit → Commit) : (c.setCommit f).faults = c.faults := rfl
@[simp] theorem Chip.setCommit_regs (c : Chip) (f : Commit → Commit) : (c.setCommit f).regs = c.regs := rfl
@[simp] theorem Chip.setCommit_fns (c : Chip) (f : Commit → Commit) : (c.setCommit f).fns = c.fns := rfl
@[simp] theorem Chip.setCommit_tags (c : Chip) (f : Commit → Commit) : (c.setCommit f).tags = c.tags := rfl
@[simp] theorem Chip.setCommit_culDown (c : Chip) (f : Commit → Commit) : (c.setCommit f).culDown = c.culDown := rfl
@[simp] theorem Chip.setCommit_culTrain (c : Chip) (f : Commit → Commit) : (c.setCommit f).culTrain = c.culTrain := rfl
@[simp] theorem Chip.setCommit_insts (c : Chip) (f : Commit → Commit) : (c.setCommit f).insts = c.insts := rfl
@[simp] theorem Chip.setCommit_keygens (c : Chip) (f : Commit → Commit) : (c.setCommit f).keygens = c.keygens := rfl
@[simp] theorem Chip.setCommit_chans (c : Chip) (f : Commit → Commit) : (c.setCommit f).chans = c.chans := rfl
@[simp] theorem Chip.setCommit_dmas (c : Chip) (f : Commit → Commit) : (c.setCommit f).dmas = c.dmas := rfl
@[simp] theorem Chip.setCommit_mapWait (c : Chip) (f : Commit → Commit) : (c.setCommit f).mapWait = c.mapWait := rfl
@[simp] theorem Chip.setCommit_dp (c : Chip) (f : Commit → Commit) : (c.setCommit f).dp = c.dp := rfl
@[simp] theorem Chip.setCommit_rl (c : Chip) (f : Commit → Commit) : (c.setCommit f).rl = c.rl := rfl
@[simp] theorem Chip.setCommit_tb (c : Chip) (f : Commit → Commit) : (c.setCommit f).tb = c.tb := rfl
@[simp] theorem Chip.setCommit_qs (c : Chip) (f : Commit → Commit) : (c.setCommit f).qs = c.qs := rfl
@[simp] theorem Chip.setCommit_cp (c : Chip) (f : Commit → Commit) : (c.setCommit f).cp = c.cp := rfl
@[simp] theorem Chip.setCommit_dre (c : Chip) (f : Commit → Commit) : (c.setCommit f).dre = c.dre := rfl
@[simp] theorem Chip.setCommit_sp (c : Chip) (f : Commit → Commit) : (c.setCommit f).sp = c.sp := rfl
@[simp] theorem Chip.setCommit_out (c : Chip) (f : Commit → Commit) : (c.setCommit f).out = c.out := rfl
@[simp] theorem Chip.setCommit_commit (c : Chip) (f : Commit → Commit) : (c.setCommit f).commit = f c.commit := rfl

/-! setBarrier -/

@[simp] theorem Chip.setBarrier_dies (c : Chip) (f : Barrier → Barrier) : (c.setBarrier f).dies = c.dies := rfl
@[simp] theorem Chip.setBarrier_free (c : Chip) (f : Barrier → Barrier) : (c.setBarrier f).free = c.free := rfl
@[simp] theorem Chip.setBarrier_clk (c : Chip) (f : Barrier → Barrier) : (c.setBarrier f).clk = c.clk := rfl
@[simp] theorem Chip.setBarrier_pwr (c : Chip) (f : Barrier → Barrier) : (c.setBarrier f).pwr = c.pwr := rfl
@[simp] theorem Chip.setBarrier_boot (c : Chip) (f : Barrier → Barrier) : (c.setBarrier f).boot = c.boot := rfl
@[simp] theorem Chip.setBarrier_trust (c : Chip) (f : Barrier → Barrier) : (c.setBarrier f).trust = c.trust := rfl
@[simp] theorem Chip.setBarrier_cfg (c : Chip) (f : Barrier → Barrier) : (c.setBarrier f).cfg = c.cfg := rfl
@[simp] theorem Chip.setBarrier_faults (c : Chip) (f : Barrier → Barrier) : (c.setBarrier f).faults = c.faults := rfl
@[simp] theorem Chip.setBarrier_regs (c : Chip) (f : Barrier → Barrier) : (c.setBarrier f).regs = c.regs := rfl
@[simp] theorem Chip.setBarrier_fns (c : Chip) (f : Barrier → Barrier) : (c.setBarrier f).fns = c.fns := rfl
@[simp] theorem Chip.setBarrier_tags (c : Chip) (f : Barrier → Barrier) : (c.setBarrier f).tags = c.tags := rfl
@[simp] theorem Chip.setBarrier_culDown (c : Chip) (f : Barrier → Barrier) : (c.setBarrier f).culDown = c.culDown := rfl
@[simp] theorem Chip.setBarrier_culTrain (c : Chip) (f : Barrier → Barrier) : (c.setBarrier f).culTrain = c.culTrain := rfl
@[simp] theorem Chip.setBarrier_insts (c : Chip) (f : Barrier → Barrier) : (c.setBarrier f).insts = c.insts := rfl
@[simp] theorem Chip.setBarrier_keygens (c : Chip) (f : Barrier → Barrier) : (c.setBarrier f).keygens = c.keygens := rfl
@[simp] theorem Chip.setBarrier_chans (c : Chip) (f : Barrier → Barrier) : (c.setBarrier f).chans = c.chans := rfl
@[simp] theorem Chip.setBarrier_dmas (c : Chip) (f : Barrier → Barrier) : (c.setBarrier f).dmas = c.dmas := rfl
@[simp] theorem Chip.setBarrier_mapWait (c : Chip) (f : Barrier → Barrier) : (c.setBarrier f).mapWait = c.mapWait := rfl
@[simp] theorem Chip.setBarrier_commit (c : Chip) (f : Barrier → Barrier) : (c.setBarrier f).commit = c.commit := rfl
@[simp] theorem Chip.setBarrier_dp (c : Chip) (f : Barrier → Barrier) : (c.setBarrier f).dp = c.dp := rfl
@[simp] theorem Chip.setBarrier_rl (c : Chip) (f : Barrier → Barrier) : (c.setBarrier f).rl = c.rl := rfl
@[simp] theorem Chip.setBarrier_tb (c : Chip) (f : Barrier → Barrier) : (c.setBarrier f).tb = c.tb := rfl
@[simp] theorem Chip.setBarrier_qs (c : Chip) (f : Barrier → Barrier) : (c.setBarrier f).qs = c.qs := rfl
@[simp] theorem Chip.setBarrier_cp (c : Chip) (f : Barrier → Barrier) : (c.setBarrier f).cp = c.cp := rfl
@[simp] theorem Chip.setBarrier_dre (c : Chip) (f : Barrier → Barrier) : (c.setBarrier f).dre = c.dre := rfl
@[simp] theorem Chip.setBarrier_out (c : Chip) (f : Barrier → Barrier) : (c.setBarrier f).out = c.out := rfl

/-! wr -/

@[simp] theorem Chip.wr_dies (c : Chip) (d : Nat) (a : RegAddr) (v : Nat) : (c.wr d a v).dies = c.dies := rfl
@[simp] theorem Chip.wr_free (c : Chip) (d : Nat) (a : RegAddr) (v : Nat) : (c.wr d a v).free = c.free := rfl
@[simp] theorem Chip.wr_clk (c : Chip) (d : Nat) (a : RegAddr) (v : Nat) : (c.wr d a v).clk = c.clk := rfl
@[simp] theorem Chip.wr_pwr (c : Chip) (d : Nat) (a : RegAddr) (v : Nat) : (c.wr d a v).pwr = c.pwr := rfl
@[simp] theorem Chip.wr_boot (c : Chip) (d : Nat) (a : RegAddr) (v : Nat) : (c.wr d a v).boot = c.boot := rfl
@[simp] theorem Chip.wr_trust (c : Chip) (d : Nat) (a : RegAddr) (v : Nat) : (c.wr d a v).trust = c.trust := rfl
@[simp] theorem Chip.wr_cfg (c : Chip) (d : Nat) (a : RegAddr) (v : Nat) : (c.wr d a v).cfg = c.cfg := rfl
@[simp] theorem Chip.wr_faults (c : Chip) (d : Nat) (a : RegAddr) (v : Nat) : (c.wr d a v).faults = c.faults := rfl
@[simp] theorem Chip.wr_fns (c : Chip) (d : Nat) (a : RegAddr) (v : Nat) : (c.wr d a v).fns = c.fns := rfl
@[simp] theorem Chip.wr_tags (c : Chip) (d : Nat) (a : RegAddr) (v : Nat) : (c.wr d a v).tags = c.tags := rfl
@[simp] theorem Chip.wr_culDown (c : Chip) (d : Nat) (a : RegAddr) (v : Nat) : (c.wr d a v).culDown = c.culDown := rfl
@[simp] theorem Chip.wr_culTrain (c : Chip) (d : Nat) (a : RegAddr) (v : Nat) : (c.wr d a v).culTrain = c.culTrain := rfl
@[simp] theorem Chip.wr_insts (c : Chip) (d : Nat) (a : RegAddr) (v : Nat) : (c.wr d a v).insts = c.insts := rfl
@[simp] theorem Chip.wr_keygens (c : Chip) (d : Nat) (a : RegAddr) (v : Nat) : (c.wr d a v).keygens = c.keygens := rfl
@[simp] theorem Chip.wr_chans (c : Chip) (d : Nat) (a : RegAddr) (v : Nat) : (c.wr d a v).chans = c.chans := rfl
@[simp] theorem Chip.wr_dmas (c : Chip) (d : Nat) (a : RegAddr) (v : Nat) : (c.wr d a v).dmas = c.dmas := rfl
@[simp] theorem Chip.wr_mapWait (c : Chip) (d : Nat) (a : RegAddr) (v : Nat) : (c.wr d a v).mapWait = c.mapWait := rfl
@[simp] theorem Chip.wr_commit (c : Chip) (d : Nat) (a : RegAddr) (v : Nat) : (c.wr d a v).commit = c.commit := rfl
@[simp] theorem Chip.wr_dp (c : Chip) (d : Nat) (a : RegAddr) (v : Nat) : (c.wr d a v).dp = c.dp := rfl
@[simp] theorem Chip.wr_rl (c : Chip) (d : Nat) (a : RegAddr) (v : Nat) : (c.wr d a v).rl = c.rl := rfl
@[simp] theorem Chip.wr_tb (c : Chip) (d : Nat) (a : RegAddr) (v : Nat) : (c.wr d a v).tb = c.tb := rfl
@[simp] theorem Chip.wr_qs (c : Chip) (d : Nat) (a : RegAddr) (v : Nat) : (c.wr d a v).qs = c.qs := rfl
@[simp] theorem Chip.wr_cp (c : Chip) (d : Nat) (a : RegAddr) (v : Nat) : (c.wr d a v).cp = c.cp := rfl
@[simp] theorem Chip.wr_dre (c : Chip) (d : Nat) (a : RegAddr) (v : Nat) : (c.wr d a v).dre = c.dre := rfl
@[simp] theorem Chip.wr_sp (c : Chip) (d : Nat) (a : RegAddr) (v : Nat) : (c.wr d a v).sp = c.sp := rfl
@[simp] theorem Chip.wr_out (c : Chip) (d : Nat) (a : RegAddr) (v : Nat) : (c.wr d a v).out = c.out := rfl

/-! wfld -/

@[simp] theorem Chip.wfld_dies (c : Chip) (d : Nat) (a : RegAddr) (lo w v : Nat) : (c.wfld d a lo w v).dies = c.dies := rfl
@[simp] theorem Chip.wfld_free (c : Chip) (d : Nat) (a : RegAddr) (lo w v : Nat) : (c.wfld d a lo w v).free = c.free := rfl
@[simp] theorem Chip.wfld_clk (c : Chip) (d : Nat) (a : RegAddr) (lo w v : Nat) : (c.wfld d a lo w v).clk = c.clk := rfl
@[simp] theorem Chip.wfld_pwr (c : Chip) (d : Nat) (a : RegAddr) (lo w v : Nat) : (c.wfld d a lo w v).pwr = c.pwr := rfl
@[simp] theorem Chip.wfld_boot (c : Chip) (d : Nat) (a : RegAddr) (lo w v : Nat) : (c.wfld d a lo w v).boot = c.boot := rfl
@[simp] theorem Chip.wfld_trust (c : Chip) (d : Nat) (a : RegAddr) (lo w v : Nat) : (c.wfld d a lo w v).trust = c.trust := rfl
@[simp] theorem Chip.wfld_cfg (c : Chip) (d : Nat) (a : RegAddr) (lo w v : Nat) : (c.wfld d a lo w v).cfg = c.cfg := rfl
@[simp] theorem Chip.wfld_faults (c : Chip) (d : Nat) (a : RegAddr) (lo w v : Nat) : (c.wfld d a lo w v).faults = c.faults := rfl
@[simp] theorem Chip.wfld_fns (c : Chip) (d : Nat) (a : RegAddr) (lo w v : Nat) : (c.wfld d a lo w v).fns = c.fns := rfl
@[simp] theorem Chip.wfld_tags (c : Chip) (d : Nat) (a : RegAddr) (lo w v : Nat) : (c.wfld d a lo w v).tags = c.tags := rfl
@[simp] theorem Chip.wfld_culDown (c : Chip) (d : Nat) (a : RegAddr) (lo w v : Nat) : (c.wfld d a lo w v).culDown = c.culDown := rfl
@[simp] theorem Chip.wfld_culTrain (c : Chip) (d : Nat) (a : RegAddr) (lo w v : Nat) : (c.wfld d a lo w v).culTrain = c.culTrain := rfl
@[simp] theorem Chip.wfld_insts (c : Chip) (d : Nat) (a : RegAddr) (lo w v : Nat) : (c.wfld d a lo w v).insts = c.insts := rfl
@[simp] theorem Chip.wfld_keygens (c : Chip) (d : Nat) (a : RegAddr) (lo w v : Nat) : (c.wfld d a lo w v).keygens = c.keygens := rfl
@[simp] theorem Chip.wfld_chans (c : Chip) (d : Nat) (a : RegAddr) (lo w v : Nat) : (c.wfld d a lo w v).chans = c.chans := rfl
@[simp] theorem Chip.wfld_dmas (c : Chip) (d : Nat) (a : RegAddr) (lo w v : Nat) : (c.wfld d a lo w v).dmas = c.dmas := rfl
@[simp] theorem Chip.wfld_mapWait (c : Chip) (d : Nat) (a : RegAddr) (lo w v : Nat) : (c.wfld d a lo w v).mapWait = c.mapWait := rfl
@[simp] theorem Chip.wfld_commit (c : Chip) (d : Nat) (a : RegAddr) (lo w v : Nat) : (c.wfld d a lo w v).commit = c.commit := rfl
@[simp] theorem Chip.wfld_dp (c : Chip) (d : Nat) (a : RegAddr) (lo w v : Nat) : (c.wfld d a lo w v).dp = c.dp := rfl
@[simp] theorem Chip.wfld_rl (c : Chip) (d : Nat) (a : RegAddr) (lo w v : Nat) : (c.wfld d a lo w v).rl = c.rl := rfl
@[simp] theorem Chip.wfld_tb (c : Chip) (d : Nat) (a : RegAddr) (lo w v : Nat) : (c.wfld d a lo w v).tb = c.tb := rfl
@[simp] theorem Chip.wfld_qs (c : Chip) (d : Nat) (a : RegAddr) (lo w v : Nat) : (c.wfld d a lo w v).qs = c.qs := rfl
@[simp] theorem Chip.wfld_cp (c : Chip) (d : Nat) (a : RegAddr) (lo w v : Nat) : (c.wfld d a lo w v).cp = c.cp := rfl
@[simp] theorem Chip.wfld_dre (c : Chip) (d : Nat) (a : RegAddr) (lo w v : Nat) : (c.wfld d a lo w v).dre = c.dre := rfl
@[simp] theorem Chip.wfld_sp (c : Chip) (d : Nat) (a : RegAddr) (lo w v : Nat) : (c.wfld d a lo w v).sp = c.sp := rfl
@[simp] theorem Chip.wfld_out (c : Chip) (d : Nat) (a : RegAddr) (lo w v : Nat) : (c.wfld d a lo w v).out = c.out := rfl

/-! count -/

@[simp] theorem Chip.count_dies (c : Chip) (d : Nat) (a : RegAddr) (n : Nat) : (c.count d a n).dies = c.dies := by unfold Chip.count; split <;> rfl
@[simp] theorem Chip.count_free (c : Chip) (d : Nat) (a : RegAddr) (n : Nat) : (c.count d a n).free = c.free := by unfold Chip.count; split <;> rfl
@[simp] theorem Chip.count_clk (c : Chip) (d : Nat) (a : RegAddr) (n : Nat) : (c.count d a n).clk = c.clk := by unfold Chip.count; split <;> rfl
@[simp] theorem Chip.count_pwr (c : Chip) (d : Nat) (a : RegAddr) (n : Nat) : (c.count d a n).pwr = c.pwr := by unfold Chip.count; split <;> rfl
@[simp] theorem Chip.count_boot (c : Chip) (d : Nat) (a : RegAddr) (n : Nat) : (c.count d a n).boot = c.boot := by unfold Chip.count; split <;> rfl
@[simp] theorem Chip.count_trust (c : Chip) (d : Nat) (a : RegAddr) (n : Nat) : (c.count d a n).trust = c.trust := by unfold Chip.count; split <;> rfl
@[simp] theorem Chip.count_cfg (c : Chip) (d : Nat) (a : RegAddr) (n : Nat) : (c.count d a n).cfg = c.cfg := by unfold Chip.count; split <;> rfl
@[simp] theorem Chip.count_faults (c : Chip) (d : Nat) (a : RegAddr) (n : Nat) : (c.count d a n).faults = c.faults := by unfold Chip.count; split <;> rfl
@[simp] theorem Chip.count_fns (c : Chip) (d : Nat) (a : RegAddr) (n : Nat) : (c.count d a n).fns = c.fns := by unfold Chip.count; split <;> rfl
@[simp] theorem Chip.count_tags (c : Chip) (d : Nat) (a : RegAddr) (n : Nat) : (c.count d a n).tags = c.tags := by unfold Chip.count; split <;> rfl
@[simp] theorem Chip.count_culDown (c : Chip) (d : Nat) (a : RegAddr) (n : Nat) : (c.count d a n).culDown = c.culDown := by unfold Chip.count; split <;> rfl
@[simp] theorem Chip.count_culTrain (c : Chip) (d : Nat) (a : RegAddr) (n : Nat) : (c.count d a n).culTrain = c.culTrain := by unfold Chip.count; split <;> rfl
@[simp] theorem Chip.count_insts (c : Chip) (d : Nat) (a : RegAddr) (n : Nat) : (c.count d a n).insts = c.insts := by unfold Chip.count; split <;> rfl
@[simp] theorem Chip.count_keygens (c : Chip) (d : Nat) (a : RegAddr) (n : Nat) : (c.count d a n).keygens = c.keygens := by unfold Chip.count; split <;> rfl
@[simp] theorem Chip.count_chans (c : Chip) (d : Nat) (a : RegAddr) (n : Nat) : (c.count d a n).chans = c.chans := by unfold Chip.count; split <;> rfl
@[simp] theorem Chip.count_dmas (c : Chip) (d : Nat) (a : RegAddr) (n : Nat) : (c.count d a n).dmas = c.dmas := by unfold Chip.count; split <;> rfl
@[simp] theorem Chip.count_mapWait (c : Chip) (d : Nat) (a : RegAddr) (n : Nat) : (c.count d a n).mapWait = c.mapWait := by unfold Chip.count; split <;> rfl
@[simp] theorem Chip.count_commit (c : Chip) (d : Nat) (a : RegAddr) (n : Nat) : (c.count d a n).commit = c.commit := by unfold Chip.count; split <;> rfl
@[simp] theorem Chip.count_dp (c : Chip) (d : Nat) (a : RegAddr) (n : Nat) : (c.count d a n).dp = c.dp := by unfold Chip.count; split <;> rfl
@[simp] theorem Chip.count_rl (c : Chip) (d : Nat) (a : RegAddr) (n : Nat) : (c.count d a n).rl = c.rl := by unfold Chip.count; split <;> rfl
@[simp] theorem Chip.count_tb (c : Chip) (d : Nat) (a : RegAddr) (n : Nat) : (c.count d a n).tb = c.tb := by unfold Chip.count; split <;> rfl
@[simp] theorem Chip.count_qs (c : Chip) (d : Nat) (a : RegAddr) (n : Nat) : (c.count d a n).qs = c.qs := by unfold Chip.count; split <;> rfl
@[simp] theorem Chip.count_cp (c : Chip) (d : Nat) (a : RegAddr) (n : Nat) : (c.count d a n).cp = c.cp := by unfold Chip.count; split <;> rfl
@[simp] theorem Chip.count_dre (c : Chip) (d : Nat) (a : RegAddr) (n : Nat) : (c.count d a n).dre = c.dre := by unfold Chip.count; split <;> rfl
@[simp] theorem Chip.count_sp (c : Chip) (d : Nat) (a : RegAddr) (n : Nat) : (c.count d a n).sp = c.sp := by unfold Chip.count; split <;> rfl
@[simp] theorem Chip.count_out (c : Chip) (d : Nat) (a : RegAddr) (n : Nat) : (c.count d a n).out = c.out := by unfold Chip.count; split <;> rfl

/-! macCount -/

@[simp] theorem Chip.macCount_dies (c : Chip) (lane k n : Nat) : (c.macCount lane k n).dies = c.dies := rfl
@[simp] theorem Chip.macCount_free (c : Chip) (lane k n : Nat) : (c.macCount lane k n).free = c.free := rfl
@[simp] theorem Chip.macCount_clk (c : Chip) (lane k n : Nat) : (c.macCount lane k n).clk = c.clk := rfl
@[simp] theorem Chip.macCount_pwr (c : Chip) (lane k n : Nat) : (c.macCount lane k n).pwr = c.pwr := rfl
@[simp] theorem Chip.macCount_boot (c : Chip) (lane k n : Nat) : (c.macCount lane k n).boot = c.boot := rfl
@[simp] theorem Chip.macCount_trust (c : Chip) (lane k n : Nat) : (c.macCount lane k n).trust = c.trust := rfl
@[simp] theorem Chip.macCount_cfg (c : Chip) (lane k n : Nat) : (c.macCount lane k n).cfg = c.cfg := rfl
@[simp] theorem Chip.macCount_faults (c : Chip) (lane k n : Nat) : (c.macCount lane k n).faults = c.faults := rfl
@[simp] theorem Chip.macCount_regs (c : Chip) (lane k n : Nat) : (c.macCount lane k n).regs = c.regs := rfl
@[simp] theorem Chip.macCount_fns (c : Chip) (lane k n : Nat) : (c.macCount lane k n).fns = c.fns := rfl
@[simp] theorem Chip.macCount_tags (c : Chip) (lane k n : Nat) : (c.macCount lane k n).tags = c.tags := rfl
@[simp] theorem Chip.macCount_culDown (c : Chip) (lane k n : Nat) : (c.macCount lane k n).culDown = c.culDown := rfl
@[simp] theorem Chip.macCount_culTrain (c : Chip) (lane k n : Nat) : (c.macCount lane k n).culTrain = c.culTrain := rfl
@[simp] theorem Chip.macCount_insts (c : Chip) (lane k n : Nat) : (c.macCount lane k n).insts = c.insts := rfl
@[simp] theorem Chip.macCount_keygens (c : Chip) (lane k n : Nat) : (c.macCount lane k n).keygens = c.keygens := rfl
@[simp] theorem Chip.macCount_chans (c : Chip) (lane k n : Nat) : (c.macCount lane k n).chans = c.chans := rfl
@[simp] theorem Chip.macCount_dmas (c : Chip) (lane k n : Nat) : (c.macCount lane k n).dmas = c.dmas := rfl
@[simp] theorem Chip.macCount_mapWait (c : Chip) (lane k n : Nat) : (c.macCount lane k n).mapWait = c.mapWait := rfl
@[simp] theorem Chip.macCount_commit (c : Chip) (lane k n : Nat) : (c.macCount lane k n).commit = c.commit := rfl
@[simp] theorem Chip.macCount_dp (c : Chip) (lane k n : Nat) : (c.macCount lane k n).dp = c.dp := rfl
@[simp] theorem Chip.macCount_rl (c : Chip) (lane k n : Nat) : (c.macCount lane k n).rl = c.rl := rfl
@[simp] theorem Chip.macCount_qs (c : Chip) (lane k n : Nat) : (c.macCount lane k n).qs = c.qs := rfl
@[simp] theorem Chip.macCount_cp (c : Chip) (lane k n : Nat) : (c.macCount lane k n).cp = c.cp := rfl
@[simp] theorem Chip.macCount_dre (c : Chip) (lane k n : Nat) : (c.macCount lane k n).dre = c.dre := rfl
@[simp] theorem Chip.macCount_sp (c : Chip) (lane k n : Nat) : (c.macCount lane k n).sp = c.sp := rfl
@[simp] theorem Chip.macCount_out (c : Chip) (lane k n : Nat) : (c.macCount lane k n).out = c.out := rfl

/-! setPkt -/

@[simp] theorem Chip.setPkt_dies (c : Chip) (p : Pkt) : (c.setPkt p).dies = c.dies := rfl
@[simp] theorem Chip.setPkt_free (c : Chip) (p : Pkt) : (c.setPkt p).free = c.free := rfl
@[simp] theorem Chip.setPkt_clk (c : Chip) (p : Pkt) : (c.setPkt p).clk = c.clk := rfl
@[simp] theorem Chip.setPkt_pwr (c : Chip) (p : Pkt) : (c.setPkt p).pwr = c.pwr := rfl
@[simp] theorem Chip.setPkt_boot (c : Chip) (p : Pkt) : (c.setPkt p).boot = c.boot := rfl
@[simp] theorem Chip.setPkt_trust (c : Chip) (p : Pkt) : (c.setPkt p).trust = c.trust := rfl
@[simp] theorem Chip.setPkt_cfg (c : Chip) (p : Pkt) : (c.setPkt p).cfg = c.cfg := rfl
@[simp] theorem Chip.setPkt_faults (c : Chip) (p : Pkt) : (c.setPkt p).faults = c.faults := rfl
@[simp] theorem Chip.setPkt_regs (c : Chip) (p : Pkt) : (c.setPkt p).regs = c.regs := rfl
@[simp] theorem Chip.setPkt_fns (c : Chip) (p : Pkt) : (c.setPkt p).fns = c.fns := rfl
@[simp] theorem Chip.setPkt_tags (c : Chip) (p : Pkt) : (c.setPkt p).tags = c.tags := rfl
@[simp] theorem Chip.setPkt_culDown (c : Chip) (p : Pkt) : (c.setPkt p).culDown = c.culDown := rfl
@[simp] theorem Chip.setPkt_culTrain (c : Chip) (p : Pkt) : (c.setPkt p).culTrain = c.culTrain := rfl
@[simp] theorem Chip.setPkt_insts (c : Chip) (p : Pkt) : (c.setPkt p).insts = c.insts := rfl
@[simp] theorem Chip.setPkt_keygens (c : Chip) (p : Pkt) : (c.setPkt p).keygens = c.keygens := rfl
@[simp] theorem Chip.setPkt_chans (c : Chip) (p : Pkt) : (c.setPkt p).chans = c.chans := rfl
@[simp] theorem Chip.setPkt_dmas (c : Chip) (p : Pkt) : (c.setPkt p).dmas = c.dmas := rfl
@[simp] theorem Chip.setPkt_mapWait (c : Chip) (p : Pkt) : (c.setPkt p).mapWait = c.mapWait := rfl
@[simp] theorem Chip.setPkt_commit (c : Chip) (p : Pkt) : (c.setPkt p).commit = c.commit := rfl
@[simp] theorem Chip.setPkt_rl (c : Chip) (p : Pkt) : (c.setPkt p).rl = c.rl := rfl
@[simp] theorem Chip.setPkt_tb (c : Chip) (p : Pkt) : (c.setPkt p).tb = c.tb := rfl
@[simp] theorem Chip.setPkt_qs (c : Chip) (p : Pkt) : (c.setPkt p).qs = c.qs := rfl
@[simp] theorem Chip.setPkt_cp (c : Chip) (p : Pkt) : (c.setPkt p).cp = c.cp := rfl
@[simp] theorem Chip.setPkt_dre (c : Chip) (p : Pkt) : (c.setPkt p).dre = c.dre := rfl
@[simp] theorem Chip.setPkt_sp (c : Chip) (p : Pkt) : (c.setPkt p).sp = c.sp := rfl
@[simp] theorem Chip.setPkt_out (c : Chip) (p : Pkt) : (c.setPkt p).out = c.out := rfl

/-! delPkt -/

@[simp] theorem Chip.delPkt_dies (c : Chip) (id : Nat) : (c.delPkt id).dies = c.dies := rfl
@[simp] theorem Chip.delPkt_free (c : Chip) (id : Nat) : (c.delPkt id).free = c.free := rfl
@[simp] theorem Chip.delPkt_clk (c : Chip) (id : Nat) : (c.delPkt id).clk = c.clk := rfl
@[simp] theorem Chip.delPkt_pwr (c : Chip) (id : Nat) : (c.delPkt id).pwr = c.pwr := rfl
@[simp] theorem Chip.delPkt_boot (c : Chip) (id : Nat) : (c.delPkt id).boot = c.boot := rfl
@[simp] theorem Chip.delPkt_trust (c : Chip) (id : Nat) : (c.delPkt id).trust = c.trust := rfl
@[simp] theorem Chip.delPkt_cfg (c : Chip) (id : Nat) : (c.delPkt id).cfg = c.cfg := rfl
@[simp] theorem Chip.delPkt_faults (c : Chip) (id : Nat) : (c.delPkt id).faults = c.faults := rfl
@[simp] theorem Chip.delPkt_regs (c : Chip) (id : Nat) : (c.delPkt id).regs = c.regs := rfl
@[simp] theorem Chip.delPkt_fns (c : Chip) (id : Nat) : (c.delPkt id).fns = c.fns := rfl
@[simp] theorem Chip.delPkt_tags (c : Chip) (id : Nat) : (c.delPkt id).tags = c.tags := rfl
@[simp] theorem Chip.delPkt_culDown (c : Chip) (id : Nat) : (c.delPkt id).culDown = c.culDown := rfl
@[simp] theorem Chip.delPkt_culTrain (c : Chip) (id : Nat) : (c.delPkt id).culTrain = c.culTrain := rfl
@[simp] theorem Chip.delPkt_insts (c : Chip) (id : Nat) : (c.delPkt id).insts = c.insts := rfl
@[simp] theorem Chip.delPkt_keygens (c : Chip) (id : Nat) : (c.delPkt id).keygens = c.keygens := rfl
@[simp] theorem Chip.delPkt_chans (c : Chip) (id : Nat) : (c.delPkt id).chans = c.chans := rfl
@[simp] theorem Chip.delPkt_dmas (c : Chip) (id : Nat) : (c.delPkt id).dmas = c.dmas := rfl
@[simp] theorem Chip.delPkt_mapWait (c : Chip) (id : Nat) : (c.delPkt id).mapWait = c.mapWait := rfl
@[simp] theorem Chip.delPkt_commit (c : Chip) (id : Nat) : (c.delPkt id).commit = c.commit := rfl
@[simp] theorem Chip.delPkt_rl (c : Chip) (id : Nat) : (c.delPkt id).rl = c.rl := rfl
@[simp] theorem Chip.delPkt_tb (c : Chip) (id : Nat) : (c.delPkt id).tb = c.tb := rfl
@[simp] theorem Chip.delPkt_qs (c : Chip) (id : Nat) : (c.delPkt id).qs = c.qs := rfl
@[simp] theorem Chip.delPkt_cp (c : Chip) (id : Nat) : (c.delPkt id).cp = c.cp := rfl
@[simp] theorem Chip.delPkt_dre (c : Chip) (id : Nat) : (c.delPkt id).dre = c.dre := rfl
@[simp] theorem Chip.delPkt_sp (c : Chip) (id : Nat) : (c.delPkt id).sp = c.sp := rfl
@[simp] theorem Chip.delPkt_out (c : Chip) (id : Nat) : (c.delPkt id).out = c.out := rfl

/-! addPkt -/

@[simp] theorem Chip.addPkt_dies (c : Chip) (p : Pkt) : (c.addPkt p).dies = c.dies := rfl
@[simp] theorem Chip.addPkt_free (c : Chip) (p : Pkt) : (c.addPkt p).free = c.free := rfl
@[simp] theorem Chip.addPkt_clk (c : Chip) (p : Pkt) : (c.addPkt p).clk = c.clk := rfl
@[simp] theorem Chip.addPkt_pwr (c : Chip) (p : Pkt) : (c.addPkt p).pwr = c.pwr := rfl
@[simp] theorem Chip.addPkt_boot (c : Chip) (p : Pkt) : (c.addPkt p).boot = c.boot := rfl
@[simp] theorem Chip.addPkt_trust (c : Chip) (p : Pkt) : (c.addPkt p).trust = c.trust := rfl
@[simp] theorem Chip.addPkt_cfg (c : Chip) (p : Pkt) : (c.addPkt p).cfg = c.cfg := rfl
@[simp] theorem Chip.addPkt_faults (c : Chip) (p : Pkt) : (c.addPkt p).faults = c.faults := rfl
@[simp] theorem Chip.addPkt_regs (c : Chip) (p : Pkt) : (c.addPkt p).regs = c.regs := rfl
@[simp] theorem Chip.addPkt_fns (c : Chip) (p : Pkt) : (c.addPkt p).fns = c.fns := rfl
@[simp] theorem Chip.addPkt_tags (c : Chip) (p : Pkt) : (c.addPkt p).tags = c.tags := rfl
@[simp] theorem Chip.addPkt_culDown (c : Chip) (p : Pkt) : (c.addPkt p).culDown = c.culDown := rfl
@[simp] theorem Chip.addPkt_culTrain (c : Chip) (p : Pkt) : (c.addPkt p).culTrain = c.culTrain := rfl
@[simp] theorem Chip.addPkt_insts (c : Chip) (p : Pkt) : (c.addPkt p).insts = c.insts := rfl
@[simp] theorem Chip.addPkt_keygens (c : Chip) (p : Pkt) : (c.addPkt p).keygens = c.keygens := rfl
@[simp] theorem Chip.addPkt_chans (c : Chip) (p : Pkt) : (c.addPkt p).chans = c.chans := rfl
@[simp] theorem Chip.addPkt_dmas (c : Chip) (p : Pkt) : (c.addPkt p).dmas = c.dmas := rfl
@[simp] theorem Chip.addPkt_mapWait (c : Chip) (p : Pkt) : (c.addPkt p).mapWait = c.mapWait := rfl
@[simp] theorem Chip.addPkt_commit (c : Chip) (p : Pkt) : (c.addPkt p).commit = c.commit := rfl
@[simp] theorem Chip.addPkt_rl (c : Chip) (p : Pkt) : (c.addPkt p).rl = c.rl := rfl
@[simp] theorem Chip.addPkt_tb (c : Chip) (p : Pkt) : (c.addPkt p).tb = c.tb := rfl
@[simp] theorem Chip.addPkt_qs (c : Chip) (p : Pkt) : (c.addPkt p).qs = c.qs := rfl
@[simp] theorem Chip.addPkt_cp (c : Chip) (p : Pkt) : (c.addPkt p).cp = c.cp := rfl
@[simp] theorem Chip.addPkt_dre (c : Chip) (p : Pkt) : (c.addPkt p).dre = c.dre := rfl
@[simp] theorem Chip.addPkt_sp (c : Chip) (p : Pkt) : (c.addPkt p).sp = c.sp := rfl
@[simp] theorem Chip.addPkt_out (c : Chip) (p : Pkt) : (c.addPkt p).out = c.out := rfl

/-! move -/

@[simp] theorem Chip.move_dies (c : Chip) (p : Pkt) (st : PStage) : (c.move p st).dies = c.dies := rfl
@[simp] theorem Chip.move_free (c : Chip) (p : Pkt) (st : PStage) : (c.move p st).free = c.free := rfl
@[simp] theorem Chip.move_clk (c : Chip) (p : Pkt) (st : PStage) : (c.move p st).clk = c.clk := rfl
@[simp] theorem Chip.move_pwr (c : Chip) (p : Pkt) (st : PStage) : (c.move p st).pwr = c.pwr := rfl
@[simp] theorem Chip.move_boot (c : Chip) (p : Pkt) (st : PStage) : (c.move p st).boot = c.boot := rfl
@[simp] theorem Chip.move_trust (c : Chip) (p : Pkt) (st : PStage) : (c.move p st).trust = c.trust := rfl
@[simp] theorem Chip.move_cfg (c : Chip) (p : Pkt) (st : PStage) : (c.move p st).cfg = c.cfg := rfl
@[simp] theorem Chip.move_faults (c : Chip) (p : Pkt) (st : PStage) : (c.move p st).faults = c.faults := rfl
@[simp] theorem Chip.move_regs (c : Chip) (p : Pkt) (st : PStage) : (c.move p st).regs = c.regs := rfl
@[simp] theorem Chip.move_fns (c : Chip) (p : Pkt) (st : PStage) : (c.move p st).fns = c.fns := rfl
@[simp] theorem Chip.move_tags (c : Chip) (p : Pkt) (st : PStage) : (c.move p st).tags = c.tags := rfl
@[simp] theorem Chip.move_culDown (c : Chip) (p : Pkt) (st : PStage) : (c.move p st).culDown = c.culDown := rfl
@[simp] theorem Chip.move_culTrain (c : Chip) (p : Pkt) (st : PStage) : (c.move p st).culTrain = c.culTrain := rfl
@[simp] theorem Chip.move_insts (c : Chip) (p : Pkt) (st : PStage) : (c.move p st).insts = c.insts := rfl
@[simp] theorem Chip.move_keygens (c : Chip) (p : Pkt) (st : PStage) : (c.move p st).keygens = c.keygens := rfl
@[simp] theorem Chip.move_chans (c : Chip) (p : Pkt) (st : PStage) : (c.move p st).chans = c.chans := rfl
@[simp] theorem Chip.move_dmas (c : Chip) (p : Pkt) (st : PStage) : (c.move p st).dmas = c.dmas := rfl
@[simp] theorem Chip.move_mapWait (c : Chip) (p : Pkt) (st : PStage) : (c.move p st).mapWait = c.mapWait := rfl
@[simp] theorem Chip.move_commit (c : Chip) (p : Pkt) (st : PStage) : (c.move p st).commit = c.commit := rfl
@[simp] theorem Chip.move_rl (c : Chip) (p : Pkt) (st : PStage) : (c.move p st).rl = c.rl := rfl
@[simp] theorem Chip.move_tb (c : Chip) (p : Pkt) (st : PStage) : (c.move p st).tb = c.tb := rfl
@[simp] theorem Chip.move_qs (c : Chip) (p : Pkt) (st : PStage) : (c.move p st).qs = c.qs := rfl
@[simp] theorem Chip.move_cp (c : Chip) (p : Pkt) (st : PStage) : (c.move p st).cp = c.cp := rfl
@[simp] theorem Chip.move_dre (c : Chip) (p : Pkt) (st : PStage) : (c.move p st).dre = c.dre := rfl
@[simp] theorem Chip.move_sp (c : Chip) (p : Pkt) (st : PStage) : (c.move p st).sp = c.sp := rfl
@[simp] theorem Chip.move_out (c : Chip) (p : Pkt) (st : PStage) : (c.move p st).out = c.out := rfl

/-! setRx -/

@[simp] theorem Chip.setRx_dies (c : Chip) (lane : Nat) (l : List Rx) : (c.setRx lane l).dies = c.dies := rfl
@[simp] theorem Chip.setRx_free (c : Chip) (lane : Nat) (l : List Rx) : (c.setRx lane l).free = c.free := rfl
@[simp] theorem Chip.setRx_clk (c : Chip) (lane : Nat) (l : List Rx) : (c.setRx lane l).clk = c.clk := rfl
@[simp] theorem Chip.setRx_pwr (c : Chip) (lane : Nat) (l : List Rx) : (c.setRx lane l).pwr = c.pwr := rfl
@[simp] theorem Chip.setRx_boot (c : Chip) (lane : Nat) (l : List Rx) : (c.setRx lane l).boot = c.boot := rfl
@[simp] theorem Chip.setRx_trust (c : Chip) (lane : Nat) (l : List Rx) : (c.setRx lane l).trust = c.trust := rfl
@[simp] theorem Chip.setRx_cfg (c : Chip) (lane : Nat) (l : List Rx) : (c.setRx lane l).cfg = c.cfg := rfl
@[simp] theorem Chip.setRx_faults (c : Chip) (lane : Nat) (l : List Rx) : (c.setRx lane l).faults = c.faults := rfl
@[simp] theorem Chip.setRx_regs (c : Chip) (lane : Nat) (l : List Rx) : (c.setRx lane l).regs = c.regs := rfl
@[simp] theorem Chip.setRx_fns (c : Chip) (lane : Nat) (l : List Rx) : (c.setRx lane l).fns = c.fns := rfl
@[simp] theorem Chip.setRx_tags (c : Chip) (lane : Nat) (l : List Rx) : (c.setRx lane l).tags = c.tags := rfl
@[simp] theorem Chip.setRx_culDown (c : Chip) (lane : Nat) (l : List Rx) : (c.setRx lane l).culDown = c.culDown := rfl
@[simp] theorem Chip.setRx_culTrain (c : Chip) (lane : Nat) (l : List Rx) : (c.setRx lane l).culTrain = c.culTrain := rfl
@[simp] theorem Chip.setRx_insts (c : Chip) (lane : Nat) (l : List Rx) : (c.setRx lane l).insts = c.insts := rfl
@[simp] theorem Chip.setRx_keygens (c : Chip) (lane : Nat) (l : List Rx) : (c.setRx lane l).keygens = c.keygens := rfl
@[simp] theorem Chip.setRx_chans (c : Chip) (lane : Nat) (l : List Rx) : (c.setRx lane l).chans = c.chans := rfl
@[simp] theorem Chip.setRx_dmas (c : Chip) (lane : Nat) (l : List Rx) : (c.setRx lane l).dmas = c.dmas := rfl
@[simp] theorem Chip.setRx_mapWait (c : Chip) (lane : Nat) (l : List Rx) : (c.setRx lane l).mapWait = c.mapWait := rfl
@[simp] theorem Chip.setRx_commit (c : Chip) (lane : Nat) (l : List Rx) : (c.setRx lane l).commit = c.commit := rfl
@[simp] theorem Chip.setRx_rl (c : Chip) (lane : Nat) (l : List Rx) : (c.setRx lane l).rl = c.rl := rfl
@[simp] theorem Chip.setRx_tb (c : Chip) (lane : Nat) (l : List Rx) : (c.setRx lane l).tb = c.tb := rfl
@[simp] theorem Chip.setRx_qs (c : Chip) (lane : Nat) (l : List Rx) : (c.setRx lane l).qs = c.qs := rfl
@[simp] theorem Chip.setRx_cp (c : Chip) (lane : Nat) (l : List Rx) : (c.setRx lane l).cp = c.cp := rfl
@[simp] theorem Chip.setRx_dre (c : Chip) (lane : Nat) (l : List Rx) : (c.setRx lane l).dre = c.dre := rfl
@[simp] theorem Chip.setRx_sp (c : Chip) (lane : Nat) (l : List Rx) : (c.setRx lane l).sp = c.sp := rfl
@[simp] theorem Chip.setRx_out (c : Chip) (lane : Nat) (l : List Rx) : (c.setRx lane l).out = c.out := rfl

/-! setTx -/

@[simp] theorem Chip.setTx_dies (c : Chip) (lane : Nat) (l : List Tx) : (c.setTx lane l).dies = c.dies := rfl
@[simp] theorem Chip.setTx_free (c : Chip) (lane : Nat) (l : List Tx) : (c.setTx lane l).free = c.free := rfl
@[simp] theorem Chip.setTx_clk (c : Chip) (lane : Nat) (l : List Tx) : (c.setTx lane l).clk = c.clk := rfl
@[simp] theorem Chip.setTx_pwr (c : Chip) (lane : Nat) (l : List Tx) : (c.setTx lane l).pwr = c.pwr := rfl
@[simp] theorem Chip.setTx_boot (c : Chip) (lane : Nat) (l : List Tx) : (c.setTx lane l).boot = c.boot := rfl
@[simp] theorem Chip.setTx_trust (c : Chip) (lane : Nat) (l : List Tx) : (c.setTx lane l).trust = c.trust := rfl
@[simp] theorem Chip.setTx_cfg (c : Chip) (lane : Nat) (l : List Tx) : (c.setTx lane l).cfg = c.cfg := rfl
@[simp] theorem Chip.setTx_faults (c : Chip) (lane : Nat) (l : List Tx) : (c.setTx lane l).faults = c.faults := rfl
@[simp] theorem Chip.setTx_regs (c : Chip) (lane : Nat) (l : List Tx) : (c.setTx lane l).regs = c.regs := rfl
@[simp] theorem Chip.setTx_fns (c : Chip) (lane : Nat) (l : List Tx) : (c.setTx lane l).fns = c.fns := rfl
@[simp] theorem Chip.setTx_tags (c : Chip) (lane : Nat) (l : List Tx) : (c.setTx lane l).tags = c.tags := rfl
@[simp] theorem Chip.setTx_culDown (c : Chip) (lane : Nat) (l : List Tx) : (c.setTx lane l).culDown = c.culDown := rfl
@[simp] theorem Chip.setTx_culTrain (c : Chip) (lane : Nat) (l : List Tx) : (c.setTx lane l).culTrain = c.culTrain := rfl
@[simp] theorem Chip.setTx_insts (c : Chip) (lane : Nat) (l : List Tx) : (c.setTx lane l).insts = c.insts := rfl
@[simp] theorem Chip.setTx_keygens (c : Chip) (lane : Nat) (l : List Tx) : (c.setTx lane l).keygens = c.keygens := rfl
@[simp] theorem Chip.setTx_chans (c : Chip) (lane : Nat) (l : List Tx) : (c.setTx lane l).chans = c.chans := rfl
@[simp] theorem Chip.setTx_dmas (c : Chip) (lane : Nat) (l : List Tx) : (c.setTx lane l).dmas = c.dmas := rfl
@[simp] theorem Chip.setTx_mapWait (c : Chip) (lane : Nat) (l : List Tx) : (c.setTx lane l).mapWait = c.mapWait := rfl
@[simp] theorem Chip.setTx_commit (c : Chip) (lane : Nat) (l : List Tx) : (c.setTx lane l).commit = c.commit := rfl
@[simp] theorem Chip.setTx_rl (c : Chip) (lane : Nat) (l : List Tx) : (c.setTx lane l).rl = c.rl := rfl
@[simp] theorem Chip.setTx_tb (c : Chip) (lane : Nat) (l : List Tx) : (c.setTx lane l).tb = c.tb := rfl
@[simp] theorem Chip.setTx_qs (c : Chip) (lane : Nat) (l : List Tx) : (c.setTx lane l).qs = c.qs := rfl
@[simp] theorem Chip.setTx_cp (c : Chip) (lane : Nat) (l : List Tx) : (c.setTx lane l).cp = c.cp := rfl
@[simp] theorem Chip.setTx_dre (c : Chip) (lane : Nat) (l : List Tx) : (c.setTx lane l).dre = c.dre := rfl
@[simp] theorem Chip.setTx_sp (c : Chip) (lane : Nat) (l : List Tx) : (c.setTx lane l).sp = c.sp := rfl
@[simp] theorem Chip.setTx_out (c : Chip) (lane : Nat) (l : List Tx) : (c.setTx lane l).out = c.out := rfl

/-! setShaper -/

@[simp] theorem Chip.setShaper_dies (c : Chip) (k : Nat) (s : Shaper) : (c.setShaper k s).dies = c.dies := rfl
@[simp] theorem Chip.setShaper_free (c : Chip) (k : Nat) (s : Shaper) : (c.setShaper k s).free = c.free := rfl
@[simp] theorem Chip.setShaper_clk (c : Chip) (k : Nat) (s : Shaper) : (c.setShaper k s).clk = c.clk := rfl
@[simp] theorem Chip.setShaper_pwr (c : Chip) (k : Nat) (s : Shaper) : (c.setShaper k s).pwr = c.pwr := rfl
@[simp] theorem Chip.setShaper_boot (c : Chip) (k : Nat) (s : Shaper) : (c.setShaper k s).boot = c.boot := rfl
@[simp] theorem Chip.setShaper_trust (c : Chip) (k : Nat) (s : Shaper) : (c.setShaper k s).trust = c.trust := rfl
@[simp] theorem Chip.setShaper_cfg (c : Chip) (k : Nat) (s : Shaper) : (c.setShaper k s).cfg = c.cfg := rfl
@[simp] theorem Chip.setShaper_faults (c : Chip) (k : Nat) (s : Shaper) : (c.setShaper k s).faults = c.faults := rfl
@[simp] theorem Chip.setShaper_regs (c : Chip) (k : Nat) (s : Shaper) : (c.setShaper k s).regs = c.regs := rfl
@[simp] theorem Chip.setShaper_fns (c : Chip) (k : Nat) (s : Shaper) : (c.setShaper k s).fns = c.fns := rfl
@[simp] theorem Chip.setShaper_tags (c : Chip) (k : Nat) (s : Shaper) : (c.setShaper k s).tags = c.tags := rfl
@[simp] theorem Chip.setShaper_culDown (c : Chip) (k : Nat) (s : Shaper) : (c.setShaper k s).culDown = c.culDown := rfl
@[simp] theorem Chip.setShaper_culTrain (c : Chip) (k : Nat) (s : Shaper) : (c.setShaper k s).culTrain = c.culTrain := rfl
@[simp] theorem Chip.setShaper_insts (c : Chip) (k : Nat) (s : Shaper) : (c.setShaper k s).insts = c.insts := rfl
@[simp] theorem Chip.setShaper_keygens (c : Chip) (k : Nat) (s : Shaper) : (c.setShaper k s).keygens = c.keygens := rfl
@[simp] theorem Chip.setShaper_chans (c : Chip) (k : Nat) (s : Shaper) : (c.setShaper k s).chans = c.chans := rfl
@[simp] theorem Chip.setShaper_dmas (c : Chip) (k : Nat) (s : Shaper) : (c.setShaper k s).dmas = c.dmas := rfl
@[simp] theorem Chip.setShaper_mapWait (c : Chip) (k : Nat) (s : Shaper) : (c.setShaper k s).mapWait = c.mapWait := rfl
@[simp] theorem Chip.setShaper_commit (c : Chip) (k : Nat) (s : Shaper) : (c.setShaper k s).commit = c.commit := rfl
@[simp] theorem Chip.setShaper_dp (c : Chip) (k : Nat) (s : Shaper) : (c.setShaper k s).dp = c.dp := rfl
@[simp] theorem Chip.setShaper_rl (c : Chip) (k : Nat) (s : Shaper) : (c.setShaper k s).rl = c.rl := rfl
@[simp] theorem Chip.setShaper_tb (c : Chip) (k : Nat) (s : Shaper) : (c.setShaper k s).tb = c.tb := rfl
@[simp] theorem Chip.setShaper_cp (c : Chip) (k : Nat) (s : Shaper) : (c.setShaper k s).cp = c.cp := rfl
@[simp] theorem Chip.setShaper_dre (c : Chip) (k : Nat) (s : Shaper) : (c.setShaper k s).dre = c.dre := rfl
@[simp] theorem Chip.setShaper_sp (c : Chip) (k : Nat) (s : Shaper) : (c.setShaper k s).sp = c.sp := rfl
@[simp] theorem Chip.setShaper_out (c : Chip) (k : Nat) (s : Shaper) : (c.setShaper k s).out = c.out := rfl

/-! setMacTab -/

@[simp] theorem Chip.setMacTab_dies (c : Chip) (d : Nat) (t : Tab (Option MacE)) : (c.setMacTab d t).dies = c.dies := rfl
@[simp] theorem Chip.setMacTab_free (c : Chip) (d : Nat) (t : Tab (Option MacE)) : (c.setMacTab d t).free = c.free := rfl
@[simp] theorem Chip.setMacTab_clk (c : Chip) (d : Nat) (t : Tab (Option MacE)) : (c.setMacTab d t).clk = c.clk := rfl
@[simp] theorem Chip.setMacTab_pwr (c : Chip) (d : Nat) (t : Tab (Option MacE)) : (c.setMacTab d t).pwr = c.pwr := rfl
@[simp] theorem Chip.setMacTab_boot (c : Chip) (d : Nat) (t : Tab (Option MacE)) : (c.setMacTab d t).boot = c.boot := rfl
@[simp] theorem Chip.setMacTab_trust (c : Chip) (d : Nat) (t : Tab (Option MacE)) : (c.setMacTab d t).trust = c.trust := rfl
@[simp] theorem Chip.setMacTab_cfg (c : Chip) (d : Nat) (t : Tab (Option MacE)) : (c.setMacTab d t).cfg = c.cfg := rfl
@[simp] theorem Chip.setMacTab_faults (c : Chip) (d : Nat) (t : Tab (Option MacE)) : (c.setMacTab d t).faults = c.faults := rfl
@[simp] theorem Chip.setMacTab_regs (c : Chip) (d : Nat) (t : Tab (Option MacE)) : (c.setMacTab d t).regs = c.regs := rfl
@[simp] theorem Chip.setMacTab_fns (c : Chip) (d : Nat) (t : Tab (Option MacE)) : (c.setMacTab d t).fns = c.fns := rfl
@[simp] theorem Chip.setMacTab_tags (c : Chip) (d : Nat) (t : Tab (Option MacE)) : (c.setMacTab d t).tags = c.tags := rfl
@[simp] theorem Chip.setMacTab_culDown (c : Chip) (d : Nat) (t : Tab (Option MacE)) : (c.setMacTab d t).culDown = c.culDown := rfl
@[simp] theorem Chip.setMacTab_culTrain (c : Chip) (d : Nat) (t : Tab (Option MacE)) : (c.setMacTab d t).culTrain = c.culTrain := rfl
@[simp] theorem Chip.setMacTab_insts (c : Chip) (d : Nat) (t : Tab (Option MacE)) : (c.setMacTab d t).insts = c.insts := rfl
@[simp] theorem Chip.setMacTab_keygens (c : Chip) (d : Nat) (t : Tab (Option MacE)) : (c.setMacTab d t).keygens = c.keygens := rfl
@[simp] theorem Chip.setMacTab_chans (c : Chip) (d : Nat) (t : Tab (Option MacE)) : (c.setMacTab d t).chans = c.chans := rfl
@[simp] theorem Chip.setMacTab_dmas (c : Chip) (d : Nat) (t : Tab (Option MacE)) : (c.setMacTab d t).dmas = c.dmas := rfl
@[simp] theorem Chip.setMacTab_mapWait (c : Chip) (d : Nat) (t : Tab (Option MacE)) : (c.setMacTab d t).mapWait = c.mapWait := rfl
@[simp] theorem Chip.setMacTab_commit (c : Chip) (d : Nat) (t : Tab (Option MacE)) : (c.setMacTab d t).commit = c.commit := rfl
@[simp] theorem Chip.setMacTab_dp (c : Chip) (d : Nat) (t : Tab (Option MacE)) : (c.setMacTab d t).dp = c.dp := rfl
@[simp] theorem Chip.setMacTab_rl (c : Chip) (d : Nat) (t : Tab (Option MacE)) : (c.setMacTab d t).rl = c.rl := rfl
@[simp] theorem Chip.setMacTab_qs (c : Chip) (d : Nat) (t : Tab (Option MacE)) : (c.setMacTab d t).qs = c.qs := rfl
@[simp] theorem Chip.setMacTab_cp (c : Chip) (d : Nat) (t : Tab (Option MacE)) : (c.setMacTab d t).cp = c.cp := rfl
@[simp] theorem Chip.setMacTab_dre (c : Chip) (d : Nat) (t : Tab (Option MacE)) : (c.setMacTab d t).dre = c.dre := rfl
@[simp] theorem Chip.setMacTab_sp (c : Chip) (d : Nat) (t : Tab (Option MacE)) : (c.setMacTab d t).sp = c.sp := rfl
@[simp] theorem Chip.setMacTab_out (c : Chip) (d : Nat) (t : Tab (Option MacE)) : (c.setMacTab d t).out = c.out := rfl

/-! setFlowTab -/

@[simp] theorem Chip.setFlowTab_dies (c : Chip) (d : Nat) (t : Tab (Option FlowE)) : (c.setFlowTab d t).dies = c.dies := rfl
@[simp] theorem Chip.setFlowTab_free (c : Chip) (d : Nat) (t : Tab (Option FlowE)) : (c.setFlowTab d t).free = c.free := rfl
@[simp] theorem Chip.setFlowTab_clk (c : Chip) (d : Nat) (t : Tab (Option FlowE)) : (c.setFlowTab d t).clk = c.clk := rfl
@[simp] theorem Chip.setFlowTab_pwr (c : Chip) (d : Nat) (t : Tab (Option FlowE)) : (c.setFlowTab d t).pwr = c.pwr := rfl
@[simp] theorem Chip.setFlowTab_boot (c : Chip) (d : Nat) (t : Tab (Option FlowE)) : (c.setFlowTab d t).boot = c.boot := rfl
@[simp] theorem Chip.setFlowTab_trust (c : Chip) (d : Nat) (t : Tab (Option FlowE)) : (c.setFlowTab d t).trust = c.trust := rfl
@[simp] theorem Chip.setFlowTab_cfg (c : Chip) (d : Nat) (t : Tab (Option FlowE)) : (c.setFlowTab d t).cfg = c.cfg := rfl
@[simp] theorem Chip.setFlowTab_faults (c : Chip) (d : Nat) (t : Tab (Option FlowE)) : (c.setFlowTab d t).faults = c.faults := rfl
@[simp] theorem Chip.setFlowTab_regs (c : Chip) (d : Nat) (t : Tab (Option FlowE)) : (c.setFlowTab d t).regs = c.regs := rfl
@[simp] theorem Chip.setFlowTab_fns (c : Chip) (d : Nat) (t : Tab (Option FlowE)) : (c.setFlowTab d t).fns = c.fns := rfl
@[simp] theorem Chip.setFlowTab_tags (c : Chip) (d : Nat) (t : Tab (Option FlowE)) : (c.setFlowTab d t).tags = c.tags := rfl
@[simp] theorem Chip.setFlowTab_culDown (c : Chip) (d : Nat) (t : Tab (Option FlowE)) : (c.setFlowTab d t).culDown = c.culDown := rfl
@[simp] theorem Chip.setFlowTab_culTrain (c : Chip) (d : Nat) (t : Tab (Option FlowE)) : (c.setFlowTab d t).culTrain = c.culTrain := rfl
@[simp] theorem Chip.setFlowTab_insts (c : Chip) (d : Nat) (t : Tab (Option FlowE)) : (c.setFlowTab d t).insts = c.insts := rfl
@[simp] theorem Chip.setFlowTab_keygens (c : Chip) (d : Nat) (t : Tab (Option FlowE)) : (c.setFlowTab d t).keygens = c.keygens := rfl
@[simp] theorem Chip.setFlowTab_chans (c : Chip) (d : Nat) (t : Tab (Option FlowE)) : (c.setFlowTab d t).chans = c.chans := rfl
@[simp] theorem Chip.setFlowTab_dmas (c : Chip) (d : Nat) (t : Tab (Option FlowE)) : (c.setFlowTab d t).dmas = c.dmas := rfl
@[simp] theorem Chip.setFlowTab_mapWait (c : Chip) (d : Nat) (t : Tab (Option FlowE)) : (c.setFlowTab d t).mapWait = c.mapWait := rfl
@[simp] theorem Chip.setFlowTab_commit (c : Chip) (d : Nat) (t : Tab (Option FlowE)) : (c.setFlowTab d t).commit = c.commit := rfl
@[simp] theorem Chip.setFlowTab_dp (c : Chip) (d : Nat) (t : Tab (Option FlowE)) : (c.setFlowTab d t).dp = c.dp := rfl
@[simp] theorem Chip.setFlowTab_rl (c : Chip) (d : Nat) (t : Tab (Option FlowE)) : (c.setFlowTab d t).rl = c.rl := rfl
@[simp] theorem Chip.setFlowTab_qs (c : Chip) (d : Nat) (t : Tab (Option FlowE)) : (c.setFlowTab d t).qs = c.qs := rfl
@[simp] theorem Chip.setFlowTab_cp (c : Chip) (d : Nat) (t : Tab (Option FlowE)) : (c.setFlowTab d t).cp = c.cp := rfl
@[simp] theorem Chip.setFlowTab_dre (c : Chip) (d : Nat) (t : Tab (Option FlowE)) : (c.setFlowTab d t).dre = c.dre := rfl
@[simp] theorem Chip.setFlowTab_sp (c : Chip) (d : Nat) (t : Tab (Option FlowE)) : (c.setFlowTab d t).sp = c.sp := rfl
@[simp] theorem Chip.setFlowTab_out (c : Chip) (d : Nat) (t : Tab (Option FlowE)) : (c.setFlowTab d t).out = c.out := rfl

/-! setCacheSet -/

@[simp] theorem Chip.setCacheSet_dies (c : Chip) (d set : Nat) (l : List FlowE) : (c.setCacheSet d set l).dies = c.dies := rfl
@[simp] theorem Chip.setCacheSet_free (c : Chip) (d set : Nat) (l : List FlowE) : (c.setCacheSet d set l).free = c.free := rfl
@[simp] theorem Chip.setCacheSet_clk (c : Chip) (d set : Nat) (l : List FlowE) : (c.setCacheSet d set l).clk = c.clk := rfl
@[simp] theorem Chip.setCacheSet_pwr (c : Chip) (d set : Nat) (l : List FlowE) : (c.setCacheSet d set l).pwr = c.pwr := rfl
@[simp] theorem Chip.setCacheSet_boot (c : Chip) (d set : Nat) (l : List FlowE) : (c.setCacheSet d set l).boot = c.boot := rfl
@[simp] theorem Chip.setCacheSet_trust (c : Chip) (d set : Nat) (l : List FlowE) : (c.setCacheSet d set l).trust = c.trust := rfl
@[simp] theorem Chip.setCacheSet_cfg (c : Chip) (d set : Nat) (l : List FlowE) : (c.setCacheSet d set l).cfg = c.cfg := rfl
@[simp] theorem Chip.setCacheSet_faults (c : Chip) (d set : Nat) (l : List FlowE) : (c.setCacheSet d set l).faults = c.faults := rfl
@[simp] theorem Chip.setCacheSet_regs (c : Chip) (d set : Nat) (l : List FlowE) : (c.setCacheSet d set l).regs = c.regs := rfl
@[simp] theorem Chip.setCacheSet_fns (c : Chip) (d set : Nat) (l : List FlowE) : (c.setCacheSet d set l).fns = c.fns := rfl
@[simp] theorem Chip.setCacheSet_tags (c : Chip) (d set : Nat) (l : List FlowE) : (c.setCacheSet d set l).tags = c.tags := rfl
@[simp] theorem Chip.setCacheSet_culDown (c : Chip) (d set : Nat) (l : List FlowE) : (c.setCacheSet d set l).culDown = c.culDown := rfl
@[simp] theorem Chip.setCacheSet_culTrain (c : Chip) (d set : Nat) (l : List FlowE) : (c.setCacheSet d set l).culTrain = c.culTrain := rfl
@[simp] theorem Chip.setCacheSet_insts (c : Chip) (d set : Nat) (l : List FlowE) : (c.setCacheSet d set l).insts = c.insts := rfl
@[simp] theorem Chip.setCacheSet_keygens (c : Chip) (d set : Nat) (l : List FlowE) : (c.setCacheSet d set l).keygens = c.keygens := rfl
@[simp] theorem Chip.setCacheSet_chans (c : Chip) (d set : Nat) (l : List FlowE) : (c.setCacheSet d set l).chans = c.chans := rfl
@[simp] theorem Chip.setCacheSet_dmas (c : Chip) (d set : Nat) (l : List FlowE) : (c.setCacheSet d set l).dmas = c.dmas := rfl
@[simp] theorem Chip.setCacheSet_mapWait (c : Chip) (d set : Nat) (l : List FlowE) : (c.setCacheSet d set l).mapWait = c.mapWait := rfl
@[simp] theorem Chip.setCacheSet_commit (c : Chip) (d set : Nat) (l : List FlowE) : (c.setCacheSet d set l).commit = c.commit := rfl
@[simp] theorem Chip.setCacheSet_dp (c : Chip) (d set : Nat) (l : List FlowE) : (c.setCacheSet d set l).dp = c.dp := rfl
@[simp] theorem Chip.setCacheSet_rl (c : Chip) (d set : Nat) (l : List FlowE) : (c.setCacheSet d set l).rl = c.rl := rfl
@[simp] theorem Chip.setCacheSet_qs (c : Chip) (d set : Nat) (l : List FlowE) : (c.setCacheSet d set l).qs = c.qs := rfl
@[simp] theorem Chip.setCacheSet_cp (c : Chip) (d set : Nat) (l : List FlowE) : (c.setCacheSet d set l).cp = c.cp := rfl
@[simp] theorem Chip.setCacheSet_dre (c : Chip) (d set : Nat) (l : List FlowE) : (c.setCacheSet d set l).dre = c.dre := rfl
@[simp] theorem Chip.setCacheSet_sp (c : Chip) (d set : Nat) (l : List FlowE) : (c.setCacheSet d set l).sp = c.sp := rfl
@[simp] theorem Chip.setCacheSet_out (c : Chip) (d set : Nat) (l : List FlowE) : (c.setCacheSet d set l).out = c.out := rfl

/-! setKeySlot -/

@[simp] theorem Chip.setKeySlot_dies (c : Chip) (n : Nat) (k : Option KeySlot) : (c.setKeySlot n k).dies = c.dies := rfl
@[simp] theorem Chip.setKeySlot_free (c : Chip) (n : Nat) (k : Option KeySlot) : (c.setKeySlot n k).free = c.free := rfl
@[simp] theorem Chip.setKeySlot_clk (c : Chip) (n : Nat) (k : Option KeySlot) : (c.setKeySlot n k).clk = c.clk := rfl
@[simp] theorem Chip.setKeySlot_pwr (c : Chip) (n : Nat) (k : Option KeySlot) : (c.setKeySlot n k).pwr = c.pwr := rfl
@[simp] theorem Chip.setKeySlot_boot (c : Chip) (n : Nat) (k : Option KeySlot) : (c.setKeySlot n k).boot = c.boot := rfl
@[simp] theorem Chip.setKeySlot_trust (c : Chip) (n : Nat) (k : Option KeySlot) : (c.setKeySlot n k).trust = c.trust := rfl
@[simp] theorem Chip.setKeySlot_cfg (c : Chip) (n : Nat) (k : Option KeySlot) : (c.setKeySlot n k).cfg = c.cfg := rfl
@[simp] theorem Chip.setKeySlot_faults (c : Chip) (n : Nat) (k : Option KeySlot) : (c.setKeySlot n k).faults = c.faults := rfl
@[simp] theorem Chip.setKeySlot_regs (c : Chip) (n : Nat) (k : Option KeySlot) : (c.setKeySlot n k).regs = c.regs := rfl
@[simp] theorem Chip.setKeySlot_fns (c : Chip) (n : Nat) (k : Option KeySlot) : (c.setKeySlot n k).fns = c.fns := rfl
@[simp] theorem Chip.setKeySlot_tags (c : Chip) (n : Nat) (k : Option KeySlot) : (c.setKeySlot n k).tags = c.tags := rfl
@[simp] theorem Chip.setKeySlot_culDown (c : Chip) (n : Nat) (k : Option KeySlot) : (c.setKeySlot n k).culDown = c.culDown := rfl
@[simp] theorem Chip.setKeySlot_culTrain (c : Chip) (n : Nat) (k : Option KeySlot) : (c.setKeySlot n k).culTrain = c.culTrain := rfl
@[simp] theorem Chip.setKeySlot_insts (c : Chip) (n : Nat) (k : Option KeySlot) : (c.setKeySlot n k).insts = c.insts := rfl
@[simp] theorem Chip.setKeySlot_keygens (c : Chip) (n : Nat) (k : Option KeySlot) : (c.setKeySlot n k).keygens = c.keygens := rfl
@[simp] theorem Chip.setKeySlot_chans (c : Chip) (n : Nat) (k : Option KeySlot) : (c.setKeySlot n k).chans = c.chans := rfl
@[simp] theorem Chip.setKeySlot_dmas (c : Chip) (n : Nat) (k : Option KeySlot) : (c.setKeySlot n k).dmas = c.dmas := rfl
@[simp] theorem Chip.setKeySlot_mapWait (c : Chip) (n : Nat) (k : Option KeySlot) : (c.setKeySlot n k).mapWait = c.mapWait := rfl
@[simp] theorem Chip.setKeySlot_commit (c : Chip) (n : Nat) (k : Option KeySlot) : (c.setKeySlot n k).commit = c.commit := rfl
@[simp] theorem Chip.setKeySlot_dp (c : Chip) (n : Nat) (k : Option KeySlot) : (c.setKeySlot n k).dp = c.dp := rfl
@[simp] theorem Chip.setKeySlot_rl (c : Chip) (n : Nat) (k : Option KeySlot) : (c.setKeySlot n k).rl = c.rl := rfl
@[simp] theorem Chip.setKeySlot_tb (c : Chip) (n : Nat) (k : Option KeySlot) : (c.setKeySlot n k).tb = c.tb := rfl
@[simp] theorem Chip.setKeySlot_qs (c : Chip) (n : Nat) (k : Option KeySlot) : (c.setKeySlot n k).qs = c.qs := rfl
@[simp] theorem Chip.setKeySlot_dre (c : Chip) (n : Nat) (k : Option KeySlot) : (c.setKeySlot n k).dre = c.dre := rfl
@[simp] theorem Chip.setKeySlot_sp (c : Chip) (n : Nat) (k : Option KeySlot) : (c.setKeySlot n k).sp = c.sp := rfl
@[simp] theorem Chip.setKeySlot_out (c : Chip) (n : Nat) (k : Option KeySlot) : (c.setKeySlot n k).out = c.out := rfl

/-! setAssoc -/

@[simp] theorem Chip.setAssoc_dies (c : Chip) (a : Nat) (x : Option Assoc) : (c.setAssoc a x).dies = c.dies := rfl
@[simp] theorem Chip.setAssoc_free (c : Chip) (a : Nat) (x : Option Assoc) : (c.setAssoc a x).free = c.free := rfl
@[simp] theorem Chip.setAssoc_clk (c : Chip) (a : Nat) (x : Option Assoc) : (c.setAssoc a x).clk = c.clk := rfl
@[simp] theorem Chip.setAssoc_pwr (c : Chip) (a : Nat) (x : Option Assoc) : (c.setAssoc a x).pwr = c.pwr := rfl
@[simp] theorem Chip.setAssoc_boot (c : Chip) (a : Nat) (x : Option Assoc) : (c.setAssoc a x).boot = c.boot := rfl
@[simp] theorem Chip.setAssoc_trust (c : Chip) (a : Nat) (x : Option Assoc) : (c.setAssoc a x).trust = c.trust := rfl
@[simp] theorem Chip.setAssoc_cfg (c : Chip) (a : Nat) (x : Option Assoc) : (c.setAssoc a x).cfg = c.cfg := rfl
@[simp] theorem Chip.setAssoc_faults (c : Chip) (a : Nat) (x : Option Assoc) : (c.setAssoc a x).faults = c.faults := rfl
@[simp] theorem Chip.setAssoc_regs (c : Chip) (a : Nat) (x : Option Assoc) : (c.setAssoc a x).regs = c.regs := rfl
@[simp] theorem Chip.setAssoc_fns (c : Chip) (a : Nat) (x : Option Assoc) : (c.setAssoc a x).fns = c.fns := rfl
@[simp] theorem Chip.setAssoc_tags (c : Chip) (a : Nat) (x : Option Assoc) : (c.setAssoc a x).tags = c.tags := rfl
@[simp] theorem Chip.setAssoc_culDown (c : Chip) (a : Nat) (x : Option Assoc) : (c.setAssoc a x).culDown = c.culDown := rfl
@[simp] theorem Chip.setAssoc_culTrain (c : Chip) (a : Nat) (x : Option Assoc) : (c.setAssoc a x).culTrain = c.culTrain := rfl
@[simp] theorem Chip.setAssoc_insts (c : Chip) (a : Nat) (x : Option Assoc) : (c.setAssoc a x).insts = c.insts := rfl
@[simp] theorem Chip.setAssoc_keygens (c : Chip) (a : Nat) (x : Option Assoc) : (c.setAssoc a x).keygens = c.keygens := rfl
@[simp] theorem Chip.setAssoc_chans (c : Chip) (a : Nat) (x : Option Assoc) : (c.setAssoc a x).chans = c.chans := rfl
@[simp] theorem Chip.setAssoc_dmas (c : Chip) (a : Nat) (x : Option Assoc) : (c.setAssoc a x).dmas = c.dmas := rfl
@[simp] theorem Chip.setAssoc_mapWait (c : Chip) (a : Nat) (x : Option Assoc) : (c.setAssoc a x).mapWait = c.mapWait := rfl
@[simp] theorem Chip.setAssoc_commit (c : Chip) (a : Nat) (x : Option Assoc) : (c.setAssoc a x).commit = c.commit := rfl
@[simp] theorem Chip.setAssoc_dp (c : Chip) (a : Nat) (x : Option Assoc) : (c.setAssoc a x).dp = c.dp := rfl
@[simp] theorem Chip.setAssoc_rl (c : Chip) (a : Nat) (x : Option Assoc) : (c.setAssoc a x).rl = c.rl := rfl
@[simp] theorem Chip.setAssoc_tb (c : Chip) (a : Nat) (x : Option Assoc) : (c.setAssoc a x).tb = c.tb := rfl
@[simp] theorem Chip.setAssoc_qs (c : Chip) (a : Nat) (x : Option Assoc) : (c.setAssoc a x).qs = c.qs := rfl
@[simp] theorem Chip.setAssoc_dre (c : Chip) (a : Nat) (x : Option Assoc) : (c.setAssoc a x).dre = c.dre := rfl
@[simp] theorem Chip.setAssoc_sp (c : Chip) (a : Nat) (x : Option Assoc) : (c.setAssoc a x).sp = c.sp := rfl
@[simp] theorem Chip.setAssoc_out (c : Chip) (a : Nat) (x : Option Assoc) : (c.setAssoc a x).out = c.out := rfl

/-! setCtx -/

@[simp] theorem Chip.setCtx_dies (c : Chip) (d e x : Nat) (k : Option Ctx) : (c.setCtx d e x k).dies = c.dies := rfl
@[simp] theorem Chip.setCtx_free (c : Chip) (d e x : Nat) (k : Option Ctx) : (c.setCtx d e x k).free = c.free := rfl
@[simp] theorem Chip.setCtx_clk (c : Chip) (d e x : Nat) (k : Option Ctx) : (c.setCtx d e x k).clk = c.clk := rfl
@[simp] theorem Chip.setCtx_pwr (c : Chip) (d e x : Nat) (k : Option Ctx) : (c.setCtx d e x k).pwr = c.pwr := rfl
@[simp] theorem Chip.setCtx_boot (c : Chip) (d e x : Nat) (k : Option Ctx) : (c.setCtx d e x k).boot = c.boot := rfl
@[simp] theorem Chip.setCtx_trust (c : Chip) (d e x : Nat) (k : Option Ctx) : (c.setCtx d e x k).trust = c.trust := rfl
@[simp] theorem Chip.setCtx_cfg (c : Chip) (d e x : Nat) (k : Option Ctx) : (c.setCtx d e x k).cfg = c.cfg := rfl
@[simp] theorem Chip.setCtx_faults (c : Chip) (d e x : Nat) (k : Option Ctx) : (c.setCtx d e x k).faults = c.faults := rfl
@[simp] theorem Chip.setCtx_regs (c : Chip) (d e x : Nat) (k : Option Ctx) : (c.setCtx d e x k).regs = c.regs := rfl
@[simp] theorem Chip.setCtx_fns (c : Chip) (d e x : Nat) (k : Option Ctx) : (c.setCtx d e x k).fns = c.fns := rfl
@[simp] theorem Chip.setCtx_tags (c : Chip) (d e x : Nat) (k : Option Ctx) : (c.setCtx d e x k).tags = c.tags := rfl
@[simp] theorem Chip.setCtx_culDown (c : Chip) (d e x : Nat) (k : Option Ctx) : (c.setCtx d e x k).culDown = c.culDown := rfl
@[simp] theorem Chip.setCtx_culTrain (c : Chip) (d e x : Nat) (k : Option Ctx) : (c.setCtx d e x k).culTrain = c.culTrain := rfl
@[simp] theorem Chip.setCtx_insts (c : Chip) (d e x : Nat) (k : Option Ctx) : (c.setCtx d e x k).insts = c.insts := rfl
@[simp] theorem Chip.setCtx_keygens (c : Chip) (d e x : Nat) (k : Option Ctx) : (c.setCtx d e x k).keygens = c.keygens := rfl
@[simp] theorem Chip.setCtx_chans (c : Chip) (d e x : Nat) (k : Option Ctx) : (c.setCtx d e x k).chans = c.chans := rfl
@[simp] theorem Chip.setCtx_dmas (c : Chip) (d e x : Nat) (k : Option Ctx) : (c.setCtx d e x k).dmas = c.dmas := rfl
@[simp] theorem Chip.setCtx_mapWait (c : Chip) (d e x : Nat) (k : Option Ctx) : (c.setCtx d e x k).mapWait = c.mapWait := rfl
@[simp] theorem Chip.setCtx_commit (c : Chip) (d e x : Nat) (k : Option Ctx) : (c.setCtx d e x k).commit = c.commit := rfl
@[simp] theorem Chip.setCtx_dp (c : Chip) (d e x : Nat) (k : Option Ctx) : (c.setCtx d e x k).dp = c.dp := rfl
@[simp] theorem Chip.setCtx_rl (c : Chip) (d e x : Nat) (k : Option Ctx) : (c.setCtx d e x k).rl = c.rl := rfl
@[simp] theorem Chip.setCtx_tb (c : Chip) (d e x : Nat) (k : Option Ctx) : (c.setCtx d e x k).tb = c.tb := rfl
@[simp] theorem Chip.setCtx_qs (c : Chip) (d e x : Nat) (k : Option Ctx) : (c.setCtx d e x k).qs = c.qs := rfl
@[simp] theorem Chip.setCtx_cp (c : Chip) (d e x : Nat) (k : Option Ctx) : (c.setCtx d e x k).cp = c.cp := rfl
@[simp] theorem Chip.setCtx_sp (c : Chip) (d e x : Nat) (k : Option Ctx) : (c.setCtx d e x k).sp = c.sp := rfl
@[simp] theorem Chip.setCtx_out (c : Chip) (d e x : Nat) (k : Option Ctx) : (c.setCtx d e x k).out = c.out := rfl

/-! setSlot -/

@[simp] theorem Chip.setSlot_dies (c : Chip) (s : Nat) (x : Slot) : (c.setSlot s x).dies = c.dies := rfl
@[simp] theorem Chip.setSlot_free (c : Chip) (s : Nat) (x : Slot) : (c.setSlot s x).free = c.free := rfl
@[simp] theorem Chip.setSlot_clk (c : Chip) (s : Nat) (x : Slot) : (c.setSlot s x).clk = c.clk := rfl
@[simp] theorem Chip.setSlot_pwr (c : Chip) (s : Nat) (x : Slot) : (c.setSlot s x).pwr = c.pwr := rfl
@[simp] theorem Chip.setSlot_boot (c : Chip) (s : Nat) (x : Slot) : (c.setSlot s x).boot = c.boot := rfl
@[simp] theorem Chip.setSlot_trust (c : Chip) (s : Nat) (x : Slot) : (c.setSlot s x).trust = c.trust := rfl
@[simp] theorem Chip.setSlot_cfg (c : Chip) (s : Nat) (x : Slot) : (c.setSlot s x).cfg = c.cfg := rfl
@[simp] theorem Chip.setSlot_faults (c : Chip) (s : Nat) (x : Slot) : (c.setSlot s x).faults = c.faults := rfl
@[simp] theorem Chip.setSlot_regs (c : Chip) (s : Nat) (x : Slot) : (c.setSlot s x).regs = c.regs := rfl
@[simp] theorem Chip.setSlot_fns (c : Chip) (s : Nat) (x : Slot) : (c.setSlot s x).fns = c.fns := rfl
@[simp] theorem Chip.setSlot_tags (c : Chip) (s : Nat) (x : Slot) : (c.setSlot s x).tags = c.tags := rfl
@[simp] theorem Chip.setSlot_culDown (c : Chip) (s : Nat) (x : Slot) : (c.setSlot s x).culDown = c.culDown := rfl
@[simp] theorem Chip.setSlot_culTrain (c : Chip) (s : Nat) (x : Slot) : (c.setSlot s x).culTrain = c.culTrain := rfl
@[simp] theorem Chip.setSlot_insts (c : Chip) (s : Nat) (x : Slot) : (c.setSlot s x).insts = c.insts := rfl
@[simp] theorem Chip.setSlot_keygens (c : Chip) (s : Nat) (x : Slot) : (c.setSlot s x).keygens = c.keygens := rfl
@[simp] theorem Chip.setSlot_chans (c : Chip) (s : Nat) (x : Slot) : (c.setSlot s x).chans = c.chans := rfl
@[simp] theorem Chip.setSlot_dmas (c : Chip) (s : Nat) (x : Slot) : (c.setSlot s x).dmas = c.dmas := rfl
@[simp] theorem Chip.setSlot_mapWait (c : Chip) (s : Nat) (x : Slot) : (c.setSlot s x).mapWait = c.mapWait := rfl
@[simp] theorem Chip.setSlot_commit (c : Chip) (s : Nat) (x : Slot) : (c.setSlot s x).commit = c.commit := rfl
@[simp] theorem Chip.setSlot_dp (c : Chip) (s : Nat) (x : Slot) : (c.setSlot s x).dp = c.dp := rfl
@[simp] theorem Chip.setSlot_tb (c : Chip) (s : Nat) (x : Slot) : (c.setSlot s x).tb = c.tb := rfl
@[simp] theorem Chip.setSlot_qs (c : Chip) (s : Nat) (x : Slot) : (c.setSlot s x).qs = c.qs := rfl
@[simp] theorem Chip.setSlot_cp (c : Chip) (s : Nat) (x : Slot) : (c.setSlot s x).cp = c.cp := rfl
@[simp] theorem Chip.setSlot_dre (c : Chip) (s : Nat) (x : Slot) : (c.setSlot s x).dre = c.dre := rfl
@[simp] theorem Chip.setSlot_sp (c : Chip) (s : Nat) (x : Slot) : (c.setSlot s x).sp = c.sp := rfl
@[simp] theorem Chip.setSlot_out (c : Chip) (s : Nat) (x : Slot) : (c.setSlot s x).out = c.out := rfl

/-! setNeigh -/

@[simp] theorem Chip.setNeigh_dies (c : Chip) (lane : Nat) (n : Neigh) : (c.setNeigh lane n).dies = c.dies := rfl
@[simp] theorem Chip.setNeigh_free (c : Chip) (lane : Nat) (n : Neigh) : (c.setNeigh lane n).free = c.free := rfl
@[simp] theorem Chip.setNeigh_clk (c : Chip) (lane : Nat) (n : Neigh) : (c.setNeigh lane n).clk = c.clk := rfl
@[simp] theorem Chip.setNeigh_pwr (c : Chip) (lane : Nat) (n : Neigh) : (c.setNeigh lane n).pwr = c.pwr := rfl
@[simp] theorem Chip.setNeigh_boot (c : Chip) (lane : Nat) (n : Neigh) : (c.setNeigh lane n).boot = c.boot := rfl
@[simp] theorem Chip.setNeigh_trust (c : Chip) (lane : Nat) (n : Neigh) : (c.setNeigh lane n).trust = c.trust := rfl
@[simp] theorem Chip.setNeigh_cfg (c : Chip) (lane : Nat) (n : Neigh) : (c.setNeigh lane n).cfg = c.cfg := rfl
@[simp] theorem Chip.setNeigh_faults (c : Chip) (lane : Nat) (n : Neigh) : (c.setNeigh lane n).faults = c.faults := rfl
@[simp] theorem Chip.setNeigh_regs (c : Chip) (lane : Nat) (n : Neigh) : (c.setNeigh lane n).regs = c.regs := rfl
@[simp] theorem Chip.setNeigh_fns (c : Chip) (lane : Nat) (n : Neigh) : (c.setNeigh lane n).fns = c.fns := rfl
@[simp] theorem Chip.setNeigh_tags (c : Chip) (lane : Nat) (n : Neigh) : (c.setNeigh lane n).tags = c.tags := rfl
@[simp] theorem Chip.setNeigh_culDown (c : Chip) (lane : Nat) (n : Neigh) : (c.setNeigh lane n).culDown = c.culDown := rfl
@[simp] theorem Chip.setNeigh_culTrain (c : Chip) (lane : Nat) (n : Neigh) : (c.setNeigh lane n).culTrain = c.culTrain := rfl
@[simp] theorem Chip.setNeigh_insts (c : Chip) (lane : Nat) (n : Neigh) : (c.setNeigh lane n).insts = c.insts := rfl
@[simp] theorem Chip.setNeigh_keygens (c : Chip) (lane : Nat) (n : Neigh) : (c.setNeigh lane n).keygens = c.keygens := rfl
@[simp] theorem Chip.setNeigh_chans (c : Chip) (lane : Nat) (n : Neigh) : (c.setNeigh lane n).chans = c.chans := rfl
@[simp] theorem Chip.setNeigh_dmas (c : Chip) (lane : Nat) (n : Neigh) : (c.setNeigh lane n).dmas = c.dmas := rfl
@[simp] theorem Chip.setNeigh_mapWait (c : Chip) (lane : Nat) (n : Neigh) : (c.setNeigh lane n).mapWait = c.mapWait := rfl
@[simp] theorem Chip.setNeigh_commit (c : Chip) (lane : Nat) (n : Neigh) : (c.setNeigh lane n).commit = c.commit := rfl
@[simp] theorem Chip.setNeigh_dp (c : Chip) (lane : Nat) (n : Neigh) : (c.setNeigh lane n).dp = c.dp := rfl
@[simp] theorem Chip.setNeigh_rl (c : Chip) (lane : Nat) (n : Neigh) : (c.setNeigh lane n).rl = c.rl := rfl
@[simp] theorem Chip.setNeigh_tb (c : Chip) (lane : Nat) (n : Neigh) : (c.setNeigh lane n).tb = c.tb := rfl
@[simp] theorem Chip.setNeigh_qs (c : Chip) (lane : Nat) (n : Neigh) : (c.setNeigh lane n).qs = c.qs := rfl
@[simp] theorem Chip.setNeigh_cp (c : Chip) (lane : Nat) (n : Neigh) : (c.setNeigh lane n).cp = c.cp := rfl
@[simp] theorem Chip.setNeigh_dre (c : Chip) (lane : Nat) (n : Neigh) : (c.setNeigh lane n).dre = c.dre := rfl
@[simp] theorem Chip.setNeigh_out (c : Chip) (lane : Nat) (n : Neigh) : (c.setNeigh lane n).out = c.out := rfl

/-! setVerd -/

@[simp] theorem Chip.setVerd_dies (c : Chip) (d : Nat) (v : Verd) : (c.setVerd d v).dies = c.dies := rfl
@[simp] theorem Chip.setVerd_free (c : Chip) (d : Nat) (v : Verd) : (c.setVerd d v).free = c.free := rfl
@[simp] theorem Chip.setVerd_clk (c : Chip) (d : Nat) (v : Verd) : (c.setVerd d v).clk = c.clk := rfl
@[simp] theorem Chip.setVerd_pwr (c : Chip) (d : Nat) (v : Verd) : (c.setVerd d v).pwr = c.pwr := rfl
@[simp] theorem Chip.setVerd_boot (c : Chip) (d : Nat) (v : Verd) : (c.setVerd d v).boot = c.boot := rfl
@[simp] theorem Chip.setVerd_trust (c : Chip) (d : Nat) (v : Verd) : (c.setVerd d v).trust = c.trust := rfl
@[simp] theorem Chip.setVerd_cfg (c : Chip) (d : Nat) (v : Verd) : (c.setVerd d v).cfg = c.cfg := rfl
@[simp] theorem Chip.setVerd_faults (c : Chip) (d : Nat) (v : Verd) : (c.setVerd d v).faults = c.faults := rfl
@[simp] theorem Chip.setVerd_regs (c : Chip) (d : Nat) (v : Verd) : (c.setVerd d v).regs = c.regs := rfl
@[simp] theorem Chip.setVerd_fns (c : Chip) (d : Nat) (v : Verd) : (c.setVerd d v).fns = c.fns := rfl
@[simp] theorem Chip.setVerd_tags (c : Chip) (d : Nat) (v : Verd) : (c.setVerd d v).tags = c.tags := rfl
@[simp] theorem Chip.setVerd_culDown (c : Chip) (d : Nat) (v : Verd) : (c.setVerd d v).culDown = c.culDown := rfl
@[simp] theorem Chip.setVerd_culTrain (c : Chip) (d : Nat) (v : Verd) : (c.setVerd d v).culTrain = c.culTrain := rfl
@[simp] theorem Chip.setVerd_insts (c : Chip) (d : Nat) (v : Verd) : (c.setVerd d v).insts = c.insts := rfl
@[simp] theorem Chip.setVerd_keygens (c : Chip) (d : Nat) (v : Verd) : (c.setVerd d v).keygens = c.keygens := rfl
@[simp] theorem Chip.setVerd_chans (c : Chip) (d : Nat) (v : Verd) : (c.setVerd d v).chans = c.chans := rfl
@[simp] theorem Chip.setVerd_dmas (c : Chip) (d : Nat) (v : Verd) : (c.setVerd d v).dmas = c.dmas := rfl
@[simp] theorem Chip.setVerd_mapWait (c : Chip) (d : Nat) (v : Verd) : (c.setVerd d v).mapWait = c.mapWait := rfl
@[simp] theorem Chip.setVerd_commit (c : Chip) (d : Nat) (v : Verd) : (c.setVerd d v).commit = c.commit := rfl
@[simp] theorem Chip.setVerd_dp (c : Chip) (d : Nat) (v : Verd) : (c.setVerd d v).dp = c.dp := rfl
@[simp] theorem Chip.setVerd_rl (c : Chip) (d : Nat) (v : Verd) : (c.setVerd d v).rl = c.rl := rfl
@[simp] theorem Chip.setVerd_tb (c : Chip) (d : Nat) (v : Verd) : (c.setVerd d v).tb = c.tb := rfl
@[simp] theorem Chip.setVerd_qs (c : Chip) (d : Nat) (v : Verd) : (c.setVerd d v).qs = c.qs := rfl
@[simp] theorem Chip.setVerd_cp (c : Chip) (d : Nat) (v : Verd) : (c.setVerd d v).cp = c.cp := rfl
@[simp] theorem Chip.setVerd_dre (c : Chip) (d : Nat) (v : Verd) : (c.setVerd d v).dre = c.dre := rfl
@[simp] theorem Chip.setVerd_out (c : Chip) (d : Nat) (v : Verd) : (c.setVerd d v).out = c.out := rfl

/-! markRun -/

@[simp] theorem Chip.markRun_dies (c : Chip) (f seq : Nat) : (c.markRun f seq).dies = c.dies := rfl
@[simp] theorem Chip.markRun_free (c : Chip) (f seq : Nat) : (c.markRun f seq).free = c.free := rfl
@[simp] theorem Chip.markRun_clk (c : Chip) (f seq : Nat) : (c.markRun f seq).clk = c.clk := rfl
@[simp] theorem Chip.markRun_pwr (c : Chip) (f seq : Nat) : (c.markRun f seq).pwr = c.pwr := rfl
@[simp] theorem Chip.markRun_boot (c : Chip) (f seq : Nat) : (c.markRun f seq).boot = c.boot := rfl
@[simp] theorem Chip.markRun_trust (c : Chip) (f seq : Nat) : (c.markRun f seq).trust = c.trust := rfl
@[simp] theorem Chip.markRun_cfg (c : Chip) (f seq : Nat) : (c.markRun f seq).cfg = c.cfg := rfl
@[simp] theorem Chip.markRun_faults (c : Chip) (f seq : Nat) : (c.markRun f seq).faults = c.faults := rfl
@[simp] theorem Chip.markRun_regs (c : Chip) (f seq : Nat) : (c.markRun f seq).regs = c.regs := rfl
@[simp] theorem Chip.markRun_fns (c : Chip) (f seq : Nat) : (c.markRun f seq).fns = c.fns := rfl
@[simp] theorem Chip.markRun_tags (c : Chip) (f seq : Nat) : (c.markRun f seq).tags = c.tags := rfl
@[simp] theorem Chip.markRun_culDown (c : Chip) (f seq : Nat) : (c.markRun f seq).culDown = c.culDown := rfl
@[simp] theorem Chip.markRun_culTrain (c : Chip) (f seq : Nat) : (c.markRun f seq).culTrain = c.culTrain := rfl
@[simp] theorem Chip.markRun_insts (c : Chip) (f seq : Nat) : (c.markRun f seq).insts = c.insts := rfl
@[simp] theorem Chip.markRun_keygens (c : Chip) (f seq : Nat) : (c.markRun f seq).keygens = c.keygens := rfl
@[simp] theorem Chip.markRun_dmas (c : Chip) (f seq : Nat) : (c.markRun f seq).dmas = c.dmas := rfl
@[simp] theorem Chip.markRun_mapWait (c : Chip) (f seq : Nat) : (c.markRun f seq).mapWait = c.mapWait := rfl
@[simp] theorem Chip.markRun_commit (c : Chip) (f seq : Nat) : (c.markRun f seq).commit = c.commit := rfl
@[simp] theorem Chip.markRun_dp (c : Chip) (f seq : Nat) : (c.markRun f seq).dp = c.dp := rfl
@[simp] theorem Chip.markRun_rl (c : Chip) (f seq : Nat) : (c.markRun f seq).rl = c.rl := rfl
@[simp] theorem Chip.markRun_tb (c : Chip) (f seq : Nat) : (c.markRun f seq).tb = c.tb := rfl
@[simp] theorem Chip.markRun_qs (c : Chip) (f seq : Nat) : (c.markRun f seq).qs = c.qs := rfl
@[simp] theorem Chip.markRun_cp (c : Chip) (f seq : Nat) : (c.markRun f seq).cp = c.cp := rfl
@[simp] theorem Chip.markRun_dre (c : Chip) (f seq : Nat) : (c.markRun f seq).dre = c.dre := rfl
@[simp] theorem Chip.markRun_sp (c : Chip) (f seq : Nat) : (c.markRun f seq).sp = c.sp := rfl
@[simp] theorem Chip.markRun_out (c : Chip) (f seq : Nat) : (c.markRun f seq).out = c.out := rfl

/-! setXfer -/

@[simp] theorem Chip.setXfer_dies (c : Chip) (d n : Nat) (x : Xfer) : (c.setXfer d n x).dies = c.dies := rfl
@[simp] theorem Chip.setXfer_free (c : Chip) (d n : Nat) (x : Xfer) : (c.setXfer d n x).free = c.free := rfl
@[simp] theorem Chip.setXfer_clk (c : Chip) (d n : Nat) (x : Xfer) : (c.setXfer d n x).clk = c.clk := rfl
@[simp] theorem Chip.setXfer_pwr (c : Chip) (d n : Nat) (x : Xfer) : (c.setXfer d n x).pwr = c.pwr := rfl
@[simp] theorem Chip.setXfer_boot (c : Chip) (d n : Nat) (x : Xfer) : (c.setXfer d n x).boot = c.boot := rfl
@[simp] theorem Chip.setXfer_trust (c : Chip) (d n : Nat) (x : Xfer) : (c.setXfer d n x).trust = c.trust := rfl
@[simp] theorem Chip.setXfer_cfg (c : Chip) (d n : Nat) (x : Xfer) : (c.setXfer d n x).cfg = c.cfg := rfl
@[simp] theorem Chip.setXfer_faults (c : Chip) (d n : Nat) (x : Xfer) : (c.setXfer d n x).faults = c.faults := rfl
@[simp] theorem Chip.setXfer_regs (c : Chip) (d n : Nat) (x : Xfer) : (c.setXfer d n x).regs = c.regs := rfl
@[simp] theorem Chip.setXfer_fns (c : Chip) (d n : Nat) (x : Xfer) : (c.setXfer d n x).fns = c.fns := rfl
@[simp] theorem Chip.setXfer_tags (c : Chip) (d n : Nat) (x : Xfer) : (c.setXfer d n x).tags = c.tags := rfl
@[simp] theorem Chip.setXfer_culDown (c : Chip) (d n : Nat) (x : Xfer) : (c.setXfer d n x).culDown = c.culDown := rfl
@[simp] theorem Chip.setXfer_culTrain (c : Chip) (d n : Nat) (x : Xfer) : (c.setXfer d n x).culTrain = c.culTrain := rfl
@[simp] theorem Chip.setXfer_insts (c : Chip) (d n : Nat) (x : Xfer) : (c.setXfer d n x).insts = c.insts := rfl
@[simp] theorem Chip.setXfer_keygens (c : Chip) (d n : Nat) (x : Xfer) : (c.setXfer d n x).keygens = c.keygens := rfl
@[simp] theorem Chip.setXfer_chans (c : Chip) (d n : Nat) (x : Xfer) : (c.setXfer d n x).chans = c.chans := rfl
@[simp] theorem Chip.setXfer_mapWait (c : Chip) (d n : Nat) (x : Xfer) : (c.setXfer d n x).mapWait = c.mapWait := rfl
@[simp] theorem Chip.setXfer_commit (c : Chip) (d n : Nat) (x : Xfer) : (c.setXfer d n x).commit = c.commit := rfl
@[simp] theorem Chip.setXfer_dp (c : Chip) (d n : Nat) (x : Xfer) : (c.setXfer d n x).dp = c.dp := rfl
@[simp] theorem Chip.setXfer_rl (c : Chip) (d n : Nat) (x : Xfer) : (c.setXfer d n x).rl = c.rl := rfl
@[simp] theorem Chip.setXfer_tb (c : Chip) (d n : Nat) (x : Xfer) : (c.setXfer d n x).tb = c.tb := rfl
@[simp] theorem Chip.setXfer_qs (c : Chip) (d n : Nat) (x : Xfer) : (c.setXfer d n x).qs = c.qs := rfl
@[simp] theorem Chip.setXfer_cp (c : Chip) (d n : Nat) (x : Xfer) : (c.setXfer d n x).cp = c.cp := rfl
@[simp] theorem Chip.setXfer_dre (c : Chip) (d n : Nat) (x : Xfer) : (c.setXfer d n x).dre = c.dre := rfl
@[simp] theorem Chip.setXfer_sp (c : Chip) (d n : Nat) (x : Xfer) : (c.setXfer d n x).sp = c.sp := rfl
@[simp] theorem Chip.setXfer_out (c : Chip) (d n : Nat) (x : Xfer) : (c.setXfer d n x).out = c.out := rfl

/-! setCls -/

@[simp] theorem Chip.setCls_dies (c : Chip) (die cls : Nat) (r : ClassRec) : (c.setCls die cls r).dies = c.dies := rfl
@[simp] theorem Chip.setCls_free (c : Chip) (die cls : Nat) (r : ClassRec) : (c.setCls die cls r).free = c.free := rfl
@[simp] theorem Chip.setCls_clk (c : Chip) (die cls : Nat) (r : ClassRec) : (c.setCls die cls r).clk = c.clk := rfl
@[simp] theorem Chip.setCls_pwr (c : Chip) (die cls : Nat) (r : ClassRec) : (c.setCls die cls r).pwr = c.pwr := rfl
@[simp] theorem Chip.setCls_boot (c : Chip) (die cls : Nat) (r : ClassRec) : (c.setCls die cls r).boot = c.boot := rfl
@[simp] theorem Chip.setCls_trust (c : Chip) (die cls : Nat) (r : ClassRec) : (c.setCls die cls r).trust = c.trust := rfl
@[simp] theorem Chip.setCls_cfg (c : Chip) (die cls : Nat) (r : ClassRec) : (c.setCls die cls r).cfg = c.cfg := rfl
@[simp] theorem Chip.setCls_regs (c : Chip) (die cls : Nat) (r : ClassRec) : (c.setCls die cls r).regs = c.regs := rfl
@[simp] theorem Chip.setCls_fns (c : Chip) (die cls : Nat) (r : ClassRec) : (c.setCls die cls r).fns = c.fns := rfl
@[simp] theorem Chip.setCls_tags (c : Chip) (die cls : Nat) (r : ClassRec) : (c.setCls die cls r).tags = c.tags := rfl
@[simp] theorem Chip.setCls_culDown (c : Chip) (die cls : Nat) (r : ClassRec) : (c.setCls die cls r).culDown = c.culDown := rfl
@[simp] theorem Chip.setCls_culTrain (c : Chip) (die cls : Nat) (r : ClassRec) : (c.setCls die cls r).culTrain = c.culTrain := rfl
@[simp] theorem Chip.setCls_insts (c : Chip) (die cls : Nat) (r : ClassRec) : (c.setCls die cls r).insts = c.insts := rfl
@[simp] theorem Chip.setCls_keygens (c : Chip) (die cls : Nat) (r : ClassRec) : (c.setCls die cls r).keygens = c.keygens := rfl
@[simp] theorem Chip.setCls_chans (c : Chip) (die cls : Nat) (r : ClassRec) : (c.setCls die cls r).chans = c.chans := rfl
@[simp] theorem Chip.setCls_dmas (c : Chip) (die cls : Nat) (r : ClassRec) : (c.setCls die cls r).dmas = c.dmas := rfl
@[simp] theorem Chip.setCls_mapWait (c : Chip) (die cls : Nat) (r : ClassRec) : (c.setCls die cls r).mapWait = c.mapWait := rfl
@[simp] theorem Chip.setCls_commit (c : Chip) (die cls : Nat) (r : ClassRec) : (c.setCls die cls r).commit = c.commit := rfl
@[simp] theorem Chip.setCls_dp (c : Chip) (die cls : Nat) (r : ClassRec) : (c.setCls die cls r).dp = c.dp := rfl
@[simp] theorem Chip.setCls_rl (c : Chip) (die cls : Nat) (r : ClassRec) : (c.setCls die cls r).rl = c.rl := rfl
@[simp] theorem Chip.setCls_tb (c : Chip) (die cls : Nat) (r : ClassRec) : (c.setCls die cls r).tb = c.tb := rfl
@[simp] theorem Chip.setCls_qs (c : Chip) (die cls : Nat) (r : ClassRec) : (c.setCls die cls r).qs = c.qs := rfl
@[simp] theorem Chip.setCls_cp (c : Chip) (die cls : Nat) (r : ClassRec) : (c.setCls die cls r).cp = c.cp := rfl
@[simp] theorem Chip.setCls_dre (c : Chip) (die cls : Nat) (r : ClassRec) : (c.setCls die cls r).dre = c.dre := rfl
@[simp] theorem Chip.setCls_sp (c : Chip) (die cls : Nat) (r : ClassRec) : (c.setCls die cls r).sp = c.sp := rfl
@[simp] theorem Chip.setCls_out (c : Chip) (die cls : Nat) (r : ClassRec) : (c.setCls die cls r).out = c.out := rfl

/-! setUnit -/

@[simp] theorem Chip.setUnit_dies (c : Chip) (d : Nat) (u : CUnit) : (c.setUnit d u).dies = c.dies := rfl
@[simp] theorem Chip.setUnit_free (c : Chip) (d : Nat) (u : CUnit) : (c.setUnit d u).free = c.free := rfl
@[simp] theorem Chip.setUnit_clk (c : Chip) (d : Nat) (u : CUnit) : (c.setUnit d u).clk = c.clk := rfl
@[simp] theorem Chip.setUnit_pwr (c : Chip) (d : Nat) (u : CUnit) : (c.setUnit d u).pwr = c.pwr := rfl
@[simp] theorem Chip.setUnit_boot (c : Chip) (d : Nat) (u : CUnit) : (c.setUnit d u).boot = c.boot := rfl
@[simp] theorem Chip.setUnit_trust (c : Chip) (d : Nat) (u : CUnit) : (c.setUnit d u).trust = c.trust := rfl
@[simp] theorem Chip.setUnit_cfg (c : Chip) (d : Nat) (u : CUnit) : (c.setUnit d u).cfg = c.cfg := rfl
@[simp] theorem Chip.setUnit_faults (c : Chip) (d : Nat) (u : CUnit) : (c.setUnit d u).faults = c.faults := rfl
@[simp] theorem Chip.setUnit_regs (c : Chip) (d : Nat) (u : CUnit) : (c.setUnit d u).regs = c.regs := rfl
@[simp] theorem Chip.setUnit_fns (c : Chip) (d : Nat) (u : CUnit) : (c.setUnit d u).fns = c.fns := rfl
@[simp] theorem Chip.setUnit_tags (c : Chip) (d : Nat) (u : CUnit) : (c.setUnit d u).tags = c.tags := rfl
@[simp] theorem Chip.setUnit_culDown (c : Chip) (d : Nat) (u : CUnit) : (c.setUnit d u).culDown = c.culDown := rfl
@[simp] theorem Chip.setUnit_culTrain (c : Chip) (d : Nat) (u : CUnit) : (c.setUnit d u).culTrain = c.culTrain := rfl
@[simp] theorem Chip.setUnit_insts (c : Chip) (d : Nat) (u : CUnit) : (c.setUnit d u).insts = c.insts := rfl
@[simp] theorem Chip.setUnit_keygens (c : Chip) (d : Nat) (u : CUnit) : (c.setUnit d u).keygens = c.keygens := rfl
@[simp] theorem Chip.setUnit_chans (c : Chip) (d : Nat) (u : CUnit) : (c.setUnit d u).chans = c.chans := rfl
@[simp] theorem Chip.setUnit_dmas (c : Chip) (d : Nat) (u : CUnit) : (c.setUnit d u).dmas = c.dmas := rfl
@[simp] theorem Chip.setUnit_mapWait (c : Chip) (d : Nat) (u : CUnit) : (c.setUnit d u).mapWait = c.mapWait := rfl
@[simp] theorem Chip.setUnit_commit (c : Chip) (d : Nat) (u : CUnit) : (c.setUnit d u).commit = c.commit := rfl
@[simp] theorem Chip.setUnit_dp (c : Chip) (d : Nat) (u : CUnit) : (c.setUnit d u).dp = c.dp := rfl
@[simp] theorem Chip.setUnit_rl (c : Chip) (d : Nat) (u : CUnit) : (c.setUnit d u).rl = c.rl := rfl
@[simp] theorem Chip.setUnit_tb (c : Chip) (d : Nat) (u : CUnit) : (c.setUnit d u).tb = c.tb := rfl
@[simp] theorem Chip.setUnit_qs (c : Chip) (d : Nat) (u : CUnit) : (c.setUnit d u).qs = c.qs := rfl
@[simp] theorem Chip.setUnit_dre (c : Chip) (d : Nat) (u : CUnit) : (c.setUnit d u).dre = c.dre := rfl
@[simp] theorem Chip.setUnit_sp (c : Chip) (d : Nat) (u : CUnit) : (c.setUnit d u).sp = c.sp := rfl
@[simp] theorem Chip.setUnit_out (c : Chip) (d : Nat) (u : CUnit) : (c.setUnit d u).out = c.out := rfl

end Sys2Proof.Machine
end

