-- ==== Sys2Proof/Laws/Registers.lean ====
section
/-! SUPPORT. Stored registers: what a write, a field write and a count leave in each register, and that they leave the rest of
the chip. -/

namespace Sys2Proof.Laws

open Sys2Proof.Machine

theorem rd_wr_same (c : Chip) (d : Nat) (a : RegAddr) (v : Nat) : (c.wr d a v).rd d a = v % 2 ^ 32 := by
  simp [Chip.wr, Chip.rd, Chip.rdw, tget_tput_same]

theorem rd_wr_ne (c : Chip) (d e : Nat) (a b : RegAddr) (v : Nat) (h : bar4 e b ≠ bar4 d a) : (c.wr d a v).rd e b = c.rd e b := by
  simp [Chip.wr, Chip.rd, Chip.rdw, tget_tput_ne, h]

theorem rd_lt (c : Chip) (d : Nat) (a : RegAddr) : c.rd d a < 2 ^ 32 := (c.rdw d a).isLt

/-- A counter of a block whose gate is open. -/
theorem rd_count_same (c : Chip) (d : Nat) (a : RegAddr) (n : Nat) (g : c.gateOpen d a.blk = true) :
    (c.count d a n).rd d a = satAdd 32 (c.rd d a) n := by
  rw [Chip.count, if_pos g, rd_wr_same]
  apply Nat.mod_eq_of_lt
  unfold satAdd
  omega

theorem rd_count_ne (c : Chip) (d e : Nat) (a b : RegAddr) (n : Nat) (h : bar4 e b ≠ bar4 d a) :
    (c.count d a n).rd e b = c.rd e b := by
  unfold Chip.count
  split
  · exact rd_wr_ne c d e a b _ h
  · rfl

/-- A write of a register changes the register table alone. -/
theorem wr_frame (c : Chip) (d : Nat) (a : RegAddr) (v : Nat) : { c.wr d a v with regs := c.regs } = c := rfl

end Sys2Proof.Laws
end

