-- ==== Sys2Proof/Laws/Events.lean ====
section
/-! SUPPORT. Raising an error class (R511–R519): everything `Chip.raise` can do. Proofs about a command that reports cite these and do
not unfold it. -/

namespace Sys2Proof.Machine

/-- `t` is `c` but for what a report may change: registers, the error logs of the functions, the fault block, the outputs. -/
def Chip.ReportsOf (c t : Chip) : Prop :=
  ∃ regs fns faults out, t = { c with regs := regs, fns := fns, faults := faults, out := out } ∧ faults.held = c.faults.held ∧ c.aerOnly fns

theorem Chip.ReportsOf.refl (c : Chip) : c.ReportsOf c := ⟨c.regs, c.fns, c.faults, c.out, rfl, rfl, fun _ => rfl⟩

theorem Chip.ReportsOf.trans {a b c : Chip} (h : a.ReportsOf b) (k : b.ReportsOf c) : a.ReportsOf c := by
  obtain ⟨r1, n1, f1, o1, e1, h1, a1⟩ := h
  obtain ⟨r2, n2, f2, o2, e2, h2, a2⟩ := k
  subst e1
  subst e2
  refine ⟨r2, n2, f2, o2, rfl, h2.trans h1, fun k => ?_⟩
  rw [← a1 k]
  have h := a2 k
  unfold Chip.fn at h ⊢
  rw [← h]

theorem Chip.emit_reports (c : Chip) (o : Out) : c.ReportsOf (c.emit o) := ⟨c.regs, c.fns, c.faults, _, rfl, rfl, fun _ => rfl⟩

theorem Chip.count_reports (c : Chip) (d : Nat) (a : RegAddr) (n : Nat) : c.ReportsOf (c.count d a n) :=
  by
  unfold Chip.count
  split
  · exact ⟨_, c.fns, c.faults, c.out, rfl, rfl, fun _ => rfl⟩
  · exact .refl c

/-- A function whose AER and error bits change. -/
theorem Chip.setFn_aerOnly (c : Chip) (k : Nat) (f : PciFn) (h : { f with aer := (c.fn k).aer, cfg := (c.fn k).cfg } = c.fn k) :
    c.aerOnly (c.setFn k f).fns := by
  intro j
  unfold Chip.setFn
  dsimp only []
  by_cases e : j = k
  · subst e; rw [tget_tput_same]; exact h
  · rw [tget_tput_ne _ _ _ e]; rfl

/-- An error log: the AER of functions, and the outputs. -/
def Chip.LogsOf (c t : Chip) : Prop := ∃ fns out, t = { c with fns := fns, out := out } ∧ c.aerOnly fns

theorem Chip.LogsOf.refl (c : Chip) : c.LogsOf c := ⟨c.fns, c.out, rfl, fun _ => rfl⟩

theorem Chip.LogsOf.trans {a b c : Chip} (h : a.LogsOf b) (k : b.LogsOf c) : a.LogsOf c := by
  obtain ⟨n1, o1, e1, a1⟩ := h
  obtain ⟨n2, o2, e2, a2⟩ := k
  subst e1
  subst e2
  refine ⟨n2, o2, rfl, fun k => ?_⟩
  rw [← a1 k]
  have h := a2 k
  unfold Chip.fn at h ⊢
  rw [← h]

/-- Everything a log of an uncorrectable error can do. -/
theorem Chip.aerLog_logs (c : Chip) (pf bit : Nat) (name : String) (header : List Nat) (advisory : Bool) :
    c.LogsOf (c.aerLog pf bit name header advisory) :=
  ⟨_, _, rfl, Chip.setFn_aerOnly c pf _ rfl⟩

/-- Everything a log of a correctable error can do. -/
theorem Chip.aerCor_logs (c : Chip) (pf bit : Nat) (name : String) : c.LogsOf (c.aerCor pf bit name) :=
  ⟨_, _, rfl, Chip.setFn_aerOnly c pf _ rfl⟩

/-- AER of a class changes error logs and outputs. -/
theorem Chip.aerOf_logs (c : Chip) (sev : Nat) : c.LogsOf (c.aerOf sev) := by
  unfold Chip.aerOf
  split
  · exact c.aerCor_logs ..
  · split
    · exact c.aerLog_logs ..
    · generalize c.upLinks = l
      induction l generalizing c with
      | nil => exact .refl c
      | cons x l ih =>
        rw [List.foldl_cons]
        exact (c.aerLog_logs ..).trans (ih _)

/-- What reporting leaves alone: the classes, the sequence number, held conditions. -/
theorem Chip.report_spec (c : Chip) (r : ErrRec) :
    c.ReportsOf (c.report r).1 ∧ (c.report r).1.faults.classes = c.faults.classes ∧ (c.report r).1.faults.seq = c.faults.seq ∧
      ∀ e b, bar4 e b ≠ bar4 0 R.fltLogOvf → (c.report r).1.rd e b = c.rd e b := by
  unfold Chip.report
  dsimp only []
  obtain ⟨n, o, ho, ha⟩ := Chip.aerOf_logs { c with faults := { c.faults with ugRaised := c.faults.ugRaised || decide (r.sev = 2) } } r.sev
  rw [ho]
  split
  · unfold Chip.logTake Chip.logWrite
    dsimp only []
    split
    · split
      · exact ⟨⟨c.regs, n, _, _, rfl, rfl, ha⟩, rfl, rfl, fun _ _ _ => rfl⟩
      · exact ⟨⟨c.regs, n, _, _, rfl, rfl, ha⟩, rfl, rfl, fun _ _ _ => rfl⟩
    · exact ⟨⟨c.regs, n, _, _, rfl, rfl, ha⟩, rfl, rfl, fun _ _ _ => rfl⟩
  · unfold Chip.logLose
    refine ⟨⟨_, n, _, _, rfl, rfl, ha⟩, rfl, rfl, fun e b h => ?_⟩
    exact Sys2Proof.Laws.rd_wr_ne c 0 e R.fltLogOvf b _ h

/-- What a class keeps on a die after one `raise1`. -/
theorem Chip.raise1_cls (c : Chip) (cls die : Nat) (e : Ev) :
    (c.raise1 cls die e).1.cls die cls = (c.cls die cls).after (c.recOf cls die e) := by
  have h : (c.record (c.recOf cls die e)).cls die cls = (c.cls die cls).after (c.recOf cls die e) := by
    unfold Chip.record Chip.cls
    exact Sys2Proof.Machine.tget_tput_same ..
  unfold Chip.raise1
  dsimp only []
  split
  · exact h
  · rw [← h]
    unfold Chip.cls
    rw [((c.record (c.recOf cls die e)).report_spec (c.recOf cls die e)).2.1]

/-- Other classes and dies keep what they have. -/
theorem Chip.raise1_cls_ne (c : Chip) (cls die d k : Nat) (e : Ev) (h : clsKey d k ≠ clsKey die cls) :
    (c.raise1 cls die e).1.cls d k = c.cls d k := by
  have h' : (c.record (c.recOf cls die e)).cls d k = c.cls d k := by
    unfold Chip.record Chip.cls
    exact Sys2Proof.Machine.tget_tput_ne _ _ _ h
  unfold Chip.raise1
  dsimp only []
  split
  · exact h'
  · rw [← h']
    unfold Chip.cls
    rw [((c.record (c.recOf cls die e)).report_spec (c.recOf cls die e)).2.1]

theorem Chip.record_reports (c : Chip) (r : ErrRec) : c.ReportsOf (c.record r) := ⟨c.regs, c.fns, _, c.out, rfl, rfl, fun _ => rfl⟩

theorem Chip.raise1_reports (c : Chip) (cls die : Nat) (e : Ev) : c.ReportsOf (c.raise1 cls die e).1 := by
  unfold Chip.raise1
  dsimp only []
  split
  · exact c.record_reports _
  · exact (c.record_reports _).trans (Chip.report_spec ..).1

theorem Chip.raise1_rd (c : Chip) (cls die : Nat) (e : Ev) (d : Nat) (b : RegAddr) (h : bar4 d b ≠ bar4 0 R.fltLogOvf) :
    (c.raise1 cls die e).1.rd d b = c.rd d b := by
  unfold Chip.raise1
  dsimp only []
  split
  · rfl
  · exact (Chip.report_spec (c.record (c.recOf cls die e)) (c.recOf cls die e)).2.2.2 d b h

/-- Raising a class changes nothing but registers, error logs, the fault block and the outputs, and no held condition. -/
theorem Chip.raise_reports (c : Chip) (cls die : Nat) (e : Ev) : c.ReportsOf (c.raise cls die e) := by
  unfold Chip.raise
  dsimp only []
  split
  · exact (c.raise1_reports ..).trans (Chip.raise1_reports ..)
  · exact c.raise1_reports ..

/-- The one register that raising a class may change is FLT_LOG_OVF of die 0. -/
theorem Chip.raise_rd (c : Chip) (cls die : Nat) (e : Ev) (d : Nat) (b : RegAddr) (h : bar4 d b ≠ bar4 0 R.fltLogOvf) :
    (c.raise cls die e).rd d b = c.rd d b := by
  unfold Chip.raise
  dsimp only []
  split
  · rw [Chip.raise1_rd _ _ _ _ _ _ h, Chip.raise1_rd _ _ _ _ _ _ h]
  · exact Chip.raise1_rd _ _ _ _ _ _ h

/-- The raised class on its die; LOG_OVERFLOW on die 0 apart. -/
theorem Chip.raise_cls (c : Chip) (cls die : Nat) (e : Ev) (h : clsKey die cls ≠ clsKey 0 Cls.logOverflow) :
    (c.raise cls die e).cls die cls = (c.cls die cls).after (c.recOf cls die e) := by
  unfold Chip.raise
  dsimp only []
  split
  · rw [Chip.raise1_cls_ne _ _ _ _ _ _ h, Chip.raise1_cls]
  · exact Chip.raise1_cls ..

theorem Chip.raise_cls_ne (c : Chip) (cls die d k : Nat) (e : Ev) (h : clsKey d k ≠ clsKey die cls)
    (h' : clsKey d k ≠ clsKey 0 Cls.logOverflow) : (c.raise cls die e).cls d k = c.cls d k := by
  unfold Chip.raise
  dsimp only []
  split
  · rw [Chip.raise1_cls_ne _ _ _ _ _ _ h', Chip.raise1_cls_ne _ _ _ _ _ _ h]
  · exact Chip.raise1_cls_ne _ _ _ _ _ _ h

/-- A masked class is recorded and nothing else. -/
theorem Chip.raise_masked (c : Chip) (cls die : Nat) (e : Ev) (h : c.masked die cls = true) :
    c.raise cls die e = c.record (c.recOf cls die e) := by
  have h1 : (c.recOf cls die e).masked = true := h
  unfold Chip.raise Chip.raise1
  dsimp only []
  rw [h1]
  rfl

end Sys2Proof.Machine
end

