-- ==== Sys2Proof/Laws/Shapes.lean ====
section
/-! SUPPORT. The shapes of a command's meaning: what an access, a register read or write of any kind can do to the queue and to
the fuse and NVM side. Proofs about `exec` cite these and do not unfold the shapes. -/

namespace Sys2Proof.Machine

/-- Everything `busAccess` can do. -/
theorem busAccess_cases (m : Master) (d b : Nat) (f : Chip → Chip) (s : State) :
    busAccess m d b f s = s ∨ ∃ g : Chip → Chip, busAccess m d b f s = s.onChip g ∧
      (g = f ∨ g = (fun c => c.accessFail d) ∨ g = fun c => c.unsupported (c.fnPci stewardFn) (bar4 d ⟨b, 0⟩)) := by
  simp only [busAccess]
  split
  · exact .inr ⟨_, rfl, .inr (.inr rfl)⟩
  · split
    · split
      · exact .inr ⟨_, rfl, .inl rfl⟩
      · exact .inr ⟨_, rfl, .inr (.inl rfl)⟩
      · exact .inl rfl
      · exact .inl rfl
    · exact .inl rfl

theorem busAccess_root (m : Master) (d b : Nat) (f : Chip → Chip) (s : State) : (busAccess m d b f s).root = s.root := by
  rcases busAccess_cases m d b f s with h | ⟨g, h, _⟩ <;> simp only [h, State.onChip_root]

theorem busAccess_pending (m : Master) (d b : Nat) (f : Chip → Chip) (s : State) : (busAccess m d b f s).pending = s.pending := by
  rcases busAccess_cases m d b f s with h | ⟨g, h, _⟩ <;> simp only [h, State.onChip_pending]

/-- An access that goes through runs its operation. -/
theorem busAccess_clear {m : Master} {d b : Nat} {s : State} (f : Chip → Chip) (h1 : s.chip.masterOk m = true)
    (h2 : s.chip.path m d b = .clear) : busAccess m d b f s = s.onChip f := by
  have h : ¬(m = .steward ∧ s.chip.stwRefuses = true) := fun h => by
    rw [h.1, Chip.masterOk, h.2] at h1
    simp at h1
  simp only [busAccess, h, h1, h2, if_true, if_false]

/-- Everything `rootAccess` can do. -/
theorem rootAccess_cases (m : Master) (f : Root → Root) (s : State) :
    rootAccess m f s = s ∨ rootAccess m f s = s.onRoot f ∨
      rootAccess m f s = s.onChip fun c => c.unsupported (c.fnPci stewardFn) (bar4 0 ⟨33, 0⟩) := by
  simp only [rootAccess]
  split
  · exact .inr (.inr rfl)
  · split
    · exact .inr (.inl rfl)
    · exact .inl rfl

theorem rootAccess_pending (m : Master) (f : Root → Root) (s : State) : (rootAccess m f s).pending = s.pending := by
  rcases rootAccess_cases m f s with h | h | h <;> simp only [h, State.onRoot_pending, State.onChip_pending]

theorem regRead_root (s : State) (m : Master) (d : Nat) (a : RegAddr) : (s.regRead m d a).2.root = s.root := by
  unfold State.regRead
  split
  · rfl
  · dsimp only []
    rw [State.onChip_root]
    split
    · rfl
    · rw [State.onChip_root]

theorem regRead_pending (s : State) (m : Master) (d : Nat) (a : RegAddr) : (s.regRead m d a).2.pending = s.pending := by
  unfold State.regRead
  split
  · rfl
  · dsimp only []
    rw [State.onChip_pending]
    split
    · rfl
    · rw [State.onChip_pending]

theorem bar4Access_root (m : Master) (off : Nat) (v : Option Reg32) (s : State) : (bar4Access m off v s).2.root = s.root := by
  unfold bar4Access
  split
  · rfl
  · split
    · split
      · rw [State.onChip_root]
      · exact regRead_root ..
    · rw [State.onChip_root]
    · rfl
    · rfl

theorem bar4Access_pending (m : Master) (off : Nat) (v : Option Reg32) (s : State) :
    (bar4Access m off v s).2.pending = s.pending := by
  unfold bar4Access
  split
  · rfl
  · split
    · split
      · rw [State.onChip_pending]
      · exact regRead_pending ..
    · rw [State.onChip_pending]
    · rfl
    · rfl

/-- A write to BAR4 acts on the chip, or as one write of TET_FUSE_CTRL on the fuse side. -/
theorem bar4Store_root (m : Master) (off : Nat) (v : Reg32) (s : State) :
    (bar4Store m off v s).root = s.root ∨ (bar4Store m off v s).root = fuseCtrl s.chip.boot.secVersion v s.root := by
  unfold bar4Store
  split
  · exact .inr (by rw [State.onRoot_root])
  · exact .inl (bar4Access_root ..)

theorem bar4Store_pending (m : Master) (off : Nat) (v : Reg32) (s : State) : (bar4Store m off v s).pending = s.pending := by
  unfold bar4Store
  split
  · rw [State.onRoot_pending]
  · exact bar4Access_pending ..

theorem hostStore_pending (m : Master) (off size : Nat) (v : BitVec 64) (s : State) :
    (hostStore m off size v s).pending = s.pending := by
  unfold hostStore
  dsimp only []
  split
  · exact State.onChip_pending ..
  · split
    · split
      · rfl
      · split
        · exact bar4Store_pending ..
        · split
          · rw [bar4Store_pending, bar4Store_pending]
          · exact State.onChip_pending ..
    · split
      · rfl
      · split <;> exact State.onChip_pending ..
    · split
      · exact State.onChip_pending ..
      · rfl
    · split
      · exact State.onRoot_pending ..
      · rfl
    · split
      · exact State.onChip_pending ..
      · rfl
    · split
      · exact State.onChip_pending ..
      · rfl
    · split
      · rfl
      · split
        · exact State.onChip_pending ..
        · split
          · exact State.onChip_pending ..
          · rfl
    · rfl

/-- A read answers a state that keeps the queue and the fuse side. -/
def LoadFrame (s : State) (x : Option (Nat × State)) : Prop := ∀ v t, x = some (v, t) → t.root = s.root ∧ t.pending = s.pending

theorem LoadFrame.none (s : State) : LoadFrame s none := fun _ _ h => nomatch h

theorem LoadFrame.some {s : State} (p : Nat × State) (h1 : p.2.root = s.root) (h2 : p.2.pending = s.pending) : LoadFrame s (some p) :=
  fun _ _ h => by injection h with h; subst h; exact ⟨h1, h2⟩

theorem readPair_eq (f : Nat → State → Nat × State) (o : Nat) (s : State) :
    readPair f o s = ((f o s).1 + (f (o + 4) (f o s).2).1 * 2 ^ 32, (f (o + 4) (f o s).2).2) := rfl

theorem readPair_frame (f : Nat → State → Nat × State) (h1 : ∀ o s, (f o s).2.root = s.root) (h2 : ∀ o s, (f o s).2.pending = s.pending)
    (o : Nat) (s : State) : (readPair f o s).2.root = s.root ∧ (readPair f o s).2.pending = s.pending := by
  rw [readPair_eq]
  generalize (f o s).1 + (f (o + 4) (f o s).2).1 * 2 ^ 32 = v
  exact ⟨(h1 ..).trans (h1 ..), (h2 ..).trans (h2 ..)⟩

/-- A read answers a value and a state that keeps the queue and the fuse side. -/
theorem hostLoad_frame (m : Master) (off size : Nat) (s : State) : LoadFrame s (hostLoad m off size s) := by
  have hb := fun o => LoadFrame.some (s := s) (bar4Access m o none s) (bar4Access_root m o none s) (bar4Access_pending m o none s)
  have hp := fun o =>
    have h := readPair_frame (fun o s => bar4Access m o none s) (fun o s => bar4Access_root m o none s)
      (fun o s => bar4Access_pending m o none s) o s
    LoadFrame.some (s := s) _ h.1 h.2
  have hs := fun (v : Nat) => LoadFrame.some (s := s) (v, s) rfl rfl
  have hc := fun (v : Nat) (f : Chip → Chip) => LoadFrame.some (s := s) (v, s.onChip f) (State.onChip_root f s) (State.onChip_pending f s)
  unfold hostLoad
  split
  · split
    · exact .none s
    · split
      · exact hb _
      · split
        · exact hp _
        · exact hc _ _
  · split
    · exact .none s
    · split
      · exact hs _
      · exact hc _ _
  · split
    · exact .none s
    · split
      · exact hs _
      · exact hc _ _
  · split
    · exact hs _
    · exact .none s
  · split
    · exact hs _
    · exact .none s
  · split
    · exact hs _
    · exact .none s
  · split
    · exact .none s
    · split
      · exact hs _
      · split <;> exact hs _
  · exact .none s

theorem counterRead_root (m : Master) (off size attr : Nat) (s : State) : (counterRead m off size attr s).root = s.root := by
  unfold counterRead
  split
  · rw [State.onChip_root]; exact (hostLoad_frame _ _ _ _ _ _ ‹_›).1
  · exact State.onChip_root ..

theorem counterRead_pending (m : Master) (off size attr : Nat) (s : State) : (counterRead m off size attr s).pending = s.pending := by
  unfold counterRead
  split
  · rw [State.onChip_pending]; exact (hostLoad_frame _ _ _ _ _ _ ‹_›).2
  · exact State.onChip_pending ..

/-- Everything a debug or boundary instruction can do to the queue: nothing. -/
theorem testPort_pending (i : TestInstr) (s : State) : (testPort i s).pending = s.pending := by
  have hb : (testBypass s).pending = s.pending := State.onChip_pending ..
  unfold testPort
  split
  · rfl
  · split
    · exact hb
    all_goals try exact State.onChip_pending ..
    · split
      · exact State.onChip_pending ..
      · exact hb
    · split
      · dsimp only []
        rw [State.onChip_pending]
        exact bar4Access_pending ..
      · exact hb
    · split
      · exact bar4Store_pending ..
      · exact hb
    · split
      · exact State.onChip_pending ..
      · exact hb
    · split
      · rfl
      · exact hb

end Sys2Proof.Machine
end

