-- ==== Sys2Proof/WellFormed.lean ====
section
/-! DEFINITION. Well-formed commands: operands within what the spec gives the part, at its largest (R3, R5, R23, R280, R284):
512 lanes, 8 dies, 32 host ports of 2 links, 4,096 instances and the steward. A meaning accepts any operands and ignores a
command that names what the part does not have; well-formedness is a property of the syntax alone. -/

namespace Sys2Proof

def okLane (n : Nat) : Bool := decide (n < 512)
def okDie (n : Nat) : Bool := decide (n < 8)
def okDieOpt : Option Nat → Bool
  | none => true
  | some d => okDie d
def okCulvert (n : Nat) : Bool := decide (n < 7)
def okPort (n : Nat) : Bool := decide (n < 32)
def okLink (n : Nat) : Bool := decide (n < 2)
def okVf (n : Nat) : Bool := decide (n < 512)
def okVfs (n : Nat) : Bool := decide (n ≤ 512)
def okTag (n : Nat) : Bool := decide (n < 16384)
def okInst (n : Nat) : Bool := decide (n < 4096)
/-- A channel's function: an instance, or 4096 for the steward. -/
def okFn (n : Nat) : Bool := decide (n ≤ 4096)
/-- A job's function, where there is one. -/
def okJob : Option Nat → Bool
  | none => true
  | some f => okFn f
def okEngine (n : Nat) : Bool := decide (n < 64)
def okCtx (n : Nat) : Bool := decide (n < 128)
def okBlock (n : Nat) : Bool := decide (n < 17)
def okDomain (n : Nat) : Bool := decide (n < 7)
def okSlot (n : Nat) : Bool := decide (n < 4)
def okShaper (n : Nat) : Bool := decide (n < 131072)
/-- A PFC priority, or PAUSE. -/
def okPrio : Option Nat → Bool
  | none => true
  | some p => decide (p < 8)
/-- A time after the last REFCLK edge: under 6.4 ns and the largest correction (R470). -/
def okPhase (n : Nat) : Bool := decide (n < 419473)
/-- A destination of a grant: an instance or a lane. -/
def okDest (inst : Bool) (n : Nat) : Bool := if inst then okInst n else okLane n
def okClass (n : Nat) : Bool := decide (n < 256)
/-- A frame without FCS: a header of 14 bytes at least. -/
def okFrame (b : Bytes) : Bool := decide (14 ≤ b.length) && decide (b.length ≤ 65536)
/-- Data of one read completion: at most 4,096 bytes. -/
def okRead (b : Bytes) : Bool := decide (b.length ≤ 4096)
/-- The recovery buffer: 32 KiB. -/
def okBuffer (b : Bytes) : Bool := decide (b.length ≤ 32768)
def okReadings (l : List Int) : Bool := decide (l.length = 16)
/-- Sizes of a host access in bytes. -/
def okSize (n : Nat) : Bool := decide (1 ≤ n) && decide (n ≤ 8)
/-- Attributes of a request: ID-based ordering, Relaxed Ordering, No Snoop. -/
def okAttr (n : Nat) : Bool := decide (n < 8)
/-- A nonce of SPDM: 32 bytes. -/
def okNonce (b : Bytes) : Bool := decide (b.length = 32)

def okFnId : FnId → Bool
  | .pf port link => okPort port && okLink link
  | .vf port link vf => okPort port && okLink link && okVf vf

/-- A command's operands are within the part's ranges. -/
def Instr.wf : Instr → Bool
  | .frameArrival lane phase bytes _ => okLane lane && okPhase phase && okFrame bytes
  | .oversizeDetected lane => okLane lane
  | .frameEnd lane _ _ _ _ => okLane lane
  | .rxStop lane _ _ => okLane lane
  | .walkBegin _ _ => true
  | .scanResultReady _ _ => true
  | .ingressStage _ _ _ => true
  | .culvertArrival _ _ _ => true
  | .flowLookupResult _ _ _ => true
  | .flowRereadResult _ _ _ => true
  | .spillwayReadback _ _ => true
  | .grant inst dest => okDest inst dest
  | .tenantFrameStart lane _ _ => okLane lane
  | .throughDeparture _ _ _ => true
  | .transmitComplete lane => okLane lane
  | .rxDelivery _ _ => true
  | .pauseReceived lane frame => okLane lane && okFrame frame
  | .pauseExpiry lane prio => okLane lane && okPrio prio
  | .pauseResend lane prio => okLane lane && okPrio prio
  | .preemptVerify lane => okLane lane
  | .verifyTimeout lane => okLane lane
  | .linkStateChange lane _ _ _ _ => okLane lane
  | .culvertLinkFail die port => okDie die && okCulvert port
  | .fltCulRetrain _ die _ => okDie die
  | .culvertRetrainDone die port _ => okDie die && okCulvert port
  | .learnOriginate die => okDie die
  | .learnNotice die => okDie die
  | .learnReplicaFail die => okDie die
  | .learnWithdrawal die => okDie die
  | .hitNotice die => okDie die
  | .clearNotice die => okDie die
  | .sweeperVisit die _ _ => okDie die
  | .macRemoval die => okDie die
  | .commitOpen => true
  | .ruleChange => true
  | .commitClose => true
  | .commitAbort => true
  | .changesConfirmed => true
  | .dieConfirmTimeout => true
  | .commitUndoDone => true
  | .epochSwitch => true
  | .qosApply die => okDie die
  | .epochRetire => true
  | .retirementSweepDone => true
  | .epochStall slot _ => okSlot slot
  | .groupUpdate => true
  | .groupUpdateConfirmed => true
  | .flowWrite _ => true
  | .flowDelete _ => true
  | .macFlush => true
  | .assocWrite => true
  | .keyLoad f => okFn f
  | .keyClear f => okFn f
  | .keySlotSettled f => okFn f
  | .kekQuery f => okFn f
  | .cipherJob f => okFn f
  | .cipherUnitDispatch die _ _ _ => okDie die
  | .cipherUnitComplete die _ => okDie die
  | .engineContextStart die engine job => okDie die && okEngine engine && okJob job
  | .microwordIssue die engine ctx _ _ => okDie die && okEngine engine && okCtx ctx
  | .tsReadAction die engine ctx _ => okDie die && okEngine engine && okCtx ctx
  | .tsCounterAdd die engine ctx => okDie die && okEngine engine && okCtx ctx
  | .tsMacLookup die engine ctx _ _ => okDie die && okEngine engine && okCtx ctx
  | .hbStateRead die engine ctx _ => okDie die && okEngine engine && okCtx ctx
  | .hbStateWrite die engine ctx => okDie die && okEngine engine && okCtx ctx
  | .hbAtomicAdd die engine ctx _ => okDie die && okEngine engine && okCtx ctx
  | .hbFlowLookup die engine ctx _ _ => okDie die && okEngine engine && okCtx ctx
  | .hbFlowInsert die engine ctx _ => okDie die && okEngine engine && okCtx ctx
  | .hbFlowDelete die engine ctx _ => okDie die && okEngine engine && okCtx ctx
  | .hbFlowRewrite die engine ctx _ => okDie die && okEngine engine && okCtx ctx
  | .pbRead die engine ctx _ => okDie die && okEngine engine && okCtx ctx
  | .pbWrite die engine ctx => okDie die && okEngine engine && okCtx ctx
  | .pbSetLength die engine ctx => okDie die && okEngine engine && okCtx ctx
  | .pbPrepend die engine ctx => okDie die && okEngine engine && okCtx ctx
  | .pbRemove die engine ctx => okDie die && okEngine engine && okCtx ctx
  | .pbAllocate die engine ctx => okDie die && okEngine engine && okCtx ctx
  | .hashH1H2 die engine ctx => okDie die && okEngine engine && okCtx ctx
  | .hashSymmetric die engine ctx => okDie die && okEngine engine && okCtx ctx
  | .hashCrc die engine ctx => okDie die && okEngine engine && okCtx ctx
  | .cipherTlsRecord die engine ctx => okDie die && okEngine engine && okCtx ctx
  | .cipherXtsUnit die engine ctx => okDie die && okEngine engine && okCtx ctx
  | .dmaPost die engine ctx => okDie die && okEngine engine && okCtx ctx
  | .portOpComplete die engine ctx _ => okDie die && okEngine engine && okCtx ctx
  | .enginePauseEnd die engine ctx => okDie die && okEngine engine && okCtx ctx
  | .reinject die engine ctx => okDie die && okEngine engine && okCtx ctx
  | .reinjectSlot die _ => okDie die
  | .enqueue die engine ctx => okDie die && okEngine engine && okCtx ctx
  | .drop die engine ctx => okDie die && okEngine engine && okCtx ctx
  | .complete die engine ctx => okDie die && okEngine engine && okCtx ctx
  | .dreCtxKill _ die _ => okDie die
  | .engineBlockIdle die => okDie die
  | .chnDsProd f _ => okFn f
  | .chnCqCons f _ => okFn f
  | .chnDsRestart f _ => okFn f
  | .chnCqRestart f _ => okFn f
  | .chnInvalidate f _ => okFn f
  | .chnAbort f _ => okFn f
  | .entryFetch f => okFn f
  | .entryStart f => okFn f
  | .pad f => okFn f
  | .nop f => okFn f
  | .txSend f => okFn f
  | .rxPost f => okFn f
  | .dmaCopy f => okFn f
  | .storageCmd f => okFn f
  | .shadowWrite f => okFn f
  | .burstIssue die _ _ => okDie die
  | .readCompletion port link tag _ _ data => okPort port && okLink link && okTag tag && okRead data
  | .readTimeout port link tag => okPort port && okLink link && okTag tag
  | .tagHoldExpiry port link tag => okPort port && okLink link && okTag tag
  | .transferEnd die _ => okDie die
  | .dmaModArm f _ => okFn f
  | .moderationTimer f => okFn f
  | .busMasterEnableClear fn => okFnId fn
  | .busMasterEnableSet fn => okFnId fn
  | .d3hotEntry fn => okFnId fn
  | .d0Return fn => okFnId fn
  | .initiateFlr fn => okFnId fn
  | .conventionalReset port link _ => okPort port && okLink link
  | .perstRelease port => okPort port
  | .hostLinkChange port link _ _ _ _ => okPort port && okLink link
  | .vfEnableClear port link => okPort port && okLink link
  | .numvfsWrite port link value => okPort port && okLink link && okVfs value
  | .msixUnmask fn _ => okFnId fn
  | .instanceCreate => true
  | .instanceDestroy => true
  | .instanceReset => true
  | .instanceResetDone i => okInst i
  | .mapSet => true
  | .mapClear => true
  | .mapSettled => true
  | .dirtyStart => true
  | .dirtySync => true
  | .dirtyStop => true
  | .freeze => true
  | .freezeDrained i => okInst i
  | .thaw => true
  | .save => true
  | .restore => true
  | .helloTimer die => okDie die
  | .hello lane frame => okLane lane && okFrame frame
  | .neighbourHoldExpiry lane => okLane lane
  | .publish lane frame => okLane lane && okFrame frame
  | .pubAck lane frame => okLane lane && okFrame frame
  | .publishResend lane => okLane lane
  | .spanBarrierGroup => true
  | .spanNeighbours => true
  | .spanRepublish => true
  | .barrierStart => true
  | .barrierPrepare lane frame => okLane lane && okFrame frame
  | .barrierEcho lane frame => okLane lane && okFrame frame
  | .barrierGo lane frame => okLane lane && okFrame frame
  | .barrierAbort lane frame => okLane lane && okFrame frame
  | .barrierTimeout => true
  | .spnBarrierStall => true
  | .barrierCancel _ _ => true
  | .hbmScrubVisit die _ _ _ => okDie die
  | .sramScrubVisit die _ _ _ => okDie die
  | .cfgCrcSweep => true
  | .cfgCrcCommit _ _ => true
  | .cfgCrcHoldLong => true
  | .fltPinRelease _ die _ => okDie die
  | .fltClassSel _ die _ => okDie die
  | .fltLogCons _ _ => true
  | .logMessage => true
  | .logSetup => true
  | .logStop => true
  | .verdictSetup => true
  | .verdictStop => true
  | .tetWatchdog => true
  | .registerWrite _ _ size _ => okSize size
  | .blockEnable _ die block _ => okDie die && okBlock block
  | .blockDisable _ die block _ => okDie die && okBlock block
  | .spillDisable _ die _ => okDie die
  | .pkgTenantMode _ _ => true
  | .counterReadClear _ _ size attr => okSize size && okAttr attr
  | .clsCntSel _ die _ _ => okDie die
  | .bufOccSel _ die _ => okDie die
  | .bufDropSel _ die _ => okDie die
  | .schShpSel _ die _ => okDie die
  | .weiCntSel _ die _ => okDie die
  | .macCntSel _ die _ => okDie die
  | .cipSlotSel _ die _ => okDie die
  | .dreCtxSel _ die _ => okDie die
  | .shaperRefill die idx _ => okDie die && okShaper idx
  | .clkGate _ die _ => okDie die
  | .gateForceTimeout die block => okDie die && okBlock block
  | .pwrSoftRst _ die _ => okDie die
  | .softResetDone die block => okDie die && okBlock block
  | .clkTbRate _ _ => true
  | .clkTbStep _ _ => true
  | .fuseArm _ _ => true
  | .fuseArmExpiry => true
  | .advanceCounter _ => true
  | .debugLock _ => true
  | .fuseBlowDone _ => true
  | .auxPowerOn => true
  | .auxPowerLoss => true
  | .pkgRstAssert => true
  | .pkgRstRelease _ _ _ => true
  | .pilotArmed => true
  | .refclkQualified => true
  | .pllLockAll => true
  | .pllLockTimeout die => okDie die
  | .pilotTrimTick _ => true
  | .bootStepComplete hwFail => okDieOpt hwFail
  | .refclkLost => true
  | .pllUnlocked die => okDie die
  | .domainCountWindow die domain _ => okDie die && okDomain domain
  | .refclkFreqWindow _ => true
  | .pilotEdgeTimeout => true
  | .rcvRead _ _ => true
  | .rcvErase _ _ => true
  | .rcvProgram _ _ data => okBuffer data
  | .rcvOpDone _ => true
  | .psEnChange _ => true
  | .psPgRise => true
  | .psPgFall die => okDie die
  | .powerStageFault _ die _ => okDie die
  | .telemetryUpdate _ _ _ _ => true
  | .telemetryTimeout => true
  | .sensorUpdate die readings => okDie die && okReadings readings
  | .setEndpointId _ _ => true
  | .pldmSensorRead _ _ => true
  | .vendorBootStatus _ => true
  | .vendorClassRead _ die cls => okDie die && okClass cls
  | .getVersion _ => true
  | .getCapabilities _ _ => true
  | .negotiateAlgorithms _ _ => true
  | .getDigests _ => true
  | .getCertificate _ _ _ _ => true
  | .challenge _ _ _ nonce => okNonce nonce
  | .getMeasurements _ _ _ nonce _ => okNonce nonce
  | .doeAbort => true
  | .refclkStopBeforeLock => true
  | .standbyRailsChange _ => true
  | .psFltFall => true
  | .vfEnableSet port link => okPort port && okLink link
  | .doeDiscovery _ _ _ _ => true
  | .mctpControlDiscovery _ _ => true
  | .testPortInstruction _ => true
  | .waveMemoryExpiry _ _ => true

end Sys2Proof
end

