-- ==== Sys2Proof/Tests/Slice0.lean ====
section
/-! SUPPORT. The model's own tests: ill-formed commands, the check values and worked examples that the spec prints, and for every
statement with hypotheses a state and operands that meet them (`witness_<statement>`, clause by clause). -/

namespace Sys2Proof.Tests

open Sys2Proof Sys2Proof.Machine

set_option maxRecDepth 100000
set_option Elab.async false

/-! ### Ill-formed commands, one for each check -/

theorem smoke_lane : Instr.wf (.oversizeDetected 512) = false := by decide
theorem smoke_lane_of_frame : Instr.wf (.hello 512 (List.replicate 64 0#8)) = false := by decide
theorem smoke_phase : Instr.wf (.frameArrival 0 419473 (List.replicate 60 0#8) .clean) = false := by decide
theorem smoke_frame_short : Instr.wf (.frameArrival 0 0 (List.replicate 13 0#8) .clean) = false := by decide
theorem smoke_die : Instr.wf (.learnOriginate 8) = false := by decide
theorem smoke_die_opt : Instr.wf (.bootStepComplete (some 8)) = false := by decide
theorem smoke_culvert : Instr.wf (.culvertLinkFail 0 7) = false := by decide
theorem smoke_port : Instr.wf (.perstRelease 32) = false := by decide
theorem smoke_link : Instr.wf (.vfEnableClear 0 2) = false := by decide
theorem smoke_vf : Instr.wf (.initiateFlr (.vf 0 0 512)) = false := by decide
theorem smoke_vf_link : Instr.wf (.d3hotEntry (.vf 0 2 0)) = false := by decide
theorem smoke_pf_port : Instr.wf (.d0Return (.pf 32 0)) = false := by decide
theorem smoke_vfs : Instr.wf (.numvfsWrite 0 0 513) = false := by decide
theorem smoke_tag : Instr.wf (.readTimeout 0 0 16384) = false := by decide
theorem smoke_instance : Instr.wf (.instanceResetDone 4096) = false := by decide
theorem smoke_function : Instr.wf (.nop 4097) = false := by decide
theorem smoke_job : Instr.wf (.engineContextStart 0 0 (some 4097)) = false := by decide
theorem smoke_engine : Instr.wf (.reinject 0 64 0) = false := by decide
theorem smoke_context : Instr.wf (.drop 0 0 128) = false := by decide
theorem smoke_block : Instr.wf (.gateForceTimeout 0 17) = false := by decide
theorem smoke_domain : Instr.wf (.domainCountWindow 0 7 0) = false := by decide
theorem smoke_slot : Instr.wf (.epochStall 4 0) = false := by decide
theorem smoke_shaper : Instr.wf (.shaperRefill 0 131072 false) = false := by decide
theorem smoke_priority : Instr.wf (.pauseExpiry 0 (some 8)) = false := by decide
theorem smoke_dest_lane : Instr.wf (.grant false 512) = false := by decide
theorem smoke_dest_instance : Instr.wf (.grant true 4096) = false := by decide
theorem smoke_class : Instr.wf (.vendorClassRead ⟨0x64, true⟩ 0 256) = false := by decide
theorem smoke_attributes : Instr.wf (.counterReadClear .tether 0 4 8) = false := by decide
theorem smoke_readings : Instr.wf (.sensorUpdate 0 []) = false := by decide
theorem smoke_size_low : Instr.wf (.registerWrite .tether 0 0 0) = false := by decide
theorem smoke_size_high : Instr.wf (.registerWrite .tether 0 9 0) = false := by decide
theorem smoke_nonce : Instr.wf (.challenge .doe 0 0 []) = false := by decide
theorem smoke_frame_long : Instr.wf (.frameArrival 0 0 (List.replicate 65537 0#8) .clean) = false := by
  simp only [Instr.wf, okFrame, List.length_replicate]
  decide
theorem smoke_read : Instr.wf (.readCompletion 0 0 0 .success 0 (List.replicate 4097 0#8)) = false := by
  simp only [Instr.wf, okRead, List.length_replicate]
  decide
theorem smoke_buffer : Instr.wf (.rcvProgram 0 0 (List.replicate 32769 0#8)) = false := by
  simp only [Instr.wf, okBuffer, List.length_replicate]
  decide
theorem smoke_ok : Instr.wf (.frameArrival 511 419472 (List.replicate 60 0#8) .clean) = true := by decide

/-! ### Benches -/

/-- A two-die part with boot done and every block of die 0 running, its port 0 and the steward's link up, and bus mastering on. -/
def live : Chip :=
  let c := Chip.resetWith 2 0 { Power.powerOn with inReset := false, standby := true, psEn := true, psPg := true } []
  let c := { c with
    clk := { Clk.reset with stage := .locked, refclkOk := true, pllLocked := true, mgmtOnPilot := false, tbRun := true, settled := true }
    boot := { Boot.reset with state := .done, step := 10 }
    fns := [(0, { PciFn.reset with bme := true, mse := true, vfEnable := true, vfMse := true, numVfs := 4 }), (64, { PciFn.reset with bme := true, mse := true })]
    rl := { Rules.reset with slots := Slot.reset } }
  let c := (List.range 17).foldl (fun c b => if b = 3 then c else c.wr 0 ⟨b, 0⟩ 1) (c.wr 0 R.clkGate 0x1FFFF)
  ((c.wr 0 (R.macPortCfg 0) (1 + 9000 * 256)).wr 0 (R.macPortStatus 0) 1).wr 0 (R.hepEpStatus 0) 1

/-- A machine around a part, with nothing waiting and the fuses and NVM of reset. -/
def on (c : Chip) : State := ⟨[], Root.reset, c⟩

/-- Instance 0, Active on virtual function 0 of the first host port. -/
def inst0 : Inst := { Inst.none with st := .active, keyCount := 4, quota := 64, entryVer := 2 }

/-- `live` with instance 0 and its channel, of 64 slots each ring, started. -/
def tenant : Chip := (live.setInst 0 inst0).setChan 0 { Chan.none with dsHalt := 0, cqHalt := 0, dsK := 6, cqK := 6, ver := 2 }

/-- The bytes of an entry: number of slots, type, then fields as (offset, width, value), in 32 × slots bytes. -/
def entry (slots typ : Nat) (fields : List (Nat × Nat × Nat)) : Bytes :=
  (List.range (32 * slots)).map fun i =>
    if i = 0 then BitVec.ofNat 8 slots else if i = 1 then BitVec.ofNat 8 typ else
      match fields.find? fun f => decide (f.1 ≤ i) && decide (i < f.1 + f.2.1) with
      | some f => BitVec.ofNat 8 (f.2.2 / 256 ^ (i - f.1))
      | none => 0#8

/-- A started entry that has not run. -/
def todo (b : Bytes) : Started := ⟨0, 0, b, false, none, [], none⟩

/-- A part with one started entry on the steward's ring, on instance 0's ring. -/
def forStw (c : Chip) (e : Started) : Chip :=
  c.setChan stewardFn { Chan.none with dsHalt := 0, cqHalt := 0, dsK := 6, cqK := 6, ver := 2, started := [e] }
def forVf (c : Chip) (e : Started) : Chip := c.setChan 0 { c.chan 0 with started := [e] }

/-- A part with these packets. -/
def carrying (l : List Pkt) : Chip := live.setDp fun d => { d with pkts := l, nextPkt := 8, stamp := 8 }

/-- Packet 1 of 64 bytes at a stage. -/
def frame (st : PStage) : Pkt := { Pkt.blank with id := 1, stage := st, bytes := List.replicate 64 0#8 }

/-- A part whose lane 0 receives a frame of `n` bytes, already packet 1 or not. -/
def receiving (n : Nat) (p : Option Nat) : Chip := live.setRx 0 [⟨p, List.replicate n 0#8, false, false, []⟩]

/-- A frame without FCS: zero addresses, an EtherType, a payload. -/
def eth (t : Nat) (l : Bytes) : Bytes := List.replicate 12 0#8 ++ toBE 2 t ++ l

/-- A register with these masks of RW, RWD, W1C, W1S and SEC bits. -/
def word (a b c d e : Nat) : RegDef := ⟨"", 0, [], a, b, c, d, 0, 0, 0, e, 0⟩

/-- The register at an address, if the spec names one. -/
def reg (a : RegAddr) : RegDef := (findReg a.blk a.off).getD (word 0 0 0 0 0)

/-- The learned MAC entry of key 5 at lane 0, time 7; a part that holds it on die 0 with one notice under way. -/
def mac5 : MacE := ⟨5, false, true, ⟨none, none⟩, 0, false, 0, 0, 7⟩
def noticed (k : NKind) (key time : Nat) : Chip :=
  ((live.macInsert 0 mac5).getD live).setTb fun t => { t with notices := [⟨k, 0, 1, key, false, 64, time⟩] }

/-- A ready context that holds packet 1 or is a job, with these operations outstanding; an operation that waits; a part with that
context and packet. -/
def context (job : Bool) (st : CtxSt) (ops : List PortOp) : Ctx :=
  ⟨job, if job then none else some 1, 0, 0, 0, 0, List.replicate 32 0, 0, [], ⟨false, false, false⟩, ⟨false, false, false⟩, false,
    [0, 0, 0, 0, 0], false, st, ops, 0, false⟩
def portOp (port : EnginePort) (code a b : Nat) (data : Bytes) : PortOp := ⟨port, code, a, b, 0, 0, 0, data, false, none⟩
def engine (k : Ctx) : Chip := (carrying [frame .context]).setCtx 0 0 0 (some k)

/-- Instance 0 with one receive buffer and packet 1 at a stage towards it. -/
def toTenant (st : PStage) : Chip :=
  { tenant.setChan 0 { tenant.chan 0 with rx := [⟨0, 2048, 0, 0⟩] } with
    qs := { Sched.reset with qos := [(0, { Qos.none with share := 9, onDie := 9, shaper := 0xFFFFFF })] }
    dp := { Packets.reset with pkts := [{ frame st with dstInst := true, dst := 0 }] } }

/-- Packet 1 at a stage towards a lane. -/
def toLane (st : PStage) (lane : Nat) : Pkt := { frame st with dst := lane }

/-- What the scheduler of destination 0 would grant. -/
def pick (c : Chip) (inst : Bool) : Nat × Nat × Pkt × Drr := (c.pickClass inst 0).getD (0, 0, frame .queued, ⟨0, []⟩)

/-- A flow entry image of kind 1; a part with it in die 0's table; a cipher unit of instance 0's job 0. -/
def flow1 : Bytes := List.replicate 40 0#8 ++ [1#8] ++ List.replicate 23 0#8
def withFlow (c : Chip) (d : Nat) (img : Bytes) : Chip := match c.flowInsert d img with | .inr (some x) => x | _ => c
def jobUnit (kind : UKind) (running : Bool) (key : Option KeySlot) : CUnit := ⟨0, kind, running, 0, 0, key, 0, 1⟩
def aesKey : KeySlot := ⟨1, List.replicate 64 0#8, List.replicate 12 0#8⟩
def ciphering (u : CUnit) (e : Bytes) : Chip :=
  { tenant.setDma 0 { DieDma.none with xfers := [(0, Xfer.fresh 0 0 e .job [(0x1000, 64)])] } with
    cp := { Cipher.reset with
      keySlots := [(0, some aesKey)], units := [(0, [u])], jobs := [⟨0, 0, e, [], [], [], [none], 0, 0⟩],
      assocs := [(0, some (Assoc.ofBytes (List.replicate 128 1#8)))] } }

/-- `engine` with instance 0 and a started entry on its ring. -/
def jobEngine (k : Ctx) (e : Started) : Chip := forVf ((engine k).setInst 0 inst0) e

/-- A transfer of instance 0 over one segment, its data all received or nothing issued. -/
def xfer (kind : XferKind) (len issued written : Nat) : Xfer :=
  { Xfer.fresh 0 0 [] kind [(0x1000, len)] with issued := issued, written := written }
def moving (x : Xfer) : Chip :=
  (tenant.setDma 0 { DieDma.none with xfers := [(0, x)] }).setInst 0 { inst0 with leaves := [(0x1000, ⟨0, 0x2000, true, true⟩)] }

/-- Port 0 runs Span and has an UP neighbour, device 2 at version 3; a frame of its with a body of 28 zero bytes. -/
def spanned : Chip :=
  { (live.wr 0 R.spnPortEnLo 1).wr 0 R.spnPortInstallLo 1 with
    sp := { Span.reset with neigh := [(0, { Neigh.none with st := .up, version := 3, device := 2, unacked := [(1, [])] })] } }
def hsp (typ seq : Nat) : Bytes :=
  eth 0x88B5 ([0x48#8, 3#8] ++ toBE 1 typ ++ [0#8] ++ toBE 4 0 ++ toBE 2 2 ++ toBE 2 28 ++ toBE 4 seq ++ List.replicate 28 0#8)

def hspv (v typ : Nat) : Bytes :=
  eth 0x88B5 ([0x48#8] ++ toBE 1 v ++ toBE 1 typ ++ [0#8] ++ toBE 4 0 ++ toBE 2 2 ++ toBE 2 28 ++ toBE 4 1 ++ List.replicate 28 0#8)

/-- A barrier group that this part coordinates, its wave; `spanned` with both. -/
def group0 : BarGroup := ⟨0, 0, 2, 100, 0⟩
def wave0 (parent : Option Nat) (echoed : Bool) : Wave := ⟨0, 0, 0, 2, parent, [], 0, 0, echoed, 0, 100000000⟩
def inBarrier (w : Option Wave) (t : Nat) : Chip :=
  { spanned with
    sp := { spanned.sp with barrier := { Barrier.none with using_ := some group0, wave := w } }
    commit := { Commit.none with phase := .barrier, barrier := true }, clk := { spanned.clk with tb := t * tbPerNs, edges := (t * 5 + 31) / 32 } }

/-- A part in a boot step; the fuse and NVM side with a change. -/
def bootAt (n : Nat) (sel : BitVec 2) : State :=
  on { live with boot := { Boot.reset with step := n, bootSel := sel, secVersion := 1 } }
def rooted (r : Root) (c : Chip) : State := ⟨[], r, c⟩

/-- A part whose configuration check holds the results of its registers; the check does not read its own results. -/
def committed (c : Chip) : Chip :=
  { c with cfg := { CfgCheck.reset with refParts := c.sweep.sweepParts, ref := c.sweep.sweepResult } }
theorem stretch_same (a b : Chip) (h : a.regs = b.regs) (hc : a.cfg.swept = b.cfg.swept) : a.stretch = b.stretch := by
  have hr : a.rd = b.rd := by funext d x; simp only [Chip.rd, Chip.rdw, h]
  have hg : a.gateOpen = b.gateOpen := by funext d k; simp only [Chip.gateOpen, Chip.bit, hr]
  have hb : a.blockStream = b.blockStream := by funext d k; simp only [Chip.blockStream, Chip.streamWord, hr, hg, hc]
  funext p
  simp only [Chip.stretch, hb]
theorem swept_same (c : Chip) (h : c.cfg.swept = []) : (committed c).sweep.cfg.swept = c.sweep.cfg.swept := by
  have hg : (committed c).gateOfBar4 = c.gateOfBar4 := rfl
  have hs : (committed c).cfg.swept = [] := rfl
  have hr : (committed c).regs = c.regs := rfl
  simp only [Chip.sweep, h, hg, hs, hr]
theorem committed_parts (c : Chip) (h : c.cfg.swept = []) : (committed c).cfg.refParts = (committed c).sweep.sweepParts := by
  simp only [Chip.sweepParts, Chip.stretches, stretch_same (committed c).sweep c.sweep rfl (swept_same c h)]
  simp only [committed, Chip.sweepParts, Chip.stretches]
  rfl
theorem committed_result (c : Chip) (h : c.cfg.swept = []) : (committed c).cfg.ref = (committed c).sweep.sweepResult := by
  simp only [Chip.sweepResult, Chip.stretches, stretch_same (committed c).sweep c.sweep rfl (swept_same c h)]
  simp only [committed, Chip.sweepResult, Chip.stretches]
  rfl
theorem committed_some (c : Chip) : (committed c).cfg.refParts ≠ [] := by simp [committed, Chip.sweepParts, Chip.stretches]

/-- A part at a package time in ns. -/
def later (c : Chip) (ns : Nat) : Chip := { c with clk := { c.clk with tb := ns * tbPerNs, edges := (ns * 5 + 31) / 32 } }

/-! ### Cryptography: the examples of the standards -/

/-- GB/T 32905, example 1: the digest of "abc". -/
theorem test_sm3_abc : sm3 [0x61, 0x62, 0x63] = 0x66C7F0F462EEEDD9D1F2D46BDC10E4E24167C4875CF2F7A2297DA02B8F4BA8E0 := by decide +kernel
/-- GB/T 32907, example 1. -/
theorem test_sm4_block : blockEnc 3 (toBE 16 0x0123456789ABCDEFFEDCBA9876543210) (toBE 16 0x0123456789ABCDEFFEDCBA9876543210) =
    toBE 16 0x681EDF34D206965E86B3E94F536E4246 := by decide +kernel
/-- FIPS 197, C.1, in both directions. -/
theorem test_aes_block :
    blockEnc 1 (toBE 16 0x000102030405060708090A0B0C0D0E0F) (toBE 16 0x00112233445566778899AABBCCDDEEFF) =
      toBE 16 0x69C4E0D86A7B0430D8CDB78070B4C55A ∧
    blockDec 1 (toBE 16 0x000102030405060708090A0B0C0D0E0F) (toBE 16 0x69C4E0D86A7B0430D8CDB78070B4C55A) =
      toBE 16 0x00112233445566778899AABBCCDDEEFF := by decide +kernel
/-- The GCM specification, test case 2. -/
theorem test_gcm_block : aeadSeal 1 (toBE 16 0) (toBE 12 0) [] (toBE 16 0) =
    (toBE 16 0x0388DACE60B6A392F328C2B971B2FE78, toBE 16 0xAB6E47D42CEC13BDF53A67B21257BDDF) := by decide +kernel
/-- RFC 8439, 2.3.2: the key stream block of counter 1. -/
theorem test_chacha_block : (chachaBlock (toBE 32 0x000102030405060708090A0B0C0D0E0F101112131415161718191A1B1C1D1E1F)
    (toBE 12 0x000000090000004A00000000) 1).take 16 = toBE 16 0x10F1E7E4D13B5915500FDD1FA32071C4 := by decide +kernel
/-- RFC 8439, 2.5.2: the tag of "Cryptographic Forum Research Group". -/
theorem test_poly1305 : poly1305 (toBE 32 0x85D6BE7857556D337F4452FE42D506A80103808AFB0DB2FD4ABFF6AF4149F51B)
    (toBE 34 0x43727970746F6772617068696320466F72756D2052657365617263682047726F7570) =
    toBE 16 0xA8061DC1305136C6C22B8BAF0C0127A9 := by decide +kernel
/-- GB/T 32918.5: the base point lies on the curve and is the public key of 1. -/
theorem test_sm2_base : sm2OnCurve (sm2Public 1) = true ∧ sm2Public 1 = toBE 32 sm2Gx ++ toBE 32 sm2Gy := by decide +kernel

/-! ### Check values and worked examples that the spec prints -/

def digits : Bytes := (List.range 9).map fun i => BitVec.ofNat 8 (0x31 + i)
/-- R543. -/
theorem test_crc64 : crc64 digits = 0x6C40DF5F0B497347#64 := by decide +kernel
/-- The published check values of CRC-32C and CRC-32 (R153, R300). -/
theorem test_crc32c : crc32c digits = 0xE3069283#32 := by decide +kernel
theorem test_crc32 : crc32 digits = 0xCBF43926#32 := by decide +kernel

/-- A parse node of the worked example of spec/03: select (offset, width, mask) with one transition, advance (kind, constant, field
offset, width, mask, log2 unit), extractions (offset, length, destination, layered), flags word 4. -/
def node (sel : Option (Nat × Nat × Nat)) (adv : Nat × Nat × Nat × Nat × Nat × Nat) (ex : List (Nat × Nat × Nat × Nat)) (flags : Nat) : Nat :=
  let w0 := match sel with | some s => s.1 + (s.2.1 - 1) * 2 ^ 9 + 2 ^ 14 + 2 ^ 16 + 8 * 2 ^ 24 | none => 8 * 2 ^ 24
  let w1 := match sel with | some s => s.2.2 | none => 0
  let w2 := adv.1 + adv.2.1 * 2 ^ 2 + adv.2.2.1 * 2 ^ 11 + (adv.2.2.2.1 - 1) * 2 ^ 20 + adv.2.2.2.2.2 * 2 ^ 24
  w0 + w1 * 2 ^ 32 + w2 * 2 ^ 64 + adv.2.2.2.2.1 * 2 ^ 96 + flags * 2 ^ 128 +
    (ex.zipIdx.map fun x => (x.1.1 + (x.1.2.1 - 1) * 2 ^ 9 + x.1.2.2.1 * 2 ^ 13 + 2 ^ 20 + x.1.2.2.2 * 2 ^ 21) * 2 ^ (160 + 32 * x.2)).sum

/-- Node 4 of the example, and the words that the spec writes out for it. -/
def node4 : Nat := node (some (2, 16, 0xFFFF)) (1, 8, 0, 8, 0x3F, 2) [(4, 3, 36, 0)] 0
theorem test_node4 : (List.range 16).map (fun i => bitsN node4 (32 * i) 32) =
    [0x08015E02, 0xFFFF, 0x02700021, 0x3F, 0, 0x00148404, 0, 0, 0, 0, 0, 0, 0, 0, 0, 0] := by decide +kernel

def graphNodes : Tab Nat :=
  [(0, node (some (12, 16, 0xFFFF)) (0, 14, 0, 1, 0, 0) [] 0), (1, node (some (2, 16, 0xFFFF)) (0, 4, 0, 1, 0, 0) [] 0),
   (2, node (some (6, 8, 0xFF)) (0, 40, 0, 1, 0, 0) [(8, 16, 0, 0), (24, 16, 16, 0)] 4),
   (3, node (some (2, 16, 0xFFFF)) (0, 8, 0, 1, 0, 0) [(0, 4, 32, 0)] 0x14), (4, node4),
   (5, node (some (12, 16, 0xFFFF)) (0, 14, 0, 1, 0, 0) [(0, 12, 0, 1)] 2),
   (6, node (some (9, 8, 0xFF)) (1, 0, 0, 8, 0x0F, 2) [(12, 8, 12, 1)] 0x24),
   (7, node none (1, 0, 12, 4, 0xF, 2) [(0, 4, 20, 1), (13, 1, 24, 1)] 0x35), (8, node none (0, 0, 0, 1, 0, 0) [] 1)]
def graphTrans : Tab Nat :=
  [(0, 0x8100 + 0xFFFF * 2 ^ 32 + 1 * 2 ^ 64), (16, 0x86DD + 0xFFFF * 2 ^ 32 + 2 * 2 ^ 64), (32, 17 + 0xFF * 2 ^ 32 + 3 * 2 ^ 64),
   (48, 0x17C1 + 0xFFFF * 2 ^ 32 + 4 * 2 ^ 64), (64, 0x6558 + 0xFFFF * 2 ^ 32 + 5 * 2 ^ 64), (80, 0x0800 + 0xFFFF * 2 ^ 32 + 6 * 2 ^ 64),
   (96, 6 + 0xFF * 2 ^ 32 + 7 * 2 ^ 64)]
/-- The first 136 bytes of the example's frame. -/
def geneve : Bytes :=
  List.replicate 12 0xEE#8 ++ toBE 2 0x8100 ++ toBE 2 210 ++ toBE 2 0x86DD ++
  toBE 6 0x600000000000 ++ toBE 2 0x1140 ++ toBE 16 0x20010db804c100000000000000000017 ++ toBE 16 0x20010db804c10000000000000000002a ++
  toBE 2 49902 ++ toBE 2 6081 ++ toBE 4 0 ++ toBE 2 0x0200 ++ toBE 2 0x6558 ++ toBE 4 0x0A3C5100 ++ toBE 8 0 ++
  toBE 12 0x0123456789AB0123456789AC ++ toBE 2 0x0800 ++ toBE 9 0x450000000000000040 ++ toBE 1 6 ++ toBE 2 0 ++
  toBE 4 0xC000022D ++ toBE 4 0xC6336407 ++ toBE 2 51234 ++ toBE 2 8443 ++ toBE 8 0 ++ toBE 2 0x5002 ++ toBE 6 0
/-- The walk of spec/03's example: metadata and the inner half of the key vector. -/
theorem test_walk :
    (let r := parseWalk graphNodes graphTrans (geneve ++ List.replicate 1060 0#8) 1196 0 none
     (Md.err r.2, bitsN r.2 8 5, Md.innerSeen r.2, bitN r.2 14, Md.lastNode r.2, Md.payload r.2, Md.innerOffset r.2) =
       (0, 8, true, false, 7, 136, 82) ∧
     (List.range 8).map (Md.mark r.2) = [18, 58, 96, 116, 0x3FF, 0x3FF, 0x3FF, 0x3FF] ∧
     (r.1.drop 76).take 13 = toBE 4 0xC000022D ++ toBE 4 0xC6336407 ++ toBE 4 0xC82220FB ++ [2#8]) := by decide +kernel
/-- The same packet cut to a frame length of 100 bytes: TRUNCATED at node 6. -/
theorem test_walk_truncated :
    (let m := (parseWalk graphNodes graphTrans (geneve.take 96) 96 0 none).2
     (Md.err m, bitsN m 8 5, Md.lastNode m, Md.payload m, Md.mark m 2)) = (3, 7, 6, 96, 0x3FF) := by decide +kernel

/-- The hash of spec/05's example, its owner die by the table's entries 152 to 159, its engine, and its ECMP member of 6. -/
theorem test_hash :
    toeplitz ((List.range 10).foldl (fun a _ => a * 2 ^ 32 + 0x1B2C3D4E) 0) (toBE 4 0x64400114 ++ toBE 4 0x64400124 ++ toBE 4 0x0050C030) =
      0x7E42C19B := by decide +kernel
theorem test_owner : (live.wr 0 (R.hgtIndir 19) 0x76543210).ownerDie 0 0x7E42C19B = 3 := by decide +kernel
theorem test_engine : live.engineOf 0 0x7E42C19B = 31 ∧ (live.wr 0 R.dreCtrl 4).engineOf 0 0x7E42C19B = 30 := by decide +kernel

/-- Culvert ports of spec/01's example (an LRX-8): 2 to 3 on port 0, 4 to 3 on port 6, 3 to 2 on port 6, 0 to 2 on port 1. -/
theorem test_culvert :
    [(2, 3), (3, 4), (4, 3), (3, 2), (0, 2)].map (fun p => ({ live with dies := 8 }).gang p.1 p.2) = [[0], [0], [6], [6], [1]] := by decide +kernel

/-- Shaper 7,300 of the example of spec/07 with a packet of 1,500 bytes queued, at a time and slot in ns. -/
def shaping (t : Nat) (credit : Int) (last : Nat) (ch : Option (Nat × Nat × Nat)) : Chip :=
  ({ (carrying [{ frame .queued with dst := 0, bytes := List.replicate 1496 0#8 }]).wr 0 (R.schPortCtrl 0) (7300 * 256) with
    clk := { live.clk with tb := t * tbPerNs } }).setShaper 7300 ⟨10000, 4096, 0, credit, last * 65536, some (t * 65536), 2 ^ 20, ch⟩
/-- Step 2: 6.25 bytes after 5 ns, the grant leaves −1,493.75, and the shaper goes to slot 2,208 ns. -/
theorem test_refill :
    (let c := shaperRefill 0 7300 false (shaping 1008 0 1003 none)
     (c.shaper 7300).credit = 625 * creditByte / 100 ∧ ((c.chargeShaper 1500 7300).shaper 7300).credit = -(149375 * creditByte / 100 : Nat) ∧
       ((c.chargeShaper 1500 7300).shaper 7300).slot = some (2208 * 65536)) := by decide +kernel
/-- Step 5: the refill at the old rate, then the rate of the commit: slot 5,808 ns. -/
theorem test_refill_change :
    (let c := shaperRefill 0 7300 false (shaping 3408 (-(149375 * creditByte / 100 : Nat)) 2208 (some (5000, 4096, 0)))
     ((c.chargeShaper 1500 7300).shaper 7300).slot = some (5808 * 65536) ∧ (c.shaper 7300).rate = 5000) := by decide +kernel

/-- The segmented send of spec/08's example: frame length, IPv4 total length, identification, sequence, flags of its frames. -/
def segmented : SendFields := ⟨true, false, false, false, false, false, false, 0, 0, 14, 34, 66, 1448, 0⟩
def segmentData : Bytes :=
  List.replicate 12 0#8 ++ toBE 2 0x0800 ++ toBE 4 0x45000000 ++ toBE 2 0x3A10 ++ toBE 3 0 ++ [6#8] ++ List.replicate 10 0#8 ++ toBE 4 0 ++
    toBE 4 0x10000000 ++ toBE 5 0 ++ [0x18#8] ++ List.replicate 18 0#8 ++ List.replicate 4000 1#8
theorem test_segments :
    (List.range 3).map (fun k =>
      let f := segmented.frame segmentData k 3
      (f.length + 4, beAt f 16 2, beAt f 18 2, beAt f 38 4, byteAt f 47)) =
    [(1518, 1500, 0x3A10, 0x10000000, 0x10), (1518, 1500, 0x3A11, 0x100005A8, 0x10), (1174, 1156, 0x3A12, 0x10000B50, 0x18)] := by
  decide +kernel

/-- Microwords of the program of spec/10's example, by (lowest bit, value) of the fields of R284; the last as the spec encodes it. -/
def microword (l : List (Nat × Nat)) : Nat := (l.map fun x => x.2 * 2 ^ x.1).sum
def running (word : Nat) (regs : List (Nat × Nat)) : Chip :=
  ((engine { context false .ready [] with regs := regs.foldl (fun l r => l.set r.1 r.2) (List.replicate 32 0) }).wr 0 R.dreCsInfo 32).setDre
    fun d => { d with cstore := [(0, word)] }
def registers (c : Chip) : List Nat := ((c.ctx 0 0 0).map fun k => k.regs).getD []
theorem test_word_400 :
    (registers (microwordIssue 0 0 0 .clean false (running (microword [(72, 0x8000), (46, 6), (49, 16), (54, 32), (60, 16), (66, 15)]) [])))[16]? =
      some 0x80000000 := by decide +kernel
theorem test_word_401 :
    (let c := microwordIssue 0 0 0 .clean false
        (running (microword [(72, 0x0811), (0, 5), (6, 16), (11, 16), (17, 32), (23, 5), (29, 17), (34, 16), (40, 32)]) [(16, 0x80000000)])
     ((registers c)[16]?, (registers c)[17]?) = (some 0x80000811, some 0x80000811)) := by decide +kernel
theorem test_word_402 :
    (let c := microwordIssue 0 0 0 .clean false
        (running (microword [(0, 0x0E), (6, 17), (11, 17), (46, 6), (49, 14), (54, 16), (60, 0), (66, 31)]) [(16, 0x80000811), (17, 0x80000811)])
     ((registers c)[17]?, (registers c)[14]?) = (some 0x80000812, some 0x80000811)) := by decide +kernel
theorem test_word_405 :
    (let c := microwordIssue 0 0 0 .clean false (running (0x0000A50E + 0x000020A0 * 2 ^ 96) [])
     (registers c)[20]? = some 1 ∧ ((c.ctx 0 0 0).map fun k => k.ops.map fun o => (o.port, o.op, o.dst)) = some [(.hb, 5, 1)]) := by
  decide +kernel

/-- The log of spec/20's example: ten corrected errors on die 3 with four slots left, and one more once the steward has read. -/
def logging : Chip :=
  { live with dies := 8, faults := { Faults.none with ring := some ⟨0x10000, 6, 0⟩, prod := 0x140, cons := 0x104, seq := 0x123, ovfArmed := true } }
def logged : Chip := (List.range 10).foldl (fun c _ => c.raise Cls.sramCorrected 3 {}) logging
theorem test_log :
    (logged.faults.prod, logged.faults.seq, logged.rd 0 R.fltLogOvf, (logged.cls 3 3).count) = (0x144, 0x12E, 7, 10) ∧
    ((logged.cls 3 3).first.map ErrRec.seq, (logged.cls 3 3).last.map ErrRec.seq) = (some 0x124, some 0x12E) := by decide +kernel
theorem test_log_again :
    (let c := (fltLogCons 0x144 logged).raise Cls.sramCorrected 3 {}
     (c.faults.prod, c.faults.seq) = (0x145, 0x12F) ∧
       c.out.any (fun o => match o with | .hostWrite 4096 a b _ _ => a == 0x10000 + 32 * 4 && leAt b 3 5 == 1 + 0x12F * 256 | _ => false) = true) := by
  decide +kernel

/-- The value of a register after a write. -/
def written (s : State) (off : Nat) (v : BitVec 64) (a : RegAddr) : Nat × Nat :=
  match exec (.registerWrite .tether off 4 v) s with | .next t => (t.chip.rd 0 a, (t.chip.cls 0 0x32).count) | _ => (0, 0)
/-- Steps 2, 5 and 9 of spec/21's example on DRE_CTRL: enabled, paired stays 0 and WRITE_WHILE_ENABLED is raised; disabled, paired is
set and the flag cleared; enabled with paired as it was. -/
theorem test_paired :
    written (on (live.wr 0 R.dreCtrl 1)) 0xB00000 5 R.dreCtrl = (3, 1) ∧ written (on (live.wr 0 R.dreCtrl 2)) 0xB00000 6 R.dreCtrl = (4, 0) ∧
    written (on (live.wr 0 R.dreCtrl 4)) 0xB00000 5 R.dreCtrl = (5, 0) := by decide +kernel
/-- The contribution of DRE_CTRL of die 3 to the check stream, paired set. -/
theorem test_stream :
    ((live.wr 3 R.dreCtrl 5).blockStream 3 11).take 8 = [0x0C#8, 0xB0#8, 0#8, 0#8, 0#8, 0#8, 0#8, 4#8] := by decide +kernel

/-- The completion queue of spec/14's example: 68 records at P = 60, C = 0 fill the queue and the stash; CHN_CQ_CONS = 40 lets 40 out. -/
def flooded : Chip :=
  (List.range 68).foldl (fun c _ => c.placeRec 0 (List.replicate 32 1#8))
    ((tenant.setChan 0 { tenant.chan 0 with cqP := 60, cqBase := 0x1000 }).setInst 0 { inst0 with leaves := [(0x1000, ⟨0, 0x2000, true, true⟩)] })
theorem test_full :
    ((flooded.chan 0).cqP, (flooded.chan 0).stash.length, (flooded.chan 0).full, flooded.rd 0 (R.dmaFullCnt 0), (flooded.cls 0 0x65).count) =
      (64, 64, true, 1, 1) := by decide +kernel
theorem test_drain :
    (match exec (.chnCqCons 0 40) (on flooded) with
     | .next t => ((t.chip.chan 0).cqP, (t.chip.chan 0).stash.length) | _ => (0, 0)) = (104, 24) := by decide +kernel
/-- Step 9 of spec/13's example: P − C would be 65, so the ring halts with LAP_ERROR and the index is not taken. -/
theorem test_lap :
    (match exec (.chnDsProd 0 0x48) (on (tenant.setChan 0 { tenant.chan 0 with dsP := 7, dsC := 7 })) with
     | .next t => ((t.chip.chan 0).dsP, (t.chip.chan 0).dsHalt) | _ => (0, 0)) = (7, Halt.lap) := by decide +kernel

/-- Slot B of a 128 MiB NVM (spec/17's example), and one REFCLK edge of 6.4 ns (R467). -/
theorem test_slotB : Root.reset.slotBase true = 0x04000000 := by decide
theorem test_edge : (live.tick).clk.tb * 5 = 32 * tbPerNs := by decide +kernel
/-- No command is spelt by bits (the opcode table gives none). -/
theorem test_no_words : decodeTableWord 0 0 = none := rfl

/-! ### The hypotheses of the statements are met -/

/-- The hypotheses of `Obligations.IdleStepIsEdge`, clause by clause, are met. -/
theorem witness_IdleStepIsEdge :
    (∃ (s : State), s.pending = [] ∧ s.chip.clk.tbRun = true ∧ s.chip.clk.refclkOk = true) ∧
    (∃ (s : State), s.pending = [] ∧ (s.chip.clk.tbRun && s.chip.clk.refclkOk) = false) :=
  ⟨⟨on live, by decide +kernel⟩,
   ⟨State.reset, by decide +kernel⟩⟩

/-- The hypotheses of `Obligations.RootKept`, clause by clause, are met. -/
theorem witness_RootKept :
    ∃ (i : Instr) (s : State) (t : State), i.onRootSide = false ∧ exec i s = .next t :=
  ⟨.psPgRise, State.reset, _, rfl, rfl⟩

/-- The hypotheses of `Obligations.FusesOnlyGrow`, clause by clause, are met. -/
theorem witness_FusesOnlyGrow :
    (∃ (s : State) (t : State), ∃ k, step s = .next t ∧ s.root.fuses.arb.getLsbD k = true) ∧
    (∃ (s : State) (t : State), ∃ k, step s = .next t ∧ s.root.fuses.debugLock.getLsbD k = true) ∧
    (∃ (s : State) (t : State), step s = .next t ∧ s.root.locked = true) :=
  ⟨⟨{ State.reset with root := { Root.reset with fuses := { Fuses.reset with arb := 1#64, debugLock := 8#4 } } }, _, 0, rfl, by decide⟩,
   ⟨{ State.reset with root := { Root.reset with fuses := { Fuses.reset with arb := 1#64, debugLock := 8#4 } } }, _, 3, rfl, by decide⟩,
   ⟨{ State.reset with root := { Root.reset with fuses := { Fuses.reset with arb := 1#64, debugLock := 8#4 } } }, _, rfl, by decide⟩⟩

/-- The hypotheses of `Obligations.RootStaysSound`, clause by clause, are met. -/
theorem witness_RootStaysSound :
    ∃ (s : State) (t : State), Root.sound s.root ∧ step s = .next t :=
  ⟨State.reset, _, ⟨rfl, rfl⟩, rfl⟩

/-- The hypotheses of `Obligations.FuseValues`, clause by clause, are met. -/
theorem witness_FuseValues :
    (∃ (r : Root), r.fuses.arb = 0#64) ∧
    (∃ (r : Root), ∃ n, r.fuses.arb.getLsbD n = true ∧ (∀ k, n < k → r.fuses.arb.getLsbD k = false)) :=
  ⟨⟨Root.reset, by decide +kernel⟩,
   ⟨{ Root.reset with fuses := { Fuses.reset with arb := BitVec.twoPow 64 63 } }, 63, by decide, fun k h => BitVec.getLsbD_of_ge _ _ (by omega)⟩⟩

/-- The hypotheses of `Obligations.KekSeedUnseen`, clause by clause, are met. -/
theorem witness_KekSeedUnseen :
    ∃ (i : Instr) (s : State) (t : State), i.usesKek = false ∧ exec i s = .next t :=
  ⟨.psPgRise, State.reset, _, rfl, rfl⟩

/-- The hypotheses of `Obligations.BootAcceptsSigned`, clause by clause, are met. -/
theorem witness_BootAcceptsSigned :
    ∃ (s : State), s.chip.boot.step = 5 :=
  ⟨{ State.reset with chip := { live with boot := { Boot.reset with step := 5 } } }, rfl⟩

/-- The hypotheses of `Obligations.AccessOrder`, clause by clause, are met. -/
theorem witness_AccessOrder :
    (∃ (s : State) (m : Master) (off : Nat), m ≠ .tenant ∧ s.chip.masterOk m = true ∧ off < 0x40000000 ∧ off % 4 = 0 ∧ namedBar4 off = none) ∧
    (∃ (s : State) (m : Master) (off : Nat), ∃ d a, m ≠ .tenant ∧ s.chip.masterOk m = true ∧ off < 0x40000000 ∧ off % 4 = 0 ∧ namedBar4 off
    = some (d, a) ∧ a.blk < 20 ∧ s.chip.dies ≤ d) ∧
    (∃ (s : State) (m : Master) (off : Nat), ∃ d a, m ≠ .tenant ∧ s.chip.masterOk m = true ∧ off < 0x40000000 ∧ off % 4 = 0 ∧ namedBar4 off
    = some (d, a) ∧ s.chip.path m d a.blk = .unreachable) ∧
    (∃ (s : State) (m : Master) (off : Nat), ∃ d a, m ≠ .tenant ∧ s.chip.masterOk m = true ∧ off < 0x40000000 ∧ off % 4 = 0 ∧ namedBar4 off
    = some (d, a) ∧ s.chip.path m d a.blk = .gated) ∧
    (∃ (s : State) (m : Master) (off : Nat), ∃ d a, m ≠ .tenant ∧ s.chip.masterOk m = true ∧ off < 0x40000000 ∧ off % 4 = 0 ∧ namedBar4 off
    = some (d, a) ∧ s.chip.path m d a.blk = .clear ∧ off ≠ 0x20100020) :=
  ⟨⟨on live, .tether, 0x1400000, by decide +kernel⟩,
   ⟨on live, .tether, 0x8000000, 2, ⟨0, 0⟩, by decide +kernel⟩,
   ⟨on { live with culDown := List.range 64 }, .tether, 0x4000000, 1, ⟨0, 0⟩, by decide +kernel⟩,
   ⟨on (live.wr 0 R.clkGate 0), .tether, 0, 0, ⟨0, 0⟩, by decide +kernel⟩,
   ⟨on live, .steward, 0x20000000, 0, ⟨32, 0⟩, by decide +kernel⟩⟩

/-- The hypotheses of `Obligations.AbsentDieReadsZero`, clause by clause, are met. -/
theorem witness_AbsentDieReadsZero :
    ∃ (s : State) (m : Master) (off : Nat), m ≠ .tenant ∧ s.chip.masterOk m = true ∧ off % 4 = 0 ∧ off < 0x20000000 ∧ s.chip.dies *
    0x04000000 ≤ off :=
  ⟨on live, .tether, 0x8000000, by decide +kernel⟩

/-- The hypotheses of `Obligations.WideAndBadAccess`, clause by clause, are met. -/
theorem witness_WideAndBadAccess :
    (∃ (s : State) (m : Master) (off : Nat), m ≠ .tenant ∧ s.chip.masterOk m = true ∧ off < 0x40000000 ∧ off % 8 = 0) ∧
    (∃ (s : State) (m : Master) (off : Nat) (size : Nat), m ≠ .tenant ∧ s.chip.masterOk m = true ∧ off < 0x40000000 ∧ (size ≠ 4 ∨ off % 4 ≠
    0) ∧ (size ≠ 8 ∨ off % 8 ≠ 0)) :=
  ⟨⟨on live, .tether, 0, by decide +kernel⟩,
   ⟨on live, .tether, 0x3FFFFFFF, 8, by decide +kernel⟩⟩

/-- The hypotheses of `Obligations.WriteKinds`, clause by clause, are met. -/
theorem witness_WriteKinds :
    (∃ (r : RegDef) (m : Master) (reach : Bool) (i : Nat), i < 32 ∧ reach =
    (match m with | .tether => true | .steward => !(BitVec.ofNat 32 r.sec).getLsbD i | .tenant => false) ∧ reach = true ∧ (BitVec.ofNat 32
    r.rw).getLsbD i = true ∧ (BitVec.ofNat 32 r.w1c).getLsbD i = false ∧ (BitVec.ofNat 32 r.w1s).getLsbD i = false) ∧
    (∃ (r : RegDef) (m : Master) (reach : Bool) (i : Nat), i < 32 ∧ reach =
    (match m with | .tether => true | .steward => !(BitVec.ofNat 32 r.sec).getLsbD i | .tenant => false) ∧ (BitVec.ofNat 32 r.rw).getLsbD i
    = false ∧ (BitVec.ofNat 32 r.rwd).getLsbD i = false ∧ (BitVec.ofNat 32 r.w1c).getLsbD i = false ∧ (BitVec.ofNat 32 r.w1s).getLsbD i =
    false) ∧
    (∃ (r : RegDef) (m : Master) (reach : Bool) (i : Nat), i < 32 ∧ reach =
    (match m with | .tether => true | .steward => !(BitVec.ofNat 32 r.sec).getLsbD i | .tenant => false) ∧ reach = true ∧ (BitVec.ofNat 32
    r.rwd).getLsbD i = true ∧ (BitVec.ofNat 32 r.rw).getLsbD i = false ∧ (BitVec.ofNat 32 r.w1c).getLsbD i = false ∧ (BitVec.ofNat 32
    r.w1s).getLsbD i = false) ∧
    (∃ (r : RegDef) (m : Master) (reach : Bool) (i : Nat), i < 32 ∧ reach =
    (match m with | .tether => true | .steward => !(BitVec.ofNat 32 r.sec).getLsbD i | .tenant => false) ∧ reach = true ∧ (BitVec.ofNat 32
    r.w1c).getLsbD i = true ∧ (BitVec.ofNat 32 r.rw).getLsbD i = false ∧ (BitVec.ofNat 32 r.rwd).getLsbD i = false ∧ (BitVec.ofNat 32
    r.w1s).getLsbD i = false) ∧
    (∃ (r : RegDef) (m : Master) (reach : Bool) (i : Nat), i < 32 ∧ reach =
    (match m with | .tether => true | .steward => !(BitVec.ofNat 32 r.sec).getLsbD i | .tenant => false) ∧ reach = true ∧ (BitVec.ofNat 32
    r.w1s).getLsbD i = true ∧ (BitVec.ofNat 32 r.rw).getLsbD i = false ∧ (BitVec.ofNat 32 r.rwd).getLsbD i = false ∧ (BitVec.ofNat 32
    r.w1c).getLsbD i = false) :=
  ⟨⟨word 0x80000000 0 0 0 0, .steward, true, 31, by decide +kernel⟩,
   ⟨word 0 0 0 0 0, .tenant, false, 31, by decide +kernel⟩,
   ⟨word 0 1 0 0 0, .tether, true, 0, by decide +kernel⟩,
   ⟨word 0 0 0x80000000 0 0, .tether, true, 31, by decide +kernel⟩,
   ⟨word 0 0 0 1 0, .steward, true, 0, by decide +kernel⟩⟩

/-- The hypotheses of `Obligations.ReadsOfRegisters`, clause by clause, are met. -/
theorem witness_ReadsOfRegisters :
    (∃ (m : Master) (a : RegAddr) (r : RegDef), ∃ i, findReg a.blk a.off = some r ∧ i < 32 ∧ m = .steward ∧ (BitVec.ofNat 32 r.sec).getLsbD
    i = true) ∧
    (∃ (m : Master) (a : RegAddr) (r : RegDef), findReg a.blk a.off = some r ∧ m = .tenant) ∧
    (∃ (a : RegAddr) (r : RegDef), findReg a.blk a.off = some r ∧ r.rc = 0) ∧
    (∃ (s : State) (m : Master) (d : Nat) (a : RegAddr) (r : RegDef), findReg a.blk a.off = some r ∧ m ≠ .tenant ∧ r.rc = 0xFFFFFFFF ∧ r.sec
    = 0 ∧ s.regView d a = s.chip.rd d a) :=
  ⟨⟨.steward, R.pkgSteward, reg R.pkgSteward, 5, by decide +kernel⟩,
   ⟨.tenant, R.pkgSteward, reg R.pkgSteward, by decide +kernel⟩,
   ⟨R.pkgSteward, reg R.pkgSteward, by decide +kernel⟩,
   ⟨on live, .steward, 1, ⟨0, 0x1000⟩, reg ⟨0, 0x1000⟩, by decide +kernel⟩⟩

/-- The hypotheses of `Obligations.WriteWhileEnabled`, clause by clause, are met. -/
theorem witness_WriteWhileEnabled :
    ∃ (c : Chip) (m : Master) (d : Nat) (a : RegAddr) (r : RegDef) (v : Reg32), findReg a.blk a.off = some r ∧ a.blk < 20 ∧ a.off ≠ 0 ∧
    a.off < 0x100000 ∧ r.sec = 0 ∧ d < c.dies ∧ c.dies ≤ 8 ∧ m ≠ .tenant ∧ ((BitVec.ofNat 32 r.rwd &&& c.rdw d a) = (BitVec.ofNat 32 r.rwd
    &&& v) ∨ c.rwdOpen d a = true) :=
  ⟨live, .steward, 0, R.bufClassFracLo, reg R.bufClassFracLo, 0, by decide +kernel⟩

/-- The hypotheses of `Obligations.SelectionFrame`, clause by clause, are met. -/
theorem witness_SelectionFrame :
    (∃ (s t : State) (m : Master) (d : Nat) (v : Reg32) (e : ScrubOutcome) (i : Instr) (x n : Nat), i ∈ [.clsCntSel m d v e, .bufOccSel m d
    v, .bufDropSel m d v, .schShpSel m d v, .weiCntSel m d v, .macCntSel m d v, .cipSlotSel m d v, .dreCtxSel m d v, .fltClassSel m d v] ∧
    (∃ b, i.selects = some b ∧ s.reaches m d b) ∧ exec i s = .next t ∧ x ∉ i.snapshots ∧ i.selected ≠ some (.pair, n) ∧ (∀ k ∈
    [CtrKind.pair, .hit, .drop, .policer, .mac, .key, .cls], ¬ (v.getLsbD 30 = true ∧ i.selected = some (k, n))) ∧ e = .clean) ∧
    (∃ (s t : State) (m : Master) (d : Nat) (v : Reg32) (e : ScrubOutcome) (i : Instr) (x n : Nat), i ∈ [.clsCntSel m d v e, .bufOccSel m d
    v, .bufDropSel m d v, .schShpSel m d v, .weiCntSel m d v, .macCntSel m d v, .cipSlotSel m d v, .dreCtxSel m d v, .fltClassSel m d v] ∧
    (∃ b, i.selects = some b ∧ s.reaches m d b) ∧ exec i s = .next t ∧ x ∉ i.snapshots ∧ i.selected ≠ some (.pair, n) ∧ (∀ k ∈
    [CtrKind.pair, .hit, .drop, .policer, .mac, .key, .cls], ¬ (v.getLsbD 30 = true ∧ i.selected = some (k, n))) ∧ e ≠ .clean ∧ x ≠ bar4 0
    R.fltLogOvf ∧ n ∉ [clsKey d 3, clsKey d 4, clsKey 0 0x66]) :=
  ⟨⟨on live, _, .tether, 0, 0x40000000, .clean, .macCntSel .tether 0 0x40000000, 0, 1, by decide, ⟨8, by decide +kernel⟩, rfl, by decide +kernel, by decide, by decide, rfl⟩,
   ⟨on live, _, .tether, 1, 0x400FFFFF, .uncorrectable, .clsCntSel .tether 1 0x400FFFFF .uncorrectable, 0, 1, by decide, ⟨2, by decide +kernel⟩, rfl, by decide +kernel, by decide, by decide, by decide, by decide +kernel, by decide +kernel⟩⟩

/-- The hypotheses of `Obligations.MacControlConsumed`, clause by clause, are met. -/
theorem witness_MacControlConsumed :
    (∃ (s : State) (lane : Nat) (b : Bytes), ∃ r l, etherType b = 0x8808 ∧ s.chip.rxOf lane = r :: l ∧ r.pkt = none) ∧
    (∃ (s : State) (lane : Nat) (b : Bytes), etherType b = 0x8808 ∧ s.chip.portUp lane = true ∧ (beAt b 14 2 = 0x0001 ∨ beAt b 14 2 =
    0x0101)) ∧
    (∃ (s : State) (lane : Nat) (b : Bytes), etherType b = 0x8808 ∧ s.chip.portUp lane = true ∧ beAt b 14 2 ≠ 0x0001 ∧ beAt b 14 2 ≠ 0x0101) :=
  ⟨⟨on (receiving 60 none), 0, eth 0x8808 [], ⟨none, List.replicate 60 0#8, false, false, []⟩, [], by decide +kernel⟩,
   ⟨on live, 0, eth 0x8808 (toBE 2 1), by decide +kernel⟩,
   ⟨on live, 0, eth 0x8808 (toBE 2 0x0102), by decide +kernel⟩⟩

/-- The hypotheses of `Obligations.FaultyFrames`, clause by clause, are met. -/
theorem witness_FaultyFrames :
    (∃ (s : State) (lane : Nat) (fcs : Bool) (reasm : Bool) (unc : Nat) (k : Nat) (reason : Nat) (r : Rx) (l : List Rx), s.chip.alive = true
    ∧ r.ended = false ∧ (reasm = true → s.chip.rxOf lane = l ++ [r]) ∧ (reasm = false → s.chip.rxOf lane = r :: l) ∧ ((reasm = true ∧ k = 6
    ∧ reason = Dr.rxAborted) ∨ (reasm = false ∧ r.bytes.length + 4 < 64 ∧ k = 2 ∧ reason = Dr.runt) ∨ (reasm = false ∧ 64 ≤ r.bytes.length +
    4 ∧ s.chip.maxFrame lane < r.bytes.length + 4 ∧ k = 3 ∧ reason = Dr.oversize) ∨ (reasm = false ∧ 64 ≤ r.bytes.length + 4 ∧
    r.bytes.length + 4 ≤ s.chip.maxFrame lane ∧ (fcs = false ∨ unc ≠ 0) ∧ k = 4 ∧ reason = Dr.fcsError)) ∧ r.pkt.bind s.chip.pkt = none) ∧
    (∃ (s : State) (lane : Nat) (fcs : Bool) (reasm : Bool) (unc : Nat) (k : Nat) (reason : Nat) (r : Rx) (l : List Rx) (p : Pkt),
    s.chip.alive = true ∧ r.ended = false ∧ (reasm = true → s.chip.rxOf lane = l ++ [r]) ∧ (reasm = false → s.chip.rxOf lane = r :: l) ∧
    ((reasm = true ∧ k = 6 ∧ reason = Dr.rxAborted) ∨ (reasm = false ∧ r.bytes.length + 4 < 64 ∧ k = 2 ∧ reason = Dr.runt) ∨ (reasm = false
    ∧ 64 ≤ r.bytes.length + 4 ∧ s.chip.maxFrame lane < r.bytes.length + 4 ∧ k = 3 ∧ reason = Dr.oversize) ∨ (reasm = false ∧ 64 ≤
    r.bytes.length + 4 ∧ r.bytes.length + 4 ≤ s.chip.maxFrame lane ∧ (fcs = false ∨ unc ≠ 0) ∧ k = 4 ∧ reason = Dr.fcsError)) ∧ r.pkt.bind
    s.chip.pkt = some p ∧ s.chip.begun p = false) ∧
    (∃ (s : State) (lane : Nat) (fcs : Bool) (reasm : Bool) (unc : Nat) (k : Nat) (reason : Nat) (r : Rx) (l : List Rx) (p : Pkt),
    s.chip.alive = true ∧ r.ended = false ∧ (reasm = true → s.chip.rxOf lane = l ++ [r]) ∧ (reasm = false → s.chip.rxOf lane = r :: l) ∧
    ((reasm = true ∧ k = 6 ∧ reason = Dr.rxAborted) ∨ (reasm = false ∧ r.bytes.length + 4 < 64 ∧ k = 2 ∧ reason = Dr.runt) ∨ (reasm = false
    ∧ 64 ≤ r.bytes.length + 4 ∧ s.chip.maxFrame lane < r.bytes.length + 4 ∧ k = 3 ∧ reason = Dr.oversize) ∨ (reasm = false ∧ 64 ≤
    r.bytes.length + 4 ∧ r.bytes.length + 4 ≤ s.chip.maxFrame lane ∧ (fcs = false ∨ unc ≠ 0) ∧ k = 4 ∧ reason = Dr.fcsError)) ∧ r.pkt.bind
    s.chip.pkt = some p ∧ s.chip.begun p = true) ∧
    (∃ (r : Rx) (s : State), s.chip.rxOf 0 = [r] ∧ r.pkt.bind s.chip.pkt = none ∧ r.ctl = true ∧ s.chip.gateOpen 0 5 = true) :=
  ⟨⟨on (receiving 60 none), 0, false, false, 0, 4, Dr.fcsError, ⟨none, List.replicate 60 0#8, false, false, []⟩, [], by decide +kernel⟩,
   ⟨on ((receiving 59 (some 1)).setDp fun d => { d with pkts := [frame .arrived] }), 0, false, false, 0, 2, Dr.runt, ⟨some 1, List.replicate 59 0#8, false, false, []⟩, [], frame .arrived, by decide +kernel⟩,
   ⟨on ((receiving 59 (some 1)).setDp fun d => { d with pkts := [frame .sending] }), 0, false, true, 0, 6, Dr.rxAborted, ⟨some 1, List.replicate 59 0#8, false, false, []⟩, [], frame .sending, by decide +kernel⟩,
   ⟨⟨none, [], true, false, []⟩, on (live.setRx 0 [⟨none, [], true, false, []⟩]), by decide +kernel⟩⟩

/-- The hypotheses of `Obligations.AdmissionBounds`, clause by clause, are met. -/
theorem witness_AdmissionBounds :
    (∃ (c : Chip) (d : Nat) (dest : Nat) (tc : Nat) (n : Nat) (inst : Bool), (c.takeIn d inst dest tc n = .onDie ∨ c.takeIn d inst dest tc n
    = .spilled) ∧ inst = true) ∧
    (∃ (c : Chip) (d : Nat) (dest : Nat) (tc : Nat) (n : Nat) (inst : Bool), c.takeIn d inst dest tc n = .onDie) ∧
    (∃ (c : Chip) (d : Nat) (dest : Nat) (tc : Nat) (n : Nat) (inst : Bool), c.takeIn d inst dest tc n = .spilled) :=
  ⟨⟨{ tenant with qs := { Sched.reset with qos := [(0, { Qos.none with share := 9, onDie := 9 })] } }, 0, 0, 0, 1, true, by decide +kernel⟩,
   ⟨live, 0, 0, 0, 1, false, by decide +kernel⟩,
   ⟨(live.wr 0 R.bufCtrl 5).wr 0 (R.bufPortOndie 0) 0, 0, 0, 0, 1, false, by decide +kernel⟩⟩

/-- The hypotheses of `Obligations.DropCountedOnce`, clause by clause, are met. -/
theorem witness_DropCountedOnce :
    (∃ (p : Pkt) (reason : Nat), ∃ d k, p.selected = false ∧ p.send = none ∧ p.die < 8 ∧ p.src < 4096 ∧ (p.dst < 4096 ∨ p.dst = 0xFFFF) ∧
    reason < 256 ∧ k < 256 ∧ d < 8 ∧ (d ≠ p.die ∨ k ≠ reason)) ∧
    (∃ (c : Chip) (p : Pkt) (reason : Nat), p.selected = false ∧ p.send = none ∧ p.die < 8 ∧ p.src < 4096 ∧ (p.dst < 4096 ∨ p.dst = 0xFFFF)
    ∧ reason < 256 ∧ c.gateOpen p.die 5 = true ∧ p.gen = false) ∧
    (∃ (c : Chip) (p : Pkt) (reason : Nat), p.selected = false ∧ p.send = none ∧ p.die < 8 ∧ p.src < 4096 ∧ (p.dst < 4096 ∨ p.dst = 0xFFFF)
    ∧ reason < 256 ∧ c.gateOpen p.die 5 = false) ∧
    (∃ (c : Chip) (p : Pkt) (reason : Nat), p.selected = false ∧ p.send = none ∧ p.die < 8 ∧ p.src < 4096 ∧ (p.dst < 4096 ∨ p.dst = 0xFFFF)
    ∧ reason < 256 ∧ (p.gen = true ∨ c.gateOpen p.die 5 = false)) ∧
    (∃ (p : Pkt) (atQueue : Bool), p.selected = false ∧ p.send = none ∧ p.gen = false ∧ atQueue = true ∧ p.dstInst = true ∧ p.dst ≠ 0xFFFF) :=
  ⟨⟨{ frame .queued with gen := true }, 255, 7, 0, by decide +kernel⟩,
   ⟨live, frame .queued, 255, by decide +kernel⟩,
   ⟨live.wr 0 R.clkGate 0, frame .queued, 0, by decide +kernel⟩,
   ⟨live, { frame .queued with gen := true }, 255, by decide +kernel⟩,
   ⟨{ frame .queued with dstInst := true, dst := 4095 }, true, by decide +kernel⟩⟩

/-- The hypotheses of `Obligations.DoorbellRules`, clause by clause, are met. -/
theorem witness_DoorbellRules :
    (∃ (s : State) (f : Nat) (v : Reg32), f ≠ stewardFn ∧ s.chip.bellOk f = true ∧ (s.chip.chan f).dsHalt = 0 ∧ (s.chip.chan f).cqHalt = 0 ∧
    2 ^ (s.chip.chan f).cqK < diff32 (s.chip.chan f).cqP v.toNat) ∧
    (∃ (s : State) (f : Nat), f ≠ stewardFn ∧ s.chip.bellRefused f = none ∧ (s.chip.inst f).st = .resetting) ∧
    (∃ (s : State) (f : Nat), ∃ k, f ≠ stewardFn ∧ s.chip.bellRefused f = some k) ∧
    (∃ (s : State) (f : Nat), f ≠ stewardFn ∧ s.chip.bellRefused f = none ∧ (s.chip.chan f).dsHalt = 0) ∧
    (∃ (s : State) (f : Nat), f ≠ stewardFn ∧ s.chip.bellRefused f = none ∧ (s.chip.chan f).cqHalt = 0) ∧
    (∃ (s : State) (v : Reg32), s.chip.bellOk 0 = true ∧ (s.chip.chan 0).dsHalt = 0 ∧ (s.chip.chan 0).cqHalt = 0 ∧ 2 ^ (s.chip.chan 0).dsK <
    diff32 v.toNat (s.chip.chan 0).dsC) :=
  ⟨⟨on tenant, 0, 0xFFFFFFBF, by decide +kernel⟩,
   ⟨on (tenant.setInst 0 { inst0 with st := .resetting, cause := .entry }), 0, by decide +kernel⟩,
   ⟨on { tenant with fns := (64, { PciFn.reset with d3 := true }) :: tenant.fns.filter fun e => e.1 ≠ 64 }, 0, 64, by decide +kernel⟩,
   ⟨on tenant, 0, by decide +kernel⟩,
   ⟨on tenant, 0, by decide +kernel⟩,
   ⟨on tenant, 65, by decide +kernel⟩⟩

/-- The hypotheses of `Obligations.EpochStallReported`, clause by clause, are met. -/
theorem witness_EpochStallReported :
    ∃ (s : State) (sl : Nat) (ms : Nat), sl < 4 ∧ s.chip.rl.slots.length = 4 ∧ s.chip.alive = true ∧ (s.chip.slot sl).st = .draining ∧
    (s.chip.slot sl).stalled = false ∧ s.chip.fld 0 R.epcStallLimit 0 16 ≠ 0 ∧ s.chip.fld 0 R.epcStallLimit 0 16 < ms :=
  ⟨on ((live.setSlot 3 ⟨1, .draining, false⟩).wr 0 R.epcStallLimit 10), 3, 11, by decide +kernel⟩

/-- The hypotheses of `Obligations.EventRecorded`, clause by clause, are met. -/
theorem witness_EventRecorded :
    (∃ (c : Chip) (cls : Nat) (die : Nat), cls < 256 ∧ cls ≠ 0x66 ∧ (c.cls die cls).first = none) ∧
    (∃ (c : Chip) (cls : Nat) (die : Nat), ∃ x, cls < 256 ∧ cls ≠ 0x66 ∧ (c.cls die cls).first = some x) ∧
    (∃ (c : Chip) (cls : Nat) (die : Nat), cls < 256 ∧ cls ≠ 0x66 ∧ c.masked die cls = true) ∧
    (∃ (cls : Nat) (die : Nat), ∃ d k, cls < 256 ∧ cls ≠ 0x66 ∧ k < 256 ∧ ¬ (d = die ∧ k = cls) ∧ ¬ (d = 0 ∧ k = 0x66)) ∧
    (∃ (c : Chip) (cls die : Nat), cls < 256 ∧ cls ≠ 0x66 ∧ (¬ (c.masked die cls = false ∧ c.logRoom die = false) ∨ c.faults.ovfArmed =
    false)) ∧
    (∃ (c : Chip) (cls die : Nat), cls < 256 ∧ cls ≠ 0x66 ∧ c.masked die cls = false ∧ c.logRoom die = false ∧ c.faults.ovfArmed = true) ∧
    (∃ (cls x : Nat), cls < 256 ∧ cls ≠ 0x66 ∧ x ≠ bar4 0 R.fltLogOvf) ∧
    (∃ (c : Chip) (cls die : Nat), cls < 256 ∧ cls ≠ 0x66 ∧ c.masked die cls = false ∧ c.logRoom die = false ∧ c.faults.ovfArmed = false) :=
  ⟨⟨live, 255, 0, by decide +kernel⟩,
   ⟨{ live with faults := { Faults.none with classes := [(1, ⟨1, some ⟨1, 0, 0, false, false, 1, 0, 0, 0, 0, 0, 0⟩, none, false⟩)] } }, 1, 0, ⟨1, 0, 0, false, false, 1, 0, 0, 0, 0, 0, 0⟩, by decide +kernel⟩,
   ⟨live.wr 0 (R.fltMask 7) 0x80000000, 255, 0, by decide +kernel⟩,
   ⟨1, 0, 1, 255, by decide +kernel⟩,
   ⟨{ live with faults := { Faults.none with ring := some ⟨0, 6, 0⟩ } }, 255, 0, by decide +kernel⟩,
   ⟨{ live with faults := { Faults.none with ovfArmed := true } }, 255, 0, by decide +kernel⟩,
   ⟨255, 0, by decide +kernel⟩,
   ⟨{ live with faults := { Faults.none with ovfArmed := false } }, 0, 1, by decide +kernel⟩⟩

/-- The hypotheses of `Obligations.PinsAndLanes`, clause by clause, are met. -/
theorem witness_PinsAndLanes :
    (∃ (s : State) (m : Master) (d : Nat) (v : Reg32), s.reaches m d 19 ∧ v.getLsbD 2 = true ∧ s.chip.faults.held = []) ∧
    (∃ (s : State) (m : Master) (d : Nat), s.reaches m d 19 ∧ s.chip.faults.held ≠ []) ∧
    (∃ (s : State) (m : Master) (d : Nat) (v : Reg32), s.reaches m d 19 ∧ v.getLsbD 2 = false) ∧
    (∃ (s : State) (m : Master) (d : Nat), s.reaches m d 19 ∧ s.chip.pwr.aux = true ∧ s.chip.pwr.inReset = false) ∧
    (∃ (c : Chip), c.pwr.aux = false) ∧
    (∃ (c : Chip), c.pwr.aux = true ∧ c.pwr.inReset = true) ∧
    (∃ (c : Chip) (port : Nat), c.pwr.aux = true ∧ c.pwr.mainDown = true ∧ c.pwr.inReset = false ∧ c.hasDie (port / 4) = true) ∧
    (∃ (c : Chip) (lane : Nat), c.pwr.aux = true ∧ c.hasDie (lane / 64) = true ∧ c.pwr.psPg = true ∧ c.pwr.mainDown = false ∧ c.booted =
    false) ∧
    (∃ (c : Chip) (lane : Nat), c.pwr.aux = true ∧ c.hasDie (lane / 64) = true ∧ c.pwr.psPg = true ∧ c.pwr.mainDown = false ∧ c.clk.stage =
    .tripped) ∧
    (∃ (c : Chip) (lane : Nat), c.alive = true ∧ c.booted = true ∧ c.hasDie (lane / 64) = true ∧ c.pwr.psPg = true ∧ c.pwr.mainDown = false
    ∧ c.en (lane / 64) 8 = true ∧ c.bit (lane / 64) R.clkGate 8 = true) :=
  ⟨⟨on live, .tether, 0, 4, by decide +kernel⟩,
   ⟨on { live with faults := { Faults.none with held := [.trip] } }, .steward, 0, by decide +kernel⟩,
   ⟨on live, .steward, 0, 3, by decide +kernel⟩,
   ⟨on live, .tether, 0, by decide +kernel⟩,
   ⟨{ live with pwr := { Power.powerOn with aux := false } }, by decide +kernel⟩,
   ⟨{ live with pwr := Power.powerOn }, by decide +kernel⟩,
   ⟨{ live with pwr := { live.pwr with psPg := false, mainDown := true } }, 7, by decide +kernel⟩,
   ⟨{ live with boot := Boot.reset }, 127, by decide +kernel⟩,
   ⟨{ live with clk := { live.clk with stage := .tripped } }, 63, by decide +kernel⟩,
   ⟨live, 63, by decide +kernel⟩⟩

/-- The hypotheses of `Obligations.RefusedGatesAndResets`, clause by clause, are met. -/
theorem witness_RefusedGatesAndResets :
    (∃ (s : State) (m : Master) (d : Nat) (b : Nat) (v : Reg32), b < 17 ∧ s.reaches m d 17 ∧ v.getLsbD b = false ∧ (b = 3 ∨
    s.chip.blockDisabled d b = false) ∧ s.chip.bit d R.clkGate b = true) ∧
    (∃ (s : State) (m : Master) (d : Nat) (b : Nat) (v : Reg32), b < 17 ∧ s.reaches m d 18 ∧ b ≠ 3 ∧ v.getLsbD b = true ∧
    (s.chip.blockDisabled d b = false ∨ s.chip.gateOpen d b = false)) :=
  ⟨⟨on live, .tether, 0, 16, 0, by decide +kernel⟩,
   ⟨on live, .tether, 0, 16, 0x10000, by decide +kernel⟩⟩

/-- The hypotheses of `Obligations.LearnNoticeOrder`, clause by clause, are met. -/
theorem witness_LearnNoticeOrder :
    (∃ (s : State) (d : Nat) (k : Nat) (n : Notice) (c' : Chip) (e : MacE), s.chip.alive = true ∧ s.chip.hasDie d = true ∧ s.chip.takeNotice
    .learn d = some (n, c') ∧ (c'.count d (R.tblEvtCnt 8)).learned d n.key = some (k, e) ∧ (toSigned 32 (diff32 n.time e.time) < 0 ∨
    (toSigned 32 (diff32 n.time e.time) = 0 ∧ n.src ≤ locDie e.locInst e.loc))) ∧
    (∃ (s : State) (d : Nat) (k : Nat) (n : Notice) (c' : Chip) (e : MacE), s.chip.alive = true ∧ s.chip.hasDie d = true ∧ s.chip.takeNotice
    .learn d = some (n, c') ∧ (c'.count d (R.tblEvtCnt 8)).learned d n.key = some (k, e) ∧ (0 < toSigned 32 (diff32 n.time e.time) ∨
    (toSigned 32 (diff32 n.time e.time) = 0 ∧ locDie e.locInst e.loc < n.src))) :=
  ⟨⟨on (noticed .learn 5 6), 0, ((((((noticed .learn 5 6).takeNotice .learn 0).get (by decide +kernel)).2.count 0 (R.tblEvtCnt 8)).learned 0 5).get (by decide +kernel)).1, (((noticed .learn 5 6).takeNotice .learn 0).get (by decide +kernel)).1, (((noticed .learn 5 6).takeNotice .learn 0).get (by decide +kernel)).2, ((((((noticed .learn 5 6).takeNotice .learn 0).get (by decide +kernel)).2.count 0 (R.tblEvtCnt 8)).learned 0 5).get (by decide +kernel)).2, by decide +kernel⟩,
   ⟨on (noticed .learn 5 8), 0, ((((((noticed .learn 5 8).takeNotice .learn 0).get (by decide +kernel)).2.count 0 (R.tblEvtCnt 8)).learned 0 5).get (by decide +kernel)).1, (((noticed .learn 5 8).takeNotice .learn 0).get (by decide +kernel)).1, (((noticed .learn 5 8).takeNotice .learn 0).get (by decide +kernel)).2, ((((((noticed .learn 5 8).takeNotice .learn 0).get (by decide +kernel)).2.count 0 (R.tblEvtCnt 8)).learned 0 5).get (by decide +kernel)).2, by decide +kernel⟩⟩

/-- The hypotheses of `Obligations.EngineStateFrame`, clause by clause, are met. -/
theorem witness_EngineStateFrame :
    (∃ (s : State) (d : Nat) (e : Nat) (x : Nat) (k : Ctx) (o : PortOp), s.chip.waitsOp d e x .hb 2 k o ∧ k.linesDone .hb = true ∧
    o.data.length = 64) ∧
    (∃ (s : State) (d : Nat) (e : Nat) (x : Nat) (k : Ctx) (o : PortOp) (found : ScrubOutcome), s.chip.waitsOp d e x .hb 3 k o ∧ k.linesDone
    .hb = true ∧ found ≠ .uncorrectable) :=
  ⟨⟨on (engine (context false .ready [portOp .hb 2 64 0 (List.replicate 64 1#8)])), 0, 0, 0, context false .ready [portOp .hb 2 64 0 (List.replicate 64 1#8)], portOp .hb 2 64 0 (List.replicate 64 1#8), by decide +kernel⟩,
   ⟨on (engine (context false .ready [portOp .hb 3 8 0 (List.replicate 64 1#8)])), 0, 0, 0, context false .ready [portOp .hb 3 8 0 (List.replicate 64 1#8)], portOp .hb 3 8 0 (List.replicate 64 1#8), .clean, by decide +kernel⟩⟩

/-- The hypotheses of `Obligations.PacketWriteFrame`, clause by clause, are met. -/
theorem witness_PacketWriteFrame :
    ∃ (s : State) (d : Nat) (e : Nat) (x : Nat) (k : Ctx) (o : PortOp) (p : Pkt), s.chip.waitsOp d e x .pb 2 k o ∧ k.pkt.bind s.chip.pkt =
    some p :=
  ⟨on (engine (context false .ready [portOp .pb 2 1 0 [1#8]])), 0, 0, 0, context false .ready [portOp .pb 2 1 0 [1#8]], portOp .pb 2 1 0 [1#8], frame .context, by decide +kernel⟩

/-- The hypotheses of `Obligations.InstancesApart`, clause by clause, are met. -/
theorem witness_InstancesApart :
    (∃ (s : State) (f : Nat) (g : Nat), ∃ e i, g ≠ f ∧ f ≠ stewardFn ∧ s.chip.toRun stewardFn 0x54 e ∧ leAt e.bytes 8 2 = i ∧ i < 512 *
    s.chip.dies ∧ (s.chip.inst i).st = .active ∧ mapFails (s.chip.inst i).leaves (mapArgs e.bytes) false = none) ∧
    (∃ (s : State) (f : Nat) (g : Nat), ∃ e i new, g ≠ f ∧ f ≠ stewardFn ∧ s.chip.toRun stewardFn 0x53 e ∧ leAt e.bytes 8 2 = i ∧ i < 512 *
    s.chip.dies ∧ (s.chip.inst i).st = .active ∧ mapFails (s.chip.inst i).leaves (mapArgs e.bytes) true = none ∧ new = replaceRange
    (s.chip.inst i).leaves (rangeLeaves (mapArgs e.bytes).size (mapArgs e.bytes).first (mapArgs e.bytes).count (mapArgs e.bytes).bus (bitN
    (byteAt e.bytes 11) 0) (bitN (byteAt e.bytes 11) 1)) (mapArgs e.bytes).first (mapArgs e.bytes).stop ∧ tablePages new ≤ (s.chip.inst
    i).quota) :=
  ⟨⟨on (forStw tenant (todo (entry 1 0x54 [(8, 2, 0), (12, 4, 1)]))), 0, 1, todo (entry 1 0x54 [(8, 2, 0), (12, 4, 1)]), 0, by decide +kernel, by decide +kernel, by decide +kernel, by decide +kernel, by decide +kernel, by decide +kernel, by decide +kernel⟩,
   ⟨on (forStw tenant (todo (entry 1 0x53 [(8, 2, 0), (11, 1, 3), (12, 4, 1), (16, 8, 0x1000), (24, 8, 0x2000)]))), 0, 1, todo (entry 1 0x53 [(8, 2, 0), (11, 1, 3), (12, 4, 1), (16, 8, 0x1000), (24, 8, 0x2000)]), 0, _, by decide, by decide, by decide +kernel, by decide +kernel, by decide +kernel, by decide +kernel, by decide +kernel, rfl, by decide +kernel⟩⟩

/-- The hypotheses of `Obligations.PackageReset`, clause by clause, are met. -/
theorem witness_PackageReset :
    ∃ (s : State), s.chip.pwr.aux = true ∧ s.chip.pwr.inReset = false ∧ s.root.blow = none ∧ s.root.rcvOp = none :=
  ⟨on live, by decide +kernel⟩

/-- The hypotheses of `Obligations.ReceptionCompletes`, clause by clause, are met. -/
theorem witness_ReceptionCompletes :
    (∃ (s : State) (lane : Nat), ∃ b, s.chip.portUp lane = true ∧ s.chip.rxRoom lane = true ∧ etherType b = 0x8808) ∧
    (∃ (s : State) (lane : Nat), ∃ b, s.chip.portUp lane = true ∧ s.chip.rxRoom lane = true ∧ etherType b ≠ 0x8808 ∧ s.chip.consumed lane b
    = false ∧ s.chip.arrivalBlocks (lane / 64) = true ∧ bitN (s.chip.macsecReg lane) 1 = false ∧ s.chip.fits (lane / 64) .ingress (ceilDiv
    (b.length + 4) 256) = true) ∧
    (∃ (s : State) (lane : Nat), ∃ b, s.chip.portUp lane = true ∧ s.chip.rxRoom lane = true ∧ etherType b ≠ 0x8808 ∧ s.chip.consumed lane b
    = true ∧ bitN (s.chip.macsecReg lane) 1 = false) ∧
    (∃ (s : State) (lane : Nat), ∃ r l, s.chip.alive = true ∧ s.chip.rxOf lane = r :: l ∧ r.ended = false ∧ s.chip.maxFrame lane <
    r.bytes.length + 4) ∧
    (∃ (s : State) (lane : Nat), ∃ r l, s.chip.alive = true ∧ s.chip.rxOf lane = r :: l ∧ r.ended = false ∧ 64 ≤ r.bytes.length + 4 ∧
    r.bytes.length + 4 ≤ s.chip.maxFrame lane ∧ r.pkt = none ∧ r.copies = []) ∧
    (∃ (s : State) (lane : Nat), ∃ r, s.chip.alive = true ∧ s.chip.rxOf lane = [r] ∧ r.ended = false ∧ r.pkt = none) :=
  ⟨⟨on live, 0, eth 0x8808 [], by decide +kernel⟩,
   ⟨on live, 0, eth 0x0800 [], by decide +kernel⟩,
   ⟨on spanned, 0, hsp 1 0, by decide +kernel⟩,
   ⟨on (receiving 8997 none), 0, ⟨none, List.replicate 8997 0#8, false, false, []⟩, [], by decide +kernel⟩,
   ⟨on (receiving 60 none), 0, ⟨none, List.replicate 60 0#8, false, false, []⟩, [], by decide +kernel⟩,
   ⟨on (receiving 60 none), 0, ⟨none, List.replicate 60 0#8, false, false, []⟩, by decide +kernel⟩⟩

/-- The hypotheses of `Obligations.PortEventsComplete`, clause by clause, are met. -/
theorem witness_PortEventsComplete :
    (∃ (s : State) (lane : Nat), ∃ b, s.chip.portUp lane = true ∧ etherType b = 0x8808 ∧ beAt b 14 2 = 0x0001 ∧ s.chip.bit (lane / 64)
    (R.macPortFc (lane % 64)) 0 = true) ∧
    (∃ (s : State) (lane : Nat), ∃ b, s.chip.portUp lane = true ∧ etherType b = 0x8808 ∧ beAt b 14 2 = 0x0001 ∧ s.chip.bit (lane / 64)
    (R.macPortFc (lane % 64)) 0 = false) ∧
    (∃ (s : State) (lane : Nat) (q : Option Nat), s.chip.alive = true ∧ (∀ i ∈ s.chip.pausesOf lane (q.getD 8), i.from_ ≤ s.chip.now →
    s.chip.due i.until_ = true)) ∧
    (∃ (s : State) (lane : Nat), s.chip.portUp lane = true ∧ s.chip.dp.xoff.contains (lane * 16 + 8) = true ∧ s.chip.fld (lane / 64)
    (R.macPortFcthr (lane % 64)) 16 16 < s.chip.fcCells lane none) ∧
    (∃ (s : State) (lane : Nat), s.chip.portUp lane = true ∧ s.chip.bit (lane / 64) (R.macPortPmp (lane % 64)) 0 = true ∧ s.chip.fld (lane /
    64) (R.macPortPmp (lane % 64)) 10 2 = 1) ∧
    (∃ (s : State) (lane : Nat), s.chip.alive = true ∧ s.chip.fld (lane / 64) (R.macPortPmp (lane % 64)) 10 2 = 1) ∧
    (∃ (s : State) (lane : Nat), ∃ an, s.chip.booted = true ∧ s.chip.isPort lane = true ∧ s.chip.on (lane / 64) 8 = true ∧ s.chip.portUp
    lane = true ∧ (s.chip.negotiates lane = true → an = true)) :=
  ⟨⟨on (live.wr 0 (R.macPortFc 0) 1), 0, eth 0x8808 (toBE 2 1), by decide +kernel⟩,
   ⟨on (live.wr 0 (R.macPortFc 0) 0), 0, eth 0x8808 (toBE 2 1), by decide +kernel⟩,
   ⟨on live, 0, none, by decide +kernel⟩,
   ⟨on (((carrying [{ frame .arrived with holds := [⟨0, .ingress, 2⟩] }]).wr 0 (R.macPortFcthr 0) 0x10000).setDp fun d => { d with xoff := [8] }), 0, by decide +kernel⟩,
   ⟨on (live.wr 0 (R.macPortPmp 0) 0x401), 0, by decide +kernel⟩,
   ⟨on (live.wr 0 (R.macPortPmp 0) 0x400), 0, by decide +kernel⟩,
   ⟨on live, 0, true, by decide +kernel⟩⟩

/-- The hypotheses of `Obligations.FlowControlAndLinkComplete`, clause by clause, are met. -/
theorem witness_FlowControlAndLinkComplete :
    (∃ (s : State), s.chip.alive = true) ∧
    (∃ (s : State) (lane : Nat) (q : Option Nat), s.chip.portUp lane = true ∧ s.chip.dp.xoff.contains (lane * 16 + q.getD 8) = true ∧
    s.chip.fld (lane / 64) (R.macPortFcthr (lane % 64)) 16 16 < s.chip.fcCells lane q ∧ tget [] s.chip.dp.own lane = [] ∧ s.chip.txOf lane =
    [] ∧ s.chip.pausesOf lane 8 = [] ∧ s.chip.heldFor lane = []) ∧
    (∃ (s : State) (lane : Nat) (q : Option Nat), s.chip.portUp lane = true ∧ s.chip.dp.xoff.contains (lane * 16 + q.getD 8) = true ∧
    s.chip.fcCells lane q ≤ s.chip.fld (lane / 64) (R.macPortFcthr (lane % 64)) 16 16) ∧
    (∃ (s : State) (lane : Nat), s.chip.portUp lane = true ∧ s.chip.bit (lane / 64) (R.macPortPmp (lane % 64)) 0 = true) ∧
    (∃ (s : State), s.chip.booted = false) ∧
    (∃ (s : State) (lane : Nat), ∃ an, s.chip.booted = true ∧ s.chip.isPort lane = true ∧ s.chip.on (lane / 64) 8 = true ∧ s.chip.portUp
    lane = false ∧ (s.chip.negotiates lane = true → an = true)) ∧
    (∃ (s : State) (lane : Nat) (up : Bool), ∃ lf rf an, s.chip.booted = true ∧ s.chip.isPort lane = true ∧ s.chip.on (lane / 64) 8 = true ∧
    s.chip.portUp lane = true ∧ (up = false ∨ lf = true ∨ rf = true ∨ (s.chip.negotiates lane = true ∧ an = false))) :=
  ⟨⟨on live, by decide +kernel⟩,
   ⟨on (((carrying [{ frame .arrived with holds := [⟨0, .ingress, 2⟩] }]).wr 0 (R.macPortFcthr 0) 0x10000).setDp fun d => { d with xoff := [8] }), 0, none, by decide +kernel⟩,
   ⟨on (((carrying [{ frame .arrived with holds := [⟨0, .ingress, 2⟩] }]).wr 0 (R.macPortFcthr 0) 0x20000).setDp fun d => { d with xoff := [8] }), 0, none, by decide +kernel⟩,
   ⟨on (live.wr 0 (R.macPortPmp 0) 1), 0, by decide +kernel⟩,
   ⟨on { live with boot := Boot.reset }, by decide +kernel⟩,
   ⟨on (live.wr 0 (R.macPortStatus 0) 0), 0, true, by decide +kernel⟩,
   ⟨on live, 0, false, false, false, false, by decide +kernel⟩⟩

/-- The hypotheses of `Obligations.PacketStagesComplete`, clause by clause, are met. -/
theorem witness_PacketStagesComplete :
    (∃ (s : State) (id : Nat) (p : Pkt) (q : Chip), s.chip.alive = true ∧ s.chip.pkt id = some p ∧ p.stage = .arrived ∧ (p.len < 516 →
    p.whole = true) ∧ s.chip.slotFor p = some q ∧ q.arrivalBlocks p.die = true ∧ s.chip.first p (fun q => q.die == p.die && q.stage ==
    .arrived && q.srcInst == p.srcInst && q.src == p.src) = true) ∧
    (∃ (s : State) (id : Nat) (p : Pkt) (q : Chip), s.chip.alive = true ∧ s.chip.pkt id = some p ∧ p.stage = .arrived ∧ (p.len < 516 →
    p.whole = true) ∧ s.chip.slotFor p = some q ∧ q.arrivalBlocks p.die = false ∧ s.chip.first p (fun q => q.die == p.die && q.stage ==
    .arrived && q.srcInst == p.srcInst && q.src == p.src) = true) ∧
    (∃ (s : State) (id : Nat) (p : Pkt), s.chip.alive = true ∧ s.chip.pkt id = some p ∧ p.stage = .walked ∧ s.chip.first p (fun q => q.die
    == p.die && q.stage == .walked && q.srcInst == p.srcInst && q.src == p.src) = true) ∧
    (∃ (s : State) (id : Nat) (p : Pkt), s.chip.alive = true ∧ s.chip.pkt id = some p ∧ p.stage = .scan ∧ s.chip.first p (fun q => q.die ==
    p.die && q.stage == .scan) = true) ∧
    (∃ (s : State) (id : Nat) (p : Pkt), s.chip.alive = true ∧ s.chip.pkt id = some p ∧ p.stage = .reread ∧ s.chip.ownerBlocks p.die = true) ∧
    (∃ (s : State) (id : Nat) (p : Pkt), ∃ g, s.chip.alive = true ∧ s.chip.pkt id = some p ∧ p.stage = .lookup g ∧ s.chip.ownerBlocks p.die
    = true) ∧
    (∃ (s : State) (id : Nat) (p : Pkt), ∃ e, s.chip.alive = true ∧ s.chip.pkt id = some p ∧ p.stage = .crossDest e ∧ s.chip.culUp p.die
    (s.chip.culPort p p.die e) = true ∧ s.chip.en e 5 = true ∧ s.chip.culTurn p e = true) ∧
    (∃ (s : State) (id : Nat) (p : Pkt), ∃ e, s.chip.alive = true ∧ s.chip.pkt id = some p ∧ p.stage = .crossOwner e ∧ s.chip.culUp p.die
    (s.chip.culPort p p.die e) = true ∧ s.chip.en e 5 = true ∧ s.chip.culTurn p e = true) ∧
    (∃ (s : State) (id : Nat) (p : Pkt), ∃ e, s.chip.alive = true ∧ s.chip.pkt id = some p ∧ p.stage = .crossThrough e ∧ s.chip.culUp p.die
    (s.chip.culPort p p.die e) = true ∧ s.chip.en e 5 = true ∧ s.chip.culTurn p e = true) :=
  ⟨⟨on (carrying [frame .arrived]), 1, frame .arrived, (((carrying [frame .arrived]).slotFor (frame .arrived)).getD live), by decide +kernel⟩,
   ⟨on ((carrying [frame .arrived]).wr 0 R.bufCtrl 0), 1, frame .arrived, ((((carrying [frame .arrived]).wr 0 R.bufCtrl 0).slotFor (frame .arrived)).getD live), by decide +kernel⟩,
   ⟨on (carrying [frame .walked]), 1, frame .walked, by decide +kernel⟩,
   ⟨on (carrying [frame .scan]), 1, frame .scan, by decide +kernel⟩,
   ⟨on (carrying [frame .reread]), 1, frame .reread, by decide +kernel⟩,
   ⟨on (carrying [frame (.lookup 0)]), 1, frame (.lookup 0), 0, by decide +kernel⟩,
   ⟨on ((carrying [frame (.crossDest 1)]).wr 1 R.bufCtrl 1), 1, frame (.crossDest 1), 1, by decide +kernel⟩,
   ⟨on ((carrying [frame (.crossOwner 1)]).wr 1 R.bufCtrl 1), 1, frame (.crossOwner 1), 1, by decide +kernel⟩,
   ⟨on ((carrying [frame (.crossThrough 1)]).wr 1 R.bufCtrl 1), 1, frame (.crossThrough 1), 1, by decide +kernel⟩⟩

/-- The hypotheses of `Obligations.EgressCompletes`, clause by clause, are met. -/
theorem witness_EgressCompletes :
    (∃ (s : State), ∃ dest tc o, ∃ (p : Pkt), ∃ drr, s.chip.on (destDie false dest) 6 = true ∧ s.chip.isPort dest = true ∧ s.chip.nodeOpen
    false dest = true ∧ s.chip.pickClass false dest = some (tc, o, p, drr) ∧ s.chip.fits (destDie false dest) (.window false dest) p.cells =
    true) ∧
    (∃ (s : State), ∃ dest tc o, ∃ (p : Pkt), ∃ drr e, s.chip.on (destDie true dest) 6 = true ∧ s.chip.nodeOpen true dest = true ∧
    s.chip.pickClass true dest = some (tc, o, p, drr) ∧ s.chip.endpointPick dest = some e ∧ ((s.chip.doGrant true dest tc o p drr).pkt
    p.id).any (fun q => q.stage == .queued) = false) ∧
    (∃ (s : State), ∃ lane, ∃ (x : ScrubOutcome), ∃ (p : Pkt), ∃ (b : Bytes), ∃ (c₀ : Chip), ∃ (q : Pkt), ∃ (c₁ : Chip), s.chip.alive = true
    ∧ (s.chip.oldest fun p => p.stage == .window && !p.dstInst && p.dst == lane) = some p ∧ s.chip.cannotSend lane = none ∧ tget []
    s.chip.dp.own lane = [] ∧ s.chip.due (s.chip.unpaused lane p.tc (s.chip.lineFree lane s.chip.now)) = true ∧ s.chip.secure p lane x =
    (.ok b, c₀) ∧ { p with bytes := b }.len ≤ s.chip.maxFrame lane ∧ s.chip.fitsLine lane (s.chip.unpaused lane p.tc (s.chip.lineFree lane
    s.chip.now)) { p with bytes := b }.len = true ∧ s.chip.finishFrame p lane (s.chip.unpaused lane p.tc (s.chip.lineFree lane s.chip.now))
    x = (.ok q, c₁)) ∧
    (∃ (s : State), ∃ id, ∃ (p : Pkt), ∃ d r, s.chip.alive = true ∧ s.chip.pkt id = some p ∧ p.stage = .held d ∧ s.chip.due d = true ∧ (∀ q
    ∈ s.chip.heldFor p.dst, d ≤ q.1 ∧ (q.1 = d → p.src ≤ q.2.src)) ∧ s.chip.cannotSend p.dst = some r) ∧
    (∃ (s : State), ∃ id, ∃ (x : ScrubOutcome), ∃ (p : Pkt), ∃ d, ∃ (b : Bytes), ∃ (c₀ : Chip), ∃ start, ∃ (line : List Tx), ∃ (cut : Bool),
    ∃ (q : Pkt), ∃ (c₁ : Chip), s.chip.alive = true ∧ s.chip.pkt id = some p ∧ p.stage = .held d ∧ s.chip.due d = true ∧ (∀ q ∈
    s.chip.heldFor p.dst, d ≤ q.1 ∧ (q.1 = d → p.src ≤ q.2.src)) ∧ s.chip.cannotSend p.dst = none ∧ s.chip.secure p p.dst x = (.ok b, c₀) ∧
    s.chip.throughStart { p with bytes := b } p.dst (max d s.chip.now) = (start, line, cut) ∧ (s.chip.fld (p.dst / 64) (R.schFlumeMaxwait
    (p.dst % 64)) 0 16 = 0 ∨ start - d ≤ s.chip.fld (p.dst / 64) (R.schFlumeMaxwait (p.dst % 64)) 0 16 * 65536) ∧ (s.chip.due start = true ∨
    line ≠ s.chip.txOf p.dst) ∧ { p with bytes := b }.len ≤ s.chip.maxFrame p.dst ∧ s.chip.finishFrame
    { p with added := (start - d) / 65536 } p.dst start x = (.ok q, c₁)) ∧
    (∃ (s : State), ∃ lane, ∃ (x : Tx), ∃ (p : Pkt), s.chip.alive = true ∧ (s.chip.txOf lane).find? (fun x => s.chip.due x.stop &&
    (s.chip.pkt x.pkt).isSome) = some x ∧ s.chip.pkt x.pkt = some p ∧ p.whole = true ∧ p.badAt = none ∧ p.len ≤ s.chip.maxFrame lane ∧
    p.authFail = false) ∧
    (∃ (s : State), ∃ lane, ∃ (x : Tx), ∃ (p : Pkt), s.chip.alive = true ∧ (s.chip.txOf lane).find? (fun x => s.chip.due x.stop &&
    (s.chip.pkt x.pkt).isSome) = some x ∧ s.chip.pkt x.pkt = some p ∧ (p.badAt.isSome = true ∨ s.chip.maxFrame lane < p.len)) ∧
    (∃ (s : State), ∃ id, ∃ (p : Pkt), s.chip.alive = true ∧ s.chip.pkt id = some p ∧ p.stage = .queued ∧ (p.holds.any fun h => isSpill
    h.pool) = true ∧ s.chip.en p.die 5 = true ∧ s.chip.bit p.die R.bufCtrl 2 = true ∧ let same := fun q : Pkt => q.stage == .queued && q.die
    == p.die && q.dstInst == p.dstInst && q.dst == p.dst && q.tc == p.tc; s.chip.first p (fun q => same q && q.holds.any fun h => isSpill
    h.pool) = true ∧ ((s.chip.dp.pkts.filter fun q => same q && q.readBack).map Pkt.cells).sum + p.cells ≤ 64 ∧ p.cells ≤ s.chip.poolFree
    p.die) ∧
    (∃ (s : State), ∃ die idx t, s.chip.alive = true ∧ (s.chip.shaper (die * 131072 + idx)).slot = some t ∧ s.chip.due t = true ∧
    (s.chip.shaper (die * 131072 + idx)).change = none ∧ s.chip.shaperBusy (die * 131072 + idx) = true) ∧
    (∃ (s : State), ∃ d n r b o, s.chip.alive = true ∧ s.chip.due (nextSlot fineSlot s.chip.commit.tsw) = true ∧ s.chip.qs.qosPend = [(d,
    .shaper n r b o)] ∧ 0 < r) ∧
    (∃ (s : State), ∃ id, ∃ (p : Pkt), s.chip.pkt id = some p ∧ p.stage = .window ∧ p.dstInst = true ∧ s.chip.on (p.dst / 512) 15 = true ∧
    (∀ q ∈ s.chip.dp.pkts, q.dstInst = true → q.dst = p.dst → q.granted < p.granted → q.stage ≠ .window ∧ q.stage ≠ .crossDest (p.dst /
    512))) :=
  ⟨⟨on (carrying [toLane .queued 0]), 0, (pick (carrying [toLane .queued 0]) false).1, (pick (carrying [toLane .queued 0]) false).2.1, (pick (carrying [toLane .queued 0]) false).2.2.1, (pick (carrying [toLane .queued 0]) false).2.2.2, by decide +kernel⟩,
   ⟨on (toTenant .queued), 0, (pick (toTenant .queued) true).1, (pick (toTenant .queued) true).2.1, (pick (toTenant .queued) true).2.2.1, (pick (toTenant .queued) true).2.2.2, (((toTenant .queued).endpointPick 0).getD ⟨0, []⟩), by decide +kernel⟩,
   ⟨on (carrying [toLane .window 0]), 0, .clean, (toLane .window 0), (toLane .window 0).bytes, (carrying [toLane .window 0]), ((carrying [toLane .window 0]).stampFrame (toLane .window 0) 0 0).1, ((carrying [toLane .window 0]).stampFrame (toLane .window 0) 0 0).2, by decide +kernel, by decide +kernel, by decide +kernel, by decide +kernel, by decide +kernel, by with_unfolding_all rfl, by decide +kernel, by decide +kernel, by with_unfolding_all rfl⟩,
   ⟨on (carrying [toLane (.held 0) 1]), 1, toLane (.held 0) 1, 0, Dr.linkDown, by decide +kernel, by decide +kernel, by decide +kernel, by decide +kernel, by decide +kernel, by decide +kernel⟩,
   ⟨on (carrying [toLane (.held 0) 0]), 1, .clean, (toLane (.held 0) 0), 0, (toLane (.held 0) 0).bytes, (carrying [toLane (.held 0) 0]), 0, [], false, ((carrying [toLane (.held 0) 0]).stampFrame (toLane (.held 0) 0) 0 0).1, ((carrying [toLane (.held 0) 0]).stampFrame (toLane (.held 0) 0) 0 0).2, by decide +kernel, by decide +kernel, by decide +kernel, by decide +kernel, by decide +kernel, by decide +kernel, by with_unfolding_all rfl, by with_unfolding_all rfl, by decide +kernel, by decide +kernel, by decide +kernel, by with_unfolding_all rfl⟩,
   ⟨on ((carrying [frame .sending]).setTx 0 [⟨1, 0, 0, 64, false, 0, 0⟩]), 0, ⟨1, 0, 0, 64, false, 0, 0⟩, frame .sending, by decide +kernel⟩,
   ⟨on ((carrying [{ frame .sending with badAt := some 0 }]).setTx 0 [⟨1, 0, 0, 64, false, 0, 0⟩]), 0, ⟨1, 0, 0, 64, false, 0, 0⟩, { frame .sending with badAt := some 0 }, by decide +kernel⟩,
   ⟨on ((carrying [{ frame .queued with holds := [⟨0, .spill false 0 0, 1⟩] }]).wr 0 R.bufCtrl 5), 1, { frame .queued with holds := [⟨0, .spill false 0 0, 1⟩] }, by decide +kernel⟩,
   ⟨on (((carrying [toLane .queued 0]).wr 0 (R.schPortCtrl 0) 0x500).setShaper 5 ({ Shaper.none with rate := 1, slot := some 0 })), 0, 5, 0, by decide +kernel⟩,
   ⟨on { live with qs := { Sched.reset with qosPend := [(0, .shaper 1 1 0 0)] } , clk := { live.clk with tb := 2 ^ 40 } }, 0, 1, 1, 0, 0, by decide +kernel⟩,
   ⟨on (toTenant .window), 1, { frame .window with dstInst := true, dst := 0 }, by decide +kernel⟩⟩

/-- The hypotheses of `Obligations.LearningCompletes`, clause by clause, are met. -/
theorem witness_LearningCompletes :
    (∃ (s : State) (d : Nat) (ev : LearnEv) (q : List LearnEv), s.chip.on d 4 = true ∧ s.chip.alive = true ∧ s.chip.hasDie d = true ∧ tget
    [] s.chip.tb.learnQ d = ev :: q ∧ s.chip.clk.learnHold ≤ s.chip.steady) ∧
    (∃ (s : State) (d : Nat), ∃ n c' c'', s.chip.on d 4 = true ∧ s.chip.alive = true ∧ s.chip.hasDie d = true ∧ s.chip.takeNotice .learn d =
    some (n, c') ∧ (c'.count d (R.tblEvtCnt 8)).learned d n.key = none ∧ (c'.count d (R.tblEvtCnt 8)).macLearn d n.key n.locInst n.loc
    n.time = some c'') ∧
    (∃ (s : State) (d : Nat), ∃ n c', s.chip.on d 4 = true ∧ s.chip.alive = true ∧ s.chip.hasDie d = true ∧ s.chip.takeNotice .fail d = some
    (n, c')) ∧
    (∃ (s : State) (d : Nat), ∃ n c' k e, s.chip.on d 4 = true ∧ s.chip.alive = true ∧ s.chip.hasDie d = true ∧ s.chip.takeNotice .withdraw
    d = some (n, c') ∧ c'.learned d n.key = some (k, e) ∧ e.time = n.time) ∧
    (∃ (s : State) (d : Nat), ∃ n c' k e, s.chip.on d 4 = true ∧ s.chip.alive = true ∧ s.chip.hasDie d = true ∧ s.chip.takeNotice .removal d
    = some (n, c') ∧ c'.learned d n.key = some (k, e) ∧ e.time = n.time) ∧
    (∃ (s : State) (d : Nat), ∃ n c' k e, s.chip.on d 4 = true ∧ s.chip.alive = true ∧ s.chip.hasDie d = true ∧ s.chip.takeNotice .hit d =
    some (n, c') ∧ c'.learned d n.key = some (k, e)) ∧
    (∃ (s : State) (d : Nat), ∃ n c' k e, s.chip.on d 4 = true ∧ s.chip.alive = true ∧ s.chip.hasDie d = true ∧ s.chip.takeNotice .clear d =
    some (n, c') ∧ c'.learned d n.key = some (k, e)) ∧
    (∃ (s : State) (d : Nat), ∃ b, s.chip.on d 4 = true ∧ s.chip.alive = true ∧ s.chip.hasDie d = true ∧ s.chip.sweepDue d .mac b = true) ∧
    (∃ (s : State) (d : Nat), ∃ b, s.chip.on d 4 = true ∧ s.chip.alive = true ∧ s.chip.hasDie d = true ∧ s.chip.sweepDue d .flow b = true) :=
  ⟨⟨on { live with tb := { Tables.reset with learnQ := [(0, [⟨5, false, 0, false⟩])] } }, 0, ⟨5, false, 0, false⟩, [], by decide +kernel⟩,
   ⟨on (noticed .learn 6 7), 0, (((noticed .learn 6 7).takeNotice .learn 0).get (by decide +kernel)).1, (((noticed .learn 6 7).takeNotice .learn 0).get (by decide +kernel)).2, ((((((noticed .learn 6 7).takeNotice .learn 0).get (by decide +kernel)).2.count 0 (R.tblEvtCnt 8)).macLearn 0 6 false 64 7).getD live), by decide +kernel⟩,
   ⟨on (noticed .fail 5 7), 0, (((noticed .fail 5 7).takeNotice .fail 0).get (by decide +kernel)).1, (((noticed .fail 5 7).takeNotice .fail 0).get (by decide +kernel)).2, by decide +kernel⟩,
   ⟨on (noticed .withdraw 5 7), 0, (((noticed .withdraw 5 7).takeNotice .withdraw 0).get (by decide +kernel)).1, (((noticed .withdraw 5 7).takeNotice .withdraw 0).get (by decide +kernel)).2, (((((noticed .withdraw 5 7).takeNotice .withdraw 0).get (by decide +kernel)).2.learned 0 5).get (by decide +kernel)).1, (((((noticed .withdraw 5 7).takeNotice .withdraw 0).get (by decide +kernel)).2.learned 0 5).get (by decide +kernel)).2, by decide +kernel⟩,
   ⟨on (noticed .removal 5 7), 0, (((noticed .removal 5 7).takeNotice .removal 0).get (by decide +kernel)).1, (((noticed .removal 5 7).takeNotice .removal 0).get (by decide +kernel)).2, (((((noticed .removal 5 7).takeNotice .removal 0).get (by decide +kernel)).2.learned 0 5).get (by decide +kernel)).1, (((((noticed .removal 5 7).takeNotice .removal 0).get (by decide +kernel)).2.learned 0 5).get (by decide +kernel)).2, by decide +kernel⟩,
   ⟨on (noticed .hit 5 7), 0, (((noticed .hit 5 7).takeNotice .hit 0).get (by decide +kernel)).1, (((noticed .hit 5 7).takeNotice .hit 0).get (by decide +kernel)).2, (((((noticed .hit 5 7).takeNotice .hit 0).get (by decide +kernel)).2.learned 0 5).get (by decide +kernel)).1, (((((noticed .hit 5 7).takeNotice .hit 0).get (by decide +kernel)).2.learned 0 5).get (by decide +kernel)).2, by decide +kernel⟩,
   ⟨on (noticed .clear 5 7), 0, (((noticed .clear 5 7).takeNotice .clear 0).get (by decide +kernel)).1, (((noticed .clear 5 7).takeNotice .clear 0).get (by decide +kernel)).2, (((((noticed .clear 5 7).takeNotice .clear 0).get (by decide +kernel)).2.learned 0 5).get (by decide +kernel)).1, (((((noticed .clear 5 7).takeNotice .clear 0).get (by decide +kernel)).2.learned 0 5).get (by decide +kernel)).2, by decide +kernel⟩,
   ⟨on live, 0, 0, by decide +kernel⟩,
   ⟨on live, 0, 0, by decide +kernel⟩⟩

/-- The hypotheses of `Obligations.TableEntriesComplete`, clause by clause, are met. -/
theorem witness_TableEntriesComplete :
    (∃ (s : State) (e : Started), ∃ d c', s.chip.toRun stewardFn 0x45 e ∧ flowWriteBad e.bytes = false ∧ d = s.chip.ownerDie 0
    (s.chip.keyHash 0 (Flow.kind (slice e.bytes 16 64)) (slice e.bytes 16 64)) ∧ s.chip.reach s.chip.stwDie d = true ∧ (s.chip.markRun
    stewardFn e.seq).flowInsert d (Flow.store (slice e.bytes 16 64) true) = .inr (some c')) ∧
    (∃ (s : State) (e : Started), ∃ d c', s.chip.toRun stewardFn 0x46 e ∧ kindOk (byteAt e.bytes 8) = true ∧ d = s.chip.ownerDie 0
    (s.chip.keyHash 0 (byteAt e.bytes 8) (slice e.bytes 9 40)) ∧ s.chip.reach s.chip.stwDie d = true ∧ (s.chip.markRun stewardFn
    e.seq).flowDelete d (flowKeyBytes (byteAt e.bytes 8) (slice e.bytes 9 40)) = some c') ∧
    (∃ (s : State) (e : Started), s.chip.toRun stewardFn 0x47 e ∧ byteAt e.bytes 8 = 4) ∧
    (∃ (s : State) (e : Started), s.chip.toRun stewardFn 0x44 e ∧ (s.chip.markRun stewardFn e.seq).groupFails e.bytes = none) ∧
    (∃ (s : State), ∃ k l, ∃ (q : Chip), s.chip.alive = true ∧ s.chip.rl.groupNew = some (k, l) ∧ s.chip.tellDies = some q) ∧
    (∃ (s : State) (e : Started), ∃ a x, s.chip.toRun stewardFn 0x48 e ∧ a = leAt e.bytes 8 4 ∧ x = Assoc.ofBytes (slice e.bytes 16 128) ∧ a
    < 65536 * s.chip.dies ∧ 1 ≤ x.framing ∧ x.framing ≤ 4 ∧ (x.framing = 3 → x.port < 64 * s.chip.dies) ∧ x.flags < 32 ∧ x.an ≤ 3 ∧
    (x.windowLog2 = 0 ∨ 5 ≤ x.windowLog2 ∧ x.windowLog2 ≤ 9) ∧ x.suite ∈ framingSuites x.framing) :=
  ⟨⟨on (forStw live (todo (entry 3 0x45 [(56, 1, 1)]))), todo (entry 3 0x45 [(56, 1, 1)]), 0, withFlow ((forStw live (todo (entry 3 0x45 [(56, 1, 1)]))).markRun stewardFn 0) 0 (Flow.store flow1 true), by decide +kernel⟩,
   ⟨on (forStw (withFlow live 0 (Flow.store flow1 true)) (todo (entry 2 0x46 [(8, 1, 1)]))), todo (entry 2 0x46 [(8, 1, 1)]), 0, ((((forStw (withFlow live 0 (Flow.store flow1 true)) (todo (entry 2 0x46 [(8, 1, 1)]))).markRun stewardFn 0).flowDelete 0 (flowKeyBytes 1 (List.replicate 40 0#8))).getD live), by decide +kernel⟩,
   ⟨on (forStw live (todo (entry 1 0x47 [(8, 1, 4)]))), todo (entry 1 0x47 [(8, 1, 4)]), by decide +kernel⟩,
   ⟨on (forStw live (todo (entry 1 0x44 [(8, 1, 1), (12, 1, 1)]))), todo (entry 1 0x44 [(8, 1, 1), (12, 1, 1)]), by decide +kernel⟩,
   ⟨on { live with rl := { Rules.reset with groupNew := some (0, [0]) } }, 0, [0], (({ live with rl := { Rules.reset with groupNew := some (0, [0]) } } : Chip).tellDies.getD live), by decide +kernel⟩,
   ⟨on (forStw live (todo (entry 5 0x48 [(16, 1, 1), (18, 1, 1)]))), todo (entry 5 0x48 [(16, 1, 1), (18, 1, 1)]), _, _, by decide +kernel, rfl, rfl, by decide +kernel, by decide +kernel, by decide +kernel, by decide +kernel, by decide +kernel, by decide +kernel, by decide +kernel, by decide +kernel⟩⟩

/-- The hypotheses of `Obligations.EpochRowsComplete`, clause by clause, are met. -/
theorem witness_EpochRowsComplete :
    (∃ (s : State), ∃ e sl, s.chip.alive = true ∧ s.chip.toRun stewardFn 0x40 e ∧ s.chip.commit.phase = .closed ∧ bitN (byteAt e.bytes 12) 0
    = false ∧ ((List.range 4).find? fun i => (s.chip.slot i).st == .free) = some sl) ∧
    (∃ (s : State), ∃ e c', s.chip.alive = true ∧ s.chip.toRun stewardFn 0x43 e ∧ s.chip.commit.phase = .opened ∧ s.chip.commit.fail = none
    ∧ (s.chip.markRun stewardFn e.seq).chgFails e.bytes = none ∧ (s.chip.markRun stewardFn e.seq).stage e.bytes = some c') ∧
    (∃ (s : State), ∃ e, s.chip.alive = true ∧ s.chip.toRun stewardFn 0x41 e ∧ s.chip.commit.phase = .opened ∧ s.chip.commit.fail = none ∧
    leAt e.bytes 8 4 = s.chip.commit.count ∧ s.chip.someUnreachable = false ∧ (s.chip.sp.barrier.early = none ∨ s.chip.commit.barrier =
    false)) ∧
    (∃ (s : State), ∃ e, s.chip.alive = true ∧ s.chip.toRun stewardFn 0x42 e ∧ s.chip.commit.phase = .opened) ∧
    (∃ (s : State) (q : Chip), s.chip.alive = true ∧ s.chip.commit.phase = .closing ∧ s.chip.tellDies = some q) ∧
    (∃ (s : State), s.chip.alive = true ∧ s.chip.commit.phase = .undoing ∧ s.chip.commit.ends = some St.aborted) ∧
    (∃ (s : State), s.chip.alive = true ∧ s.chip.commit.phase = .switching ∧ s.chip.due s.chip.commit.tsw = true ∧ s.chip.qs.qosStaged = []) ∧
    (∃ (s : State), ∃ sl, s.chip.alive = true ∧ (s.chip.slotsIn .draining).head? = some sl ∧ (∀ d ∈ s.chip.allDies, s.chip.inflight d sl =
    0)) ∧
    (∃ (s : State), ∃ sl, s.chip.alive = true ∧ (s.chip.slotsIn .sweeping).head? = some sl ∧ sl < 4 ∧ s.chip.rl.slots.length = 4) ∧
    (∃ (s : State), ∃ sl ms, s.chip.alive = true ∧ (s.chip.slot sl).st = .draining ∧ (s.chip.slot sl).stalled = false ∧ s.chip.fld 0
    R.epcStallLimit 0 16 ≠ 0 ∧ s.chip.fld 0 R.epcStallLimit 0 16 < ms) :=
  ⟨⟨on (forStw live (todo (entry 1 0x40 []))), todo (entry 1 0x40 []), 1, by decide +kernel⟩,
   ⟨on (forStw { live with commit := { Commit.none with phase := .opened } } (todo (entry 2 0x43 [(8, 1, 9), (9, 1, 1)]))), todo (entry 2 0x43 [(8, 1, 9), (9, 1, 1)]), ((((forStw { live with commit := { Commit.none with phase := .opened } } (todo (entry 2 0x43 [(8, 1, 9), (9, 1, 1)]))).markRun stewardFn 0).stage (entry 2 0x43 [(8, 1, 9), (9, 1, 1)])).getD live), by decide +kernel⟩,
   ⟨on (forStw { live with commit := { Commit.none with phase := .opened } } (todo (entry 1 0x41 []))), todo (entry 1 0x41 []), by decide +kernel⟩,
   ⟨on (forStw { live with commit := { Commit.none with phase := .opened } } (todo (entry 1 0x42 []))), todo (entry 1 0x42 []), by decide +kernel⟩,
   ⟨on { live with commit := { Commit.none with phase := .closing } }, (({ live with commit := { Commit.none with phase := .closing } } : Chip).tellDies.getD live), by decide +kernel⟩,
   ⟨on { live with commit := { Commit.none with phase := .undoing, ends := some St.aborted } }, by decide +kernel⟩,
   ⟨on { live with commit := { Commit.none with phase := .switching } }, by decide +kernel⟩,
   ⟨on (live.setSlot 3 ⟨1, .draining, false⟩), 3, by decide +kernel⟩,
   ⟨on (live.setSlot 3 ⟨1, .sweeping, false⟩), 3, by decide +kernel⟩,
   ⟨on ((live.setSlot 3 ⟨1, .draining, false⟩).wr 0 R.epcStallLimit 10), 3, 11, by decide +kernel⟩⟩

/-- The hypotheses of `Obligations.CipherRowsComplete`, clause by clause, are met. -/
theorem witness_CipherRowsComplete :
    (∃ (s : State) (e : Started), s.chip.toRun stewardFn 0x48 e ∧ let a := leAt e.bytes 8 4; let x := Assoc.ofBytes (slice e.bytes 16 128);
    a < 65536 * s.chip.dies ∧ 1 ≤ x.framing ∧ x.framing ≤ 4 ∧ (x.framing = 3 → x.port < 64 * s.chip.dies) ∧ x.flags < 32 ∧ x.an ≤ 3 ∧
    x.windowLog2 = 0 ∧ x.softLimit = 0 ∧ x.suite ∈ framingSuites x.framing) ∧
    (∃ (s : State) (f : Nat) (e : Started), s.chip.toRun f 0x06 e ∧ (s.chip.markRun f e.seq).slotAllowed f (leAt e.bytes 8 4) = true) ∧
    (∃ (s : State) (f : Nat) (e : Started), s.chip.toRun f 0x07 e ∧ (s.chip.markRun f e.seq).slotAllowed f (leAt e.bytes 8 4) = true) ∧
    (∃ (s : State) (f : Nat) (e : Started), s.chip.alive = true ∧ ((s.chip.chan f).started.find? fun e => e.run && e.recs.isNone && [0x06,
    0x07].contains (byteAt e.bytes 1) && s.chip.slotSettled (leAt e.bytes 8 4)) = some e) ∧
    (∃ (s : State) (f : Nat) (e : Started), ∃ head, s.chip.toRun f 0x08 e ∧ head = toBE 2 f ++ toBE 2 0 ++ toBE 4 (s.chip.keygen f) ++ slice
    (sm2Public (s.chip.kekScalar s.root.fuses.kekSeed f)) 0 64) ∧
    (∃ (s : State) (f : Nat) (e : Started), s.chip.toRun f 0x05 e ∧ s.chip.en (s.chip.fnDie f) 9 = true ∧ jobMode e.bytes < 6 ∧ jobLengthBad
    e.bytes = false ∧ 0 < (Xfer.fresh f e.seq e.bytes .job (jobSegs e.bytes)).total ∧ 0 < jobLen e.bytes) ∧
    (∃ (s : State) (die : Nat) (u : CUnit) (t : Nat × Nat), ∃ f i part, ∃ (j : Job), ∃ key, s.chip.nextUnit die = some (u, t) ∧ s.chip.on
    die 9 = true ∧ u.kind = .job f i part ∧ ((tget [] s.chip.cp.units die).filter CUnit.running).length < s.chip.fld die R.cipCores 20 10 ∧
    (((tget [] s.chip.cp.units die).filter CUnit.running).map CUnit.entries).sum + s.chip.unitEntries u ≤ 8192 ∧ (s.chip.cp.jobs.find? fun j
    => j.fn == f && j.index == i) = some j ∧ s.chip.jobKey f j.ent = some key) ∧
    (∃ (s : State) (die : Nat) (u : CUnit), ∃ f i part k, (tget [] s.chip.cp.units die).find? (fun v => v.id == u.id) = some u ∧
    s.chip.alive = true ∧ u.running = true ∧ (∀ v ∈ (tget [] s.chip.cp.units die).takeWhile (fun v => v.id != u.id), v.running = true →
    sameOrder u v = false) ∧ u.key = some k ∧ u.kind = .job f i part) ∧
    (∃ (s : State) (die : Nat) (u : CUnit), ∃ id k, ∃ (p : Pkt), ∃ x, (tget [] s.chip.cp.units die).find? (fun v => v.id == u.id) = some u ∧
    s.chip.alive = true ∧ u.running = true ∧ (∀ v ∈ (tget [] s.chip.cp.units die).takeWhile (fun v => v.id != u.id), v.running = true →
    sameOrder u v = false) ∧ u.key = some k ∧ u.kind = .esp id ∧ s.chip.pkt id = some p ∧ tget none s.chip.cp.assocs u.assoc = some x) :=
  ⟨⟨on (forStw live (todo (entry 5 0x48 [(16, 1, 1), (18, 1, 1)]))), todo (entry 5 0x48 [(16, 1, 1), (18, 1, 1)]), by decide +kernel⟩,
   ⟨on (forVf tenant (todo (entry 7 0x06 []))), 0, todo (entry 7 0x06 []), by decide +kernel⟩,
   ⟨on (forStw live (todo (entry 1 0x07 []))), stewardFn, todo (entry 1 0x07 []), by decide +kernel⟩,
   ⟨on (forVf tenant (⟨0, 0, entry 1 0x07 [], true, none, [], none⟩)), 0, ⟨0, 0, entry 1 0x07 [], true, none, [], none⟩, by decide +kernel⟩,
   ⟨on (forVf tenant (todo (entry 1 0x08 []))), 0, todo (entry 1 0x08 []), _, by decide +kernel, rfl⟩,
   ⟨on (forVf tenant (todo (entry 3 0x05 [(8, 1, 2), (20, 4, 64), (24, 8, 0x1000)]))), 0, todo (entry 3 0x05 [(8, 1, 2), (20, 4, 64), (24, 8, 0x1000)]), by decide +kernel⟩,
   ⟨on ((ciphering (jobUnit (.job 0 0 0) false none) (entry 3 0x05 [(8, 1, 2), (20, 4, 64), (24, 8, 0x1000)])).wr 0 R.cipCores 0x100000), 0, jobUnit (.job 0 0 0) false none, (0, 0), 0, 0, 0, ⟨0, 0, entry 3 0x05 [(8, 1, 2), (20, 4, 64), (24, 8, 0x1000)], [], [], [], [none], 0, 0⟩, aesKey, by decide +kernel⟩,
   ⟨on (ciphering (jobUnit (.job 0 0 0) true (some aesKey)) (entry 3 0x05 [(8, 1, 2), (20, 4, 64), (24, 8, 0x1000)])), 0, jobUnit (.job 0 0 0) true (some aesKey), 0, 0, 0, aesKey, by decide +kernel⟩,
   ⟨on { ciphering (jobUnit (.esp 1) true (some aesKey)) [] with dp := { Packets.reset with pkts := [frame .cipher] } }, 0, jobUnit (.esp 1) true (some aesKey), 1, aesKey, frame .cipher, Assoc.ofBytes (List.replicate 128 1#8), by decide +kernel⟩⟩

/-- The hypotheses of `Obligations.ContextRowsComplete`, clause by clause, are met. -/
theorem witness_ContextRowsComplete :
    (∃ (s : State) (d : Nat) (e : Nat) (x : Nat) (p : Pkt), s.chip.on d 11 = true ∧ e < 64 ∧ (s.chip.bit d R.dreCtrl 2 && e % 2 == 1) =
    false ∧ s.chip.freeCtx d e false = some x ∧ (s.chip.oldest fun p => p.die == d &&
    (match p.stage with | .engineQ q => s.chip.enginePair d q == e | _ => false)) = some p) ∧
    (∃ (s : State) (d : Nat) (e : Nat) (x : Nat), ∃ f, ∃ (j : Started), ∃ (q : Chip), s.chip.on d 11 = true ∧ e < 64 ∧ (s.chip.bit d
    R.dreCtrl 2 && e % 2 == 1) = false ∧ s.chip.freeCtx d e true = some x ∧ s.chip.waitingJob d e f = some j ∧ s.chip.dataWaits
    (s.chip.fnDie f) d (s.chip.jobHash f j.bytes) = false ∧ s.chip.crossData (s.chip.fnDie f) d (s.chip.jobHash f j.bytes) j.bytes.length =
    some q) ∧
    (∃ (s : State) (d : Nat) (e : Nat) (x : Nat), ∃ k pc stack, s.chip.on d 11 = true ∧ s.chip.ctx d e x = some k ∧ s.chip.turnOf d e = some
    x ∧ Mw.illegal (tget 0 s.chip.dre.cstore k.pc) k.job = false ∧ k.next (s.chip.bit d R.dreCtrl 2) (tget 0 s.chip.dre.cstore k.pc) = some
    (pc, stack) ∧ pc < s.chip.loadedWords d ∧ s.chip.outOfRange k (tget 0 s.chip.dre.cstore k.pc) = false) ∧
    (∃ (s : State) (d : Nat) (e : Nat) (x : Nat), ∃ k port o st w, s.chip.alive = true ∧ s.chip.ctx d e x = some k ∧ k.st = .ready ∧ k.op
    port = some o ∧ o.result = some (st, w) ∧ k.ops.filter (fun q => q.port != port) ≠ []) ∧
    (∃ (s : State) (d : Nat) (e : Nat) (x : Nat), ∃ k port o, ∃ (r : Nat × List (Nat × Nat)), s.chip.alive = true ∧ s.chip.ctx d e x = some
    k ∧ k.st = .draining ∧ k.op port = some o ∧ o.result = some r ∧ k.ops.filter (fun q => q.port != port) = []) ∧
    (∃ (s : State) (d : Nat) (e : Nat) (x : Nat), ∃ k t, s.chip.alive = true ∧ s.chip.ctx d e x = some k ∧ k.st = .paused t ∧ s.chip.due t =
    true) ∧
    (∃ (s : State) (d : Nat) (e : Nat) (x : Nat) (m : Master) (v : Reg32), ∃ k, s.reaches m d 11 ∧ bitsN v.toNat 0 6 = e ∧ bitsN v.toNat 6 7
    = x ∧ v.getLsbD 31 = true ∧ s.chip.ctx d e x = some k ∧ k.st ≠ .draining) ∧
    (∃ (s : State) (d : Nat), s.chip.alive = true ∧ s.chip.hasDie d = true ∧ s.chip.en d 11 = false ∧ s.chip.ctxsOf d = []) :=
  ⟨⟨on (carrying [frame (.engineQ 63)]), 0, 63, 0, frame (.engineQ 63), by decide +kernel⟩,
   ⟨on (forVf tenant ⟨0, 0, entry 2 0x09 [], true, none, [], some (0, 0)⟩), 0, 0, 0, 0, ⟨0, 0, entry 2 0x09 [], true, none, [], some (0, 0)⟩, (forVf tenant ⟨0, 0, entry 2 0x09 [], true, none, [], some (0, 0)⟩), by decide +kernel⟩,
   ⟨on ((engine (context false .ready [])).wr 0 R.dreCsInfo 2), 0, 0, 0, context false .ready [], 1, [], by decide +kernel⟩,
   ⟨on (engine (context false .ready [{ portOp .hb 1 0 0 [] with result := some (0, []) }, portOp .ts 1 0 0 []])), 0, 0, 0, context false .ready [{ portOp .hb 1 0 0 [] with result := some (0, []) }, portOp .ts 1 0 0 []], .hb, { portOp .hb 1 0 0 [] with result := some (0, []) }, 0, [], by decide +kernel⟩,
   ⟨on (engine (context false .draining [{ portOp .hb 1 0 0 [] with result := some (0, []) }])), 0, 0, 0, context false .draining [{ portOp .hb 1 0 0 [] with result := some (0, []) }], .hb, { portOp .hb 1 0 0 [] with result := some (0, []) }, (0, []), by decide +kernel⟩,
   ⟨on (engine (context false (.paused 0) [])), 0, 0, 0, context false (.paused 0) [], 0, by decide +kernel⟩,
   ⟨on (engine (context false .ready [])), 0, 0, 0, .tether, 0x80000000, context false .ready [], by decide +kernel⟩,
   ⟨on (live.wr 0 ⟨11, 0⟩ 0), 0, by decide +kernel⟩⟩

/-- The hypotheses of `Obligations.TablePortsComplete`, clause by clause, are met. -/
theorem witness_TablePortsComplete :
    (∃ (s : State) (d : Nat) (e : Nat) (x : Nat) (k : Ctx) (o : PortOp), ∃ a, s.chip.waitsOp d e x .ts 1 k o ∧ s.chip.action d o.a k.slot =
    some a) ∧
    (∃ (s : State) (d : Nat) (e : Nat) (x : Nat) (k : Ctx) (o : PortOp), s.chip.waitsOp d e x .ts 2 k o ∧ o.a < 2 ^ 20) ∧
    (∃ (s : State) (d : Nat) (e : Nat) (x : Nat) (k : Ctx) (o : PortOp), ∃ i, ∃ (m : MacE), s.chip.waitsOp d e x .ts 3 k o ∧
    s.chip.staticMac d (o.a % 2 ^ 60) k.slot = none ∧ s.chip.learned d (o.a % 2 ^ 60) = some (i, m)) ∧
    (∃ (s : State) (d : Nat) (e : Nat) (x : Nat) (k : Ctx) (o : PortOp), s.chip.waitsOp d e x .hb 1 k o ∧ k.linesDone .hb = true) ∧
    (∃ (s : State) (d : Nat) (e : Nat) (x : Nat) (k : Ctx) (o : PortOp), s.chip.waitsOp d e x .hb 2 k o ∧ k.linesDone .hb = true) ∧
    (∃ (s : State) (d : Nat) (e : Nat) (x : Nat) (k : Ctx) (o : PortOp), s.chip.waitsOp d e x .hb 3 k o ∧ k.linesDone .hb = true) ∧
    (∃ (s : State) (d : Nat) (e : Nat) (x : Nat) (k : Ctx) (o : PortOp), ∃ b c', s.chip.waitsOp d e x .hb 4 k o ∧ s.chip.flowOwner d o.data
    = d ∧ s.chip.en d 4 = true ∧ s.chip.flowLookup d (Flow.keyBytes o.data) .clean = (some b, c')) ∧
    (∃ (s : State) (d : Nat) (e : Nat) (x : Nat) (k : Ctx) (o : PortOp), s.chip.waitsOp d e x .hb 4 k o ∧ s.chip.flowOwner d o.data = d ∧
    s.chip.en d 4 = true ∧ s.chip.flowCached d (Flow.keyBytes o.data) = false) ∧
    (∃ (s : State) (d : Nat) (e : Nat) (x : Nat) (k : Ctx) (o : PortOp), ∃ c', s.chip.waitsOp d e x .hb 5 k o ∧ s.chip.flowOwner d o.data =
    d ∧ s.chip.en d 4 = true ∧ s.chip.flowInsert d (Flow.store o.data false) = .inr (some c')) ∧
    (∃ (s : State) (d : Nat) (e : Nat) (x : Nat) (k : Ctx) (o : PortOp), ∃ c', s.chip.waitsOp d e x .hb 6 k o ∧ s.chip.flowOwner d o.data =
    d ∧ s.chip.flowDelete d (Flow.keyBytes o.data) = some c') ∧
    (∃ (s : State) (d : Nat) (e : Nat) (x : Nat) (k : Ctx) (o : PortOp), ∃ c', s.chip.waitsOp d e x .hb 7 k o ∧ s.chip.flowOwner d o.data =
    d ∧ s.chip.flowRewrite d (Flow.store o.data false) = some c') :=
  ⟨⟨on ({ engine (context false .ready [portOp .ts 1 0 0 []]) with rl := { Rules.reset with acts := [(0, some ⟨⟨none, none⟩, 9⟩)] } }), 0, 0, 0, context false .ready [portOp .ts 1 0 0 []], portOp .ts 1 0 0 [], 9, by decide +kernel⟩,
   ⟨on (engine (context false .ready [portOp .ts 2 1048575 0 []])), 0, 0, 0, context false .ready [portOp .ts 2 1048575 0 []], portOp .ts 2 1048575 0 [], by decide +kernel⟩,
   ⟨on (((engine (context false .ready [portOp .ts 3 5 0 []])).macInsert 0 mac5).getD live), 0, 0, 0, context false .ready [portOp .ts 3 5 0 []], portOp .ts 3 5 0 [], (((((engine (context false .ready [portOp .ts 3 5 0 []])).macInsert 0 mac5).getD live).learned 0 5).getD (0, mac5)).1, mac5, by decide +kernel⟩,
   ⟨on (engine (context false .ready [portOp .hb 1 0 0 []])), 0, 0, 0, context false .ready [portOp .hb 1 0 0 []], portOp .hb 1 0 0 [], by decide +kernel⟩,
   ⟨on (engine (context false .ready [portOp .hb 2 0 0 []])), 0, 0, 0, context false .ready [portOp .hb 2 0 0 []], portOp .hb 2 0 0 [], by decide +kernel⟩,
   ⟨on (engine (context false .ready [portOp .hb 3 0 0 []])), 0, 0, 0, context false .ready [portOp .hb 3 0 0 []], portOp .hb 3 0 0 [], by decide +kernel⟩,
   ⟨on (withFlow (engine (context false .ready [portOp .hb 4 0 0 flow1])) 0 flow1), 0, 0, 0, context false .ready [portOp .hb 4 0 0 flow1], portOp .hb 4 0 0 flow1, flow1, ((withFlow (engine (context false .ready [portOp .hb 4 0 0 flow1])) 0 flow1).flowLookup 0 (Flow.keyBytes flow1) .clean).2, by decide +kernel⟩,
   ⟨on (engine (context false .ready [portOp .hb 4 0 0 flow1])), 0, 0, 0, context false .ready [portOp .hb 4 0 0 flow1], portOp .hb 4 0 0 flow1, by decide +kernel⟩,
   ⟨on (engine (context false .ready [portOp .hb 5 0 0 flow1])), 0, 0, 0, context false .ready [portOp .hb 5 0 0 flow1], portOp .hb 5 0 0 flow1, withFlow (engine (context false .ready [portOp .hb 5 0 0 flow1])) 0 (Flow.store flow1 false), by decide +kernel⟩,
   ⟨on (withFlow (engine (context false .ready [portOp .hb 6 0 0 flow1])) 0 flow1), 0, 0, 0, context false .ready [portOp .hb 6 0 0 flow1], portOp .hb 6 0 0 flow1, ((withFlow (engine (context false .ready [portOp .hb 6 0 0 flow1])) 0 flow1).flowDelete 0 (Flow.keyBytes flow1)).getD live, by decide +kernel⟩,
   ⟨on (withFlow (engine (context false .ready [portOp .hb 7 0 0 flow1])) 0 (Flow.store flow1 false)), 0, 0, 0, context false .ready [portOp .hb 7 0 0 flow1], portOp .hb 7 0 0 flow1, ((withFlow (engine (context false .ready [portOp .hb 7 0 0 flow1])) 0 (Flow.store flow1 false)).flowRewrite 0 (Flow.store flow1 false)).getD live, by decide +kernel⟩⟩

/-- The hypotheses of `Obligations.PacketPortsComplete`, clause by clause, are met. -/
theorem witness_PacketPortsComplete :
    (∃ (s : State) (d : Nat) (e : Nat) (x : Nat) (k : Ctx) (o : PortOp) (p : Pkt), s.chip.waitsOp d e x .pb 1 k o ∧ k.pkt.bind s.chip.pkt =
    some p) ∧
    (∃ (s : State) (d : Nat) (e : Nat) (x : Nat) (k : Ctx) (o : PortOp) (p : Pkt), s.chip.waitsOp d e x .pb 2 k o ∧ k.pkt.bind s.chip.pkt =
    some p) ∧
    (∃ (s : State) (d : Nat) (e : Nat) (x : Nat) (k : Ctx) (o : PortOp) (p : Pkt), s.chip.waitsOp d e x .pb 3 k o ∧ k.pkt.bind s.chip.pkt =
    some p) ∧
    (∃ (s : State) (d : Nat) (e : Nat) (x : Nat) (k : Ctx) (o : PortOp) (p : Pkt), s.chip.waitsOp d e x .pb 4 k o ∧ k.pkt.bind s.chip.pkt =
    some p) ∧
    (∃ (s : State) (d : Nat) (e : Nat) (x : Nat) (k : Ctx) (o : PortOp) (p : Pkt), s.chip.waitsOp d e x .pb 5 k o ∧ k.pkt.bind s.chip.pkt =
    some p) ∧
    (∃ (s : State) (d : Nat) (e : Nat) (x : Nat) (k : Ctx) (o : PortOp), s.chip.waitsOp d e x .pb 6 k o ∧ k.job = true ∧ k.pkt = none ∧
    s.chip.fits d .engine 1 = true) ∧
    (∃ (s : State) (d : Nat) (e : Nat) (x : Nat) (k : Ctx) (o : PortOp), s.chip.waitsOp d e x .hash 1 k o) ∧
    (∃ (s : State) (d : Nat) (e : Nat) (x : Nat) (k : Ctx) (o : PortOp), s.chip.waitsOp d e x .hash 2 k o) ∧
    (∃ (s : State) (d : Nat) (e : Nat) (x : Nat) (k : Ctx) (o : PortOp), s.chip.waitsOp d e x .hash 3 k o) ∧
    (∃ (s : State) (d : Nat) (e : Nat) (x : Nat) (k : Ctx) (o : PortOp) (p : Pkt), s.chip.waitsOp d e x .ci 1 k o ∧ k.pbDone .ci = true ∧
    k.pkt.bind s.chip.pkt = some p ∧ bitN o.a 16 = false ∧ 5 ≤ bitsN o.b 16 15 ∧ bitsN o.b 16 15 ≤ 16389 ∧ o.b % 2 ^ 14 + bitsN o.b 16 15 ≤
    p.len ∧ p.len + 17 ≤ 16384) ∧
    (∃ (s : State) (d : Nat) (e : Nat) (x : Nat) (k : Ctx) (o : PortOp) (p : Pkt), s.chip.waitsOp d e x .ci 2 k o ∧ k.pbDone .ci = true ∧
    k.pkt.bind s.chip.pkt = some p ∧ 16 ≤ bitsN o.b 16 15 ∧ bitsN o.b 16 15 ≤ 16384 ∧ o.b % 2 ^ 14 + bitsN o.b 16 15 ≤ p.len ∧ p.len ≤
    16384) ∧
    (∃ (s : State) (d : Nat) (e : Nat) (x : Nat) (k : Ctx) (o : PortOp), s.chip.waitsOp d e x .dma 1 k o ∧ k.pbDone .dma = true ∧
    k.linesDone .dma = true ∧ bitN o.a 12 = true ∧ 0 < bitsN o.a 32 25 ∧ bitsN o.a 32 25 ≤ 16777216 ∧ (s.chip.inst (o.a % 2 ^ 12)).st =
    .active ∧ s.chip.fnMasters (o.a % 2 ^ 12) = true ∧ o.a % 2 ^ 12 / 512 = d) ∧
    (∃ (s : State) (d : Nat) (e : Nat) (x : Nat) (k : Ctx) (o : PortOp) (q : Chip), s.chip.waitsOp d e x .dma 1 k o ∧ k.pbDone .dma = true ∧
    k.linesDone .dma = true ∧ bitN o.a 12 = false ∧ 0 < bitsN o.a 32 25 ∧ bitsN o.a 32 25 ≤ 16777216 ∧ (s.chip.inst (o.a % 2 ^ 12)).st =
    .active ∧ s.chip.fnMasters (o.a % 2 ^ 12) = true ∧ bitN o.a 13 = true ∧ s.chip.dataWaits d (o.a % 2 ^ 12 / 512) (s.chip.ctxHash k) =
    false ∧ s.chip.crossData d (o.a % 2 ^ 12 / 512) (s.chip.ctxHash k) (bitsN o.a 32 25) = some q) :=
  ⟨⟨on (engine (context false .ready [portOp .pb 1 0 0 []])), 0, 0, 0, context false .ready [portOp .pb 1 0 0 []], portOp .pb 1 0 0 [], frame .context, by decide +kernel⟩,
   ⟨on (engine (context false .ready [portOp .pb 2 0 0 []])), 0, 0, 0, context false .ready [portOp .pb 2 0 0 []], portOp .pb 2 0 0 [], frame .context, by decide +kernel⟩,
   ⟨on (engine (context false .ready [portOp .pb 3 0 0 []])), 0, 0, 0, context false .ready [portOp .pb 3 0 0 []], portOp .pb 3 0 0 [], frame .context, by decide +kernel⟩,
   ⟨on (engine (context false .ready [portOp .pb 4 0 0 []])), 0, 0, 0, context false .ready [portOp .pb 4 0 0 []], portOp .pb 4 0 0 [], frame .context, by decide +kernel⟩,
   ⟨on (engine (context false .ready [portOp .pb 5 0 0 []])), 0, 0, 0, context false .ready [portOp .pb 5 0 0 []], portOp .pb 5 0 0 [], frame .context, by decide +kernel⟩,
   ⟨on (engine (context true .ready [portOp .pb 6 0 0 []])), 0, 0, 0, context true .ready [portOp .pb 6 0 0 []], portOp .pb 6 0 0 [], by decide +kernel⟩,
   ⟨on (engine (context false .ready [portOp .hash 1 0 0 []])), 0, 0, 0, context false .ready [portOp .hash 1 0 0 []], portOp .hash 1 0 0 [], by decide +kernel⟩,
   ⟨on (engine (context false .ready [portOp .hash 2 0 0 []])), 0, 0, 0, context false .ready [portOp .hash 2 0 0 []], portOp .hash 2 0 0 [], by decide +kernel⟩,
   ⟨on (engine (context false .ready [portOp .hash 3 0 0 []])), 0, 0, 0, context false .ready [portOp .hash 3 0 0 []], portOp .hash 3 0 0 [], by decide +kernel⟩,
   ⟨on (engine (context false .ready [portOp .ci 1 0 (2 ^ 16 * 5) []])), 0, 0, 0, context false .ready [portOp .ci 1 0 (2 ^ 16 * 5) []], portOp .ci 1 0 (2 ^ 16 * 5) [], frame .context, by decide +kernel⟩,
   ⟨on (engine (context false .ready [portOp .ci 2 0 (2 ^ 16 * 16) []])), 0, 0, 0, context false .ready [portOp .ci 2 0 (2 ^ 16 * 16) []], portOp .ci 2 0 (2 ^ 16 * 16) [], frame .context, by decide +kernel⟩,
   ⟨on ((engine (context false .ready [portOp .dma 1 274877911040 0 []])).setInst 0 inst0), 0, 0, 0, context false .ready [portOp .dma 1 274877911040 0 []], portOp .dma 1 274877911040 0 [], by decide +kernel⟩,
   ⟨on ((engine (context false .ready [portOp .dma 1 (2 ^ 13 + 64 * 2 ^ 32) 0 []])).setInst 0 inst0), 0, 0, 0, context false .ready [portOp .dma 1 (2 ^ 13 + 64 * 2 ^ 32) 0 []], portOp .dma 1 (2 ^ 13 + 64 * 2 ^ 32) 0 [], (engine (context false .ready [portOp .dma 1 (2 ^ 13 + 64 * 2 ^ 32) 0 []])).setInst 0 inst0, by decide +kernel⟩⟩

/-- The hypotheses of `Obligations.EndActionsComplete`, clause by clause, are met. -/
theorem witness_EndActionsComplete :
    (∃ (s : State) (d : Nat) (e : Nat) (x : Nat) (imm : Nat) (args : List Nat) (k : Ctx) (p : Pkt), s.chip.ends d e x 1 imm args k ∧
    k.pkt.bind s.chip.pkt = some p) ∧
    (∃ (s : State) (d : Nat) (k : Ctx) (p : Pkt) (q : Pkt), ∃ g, ∃ (k' : Nat), ∃ (m : Option (Nat × ScrubOutcome)), (s.chip.oldest fun p =>
    p.die == d && p.stage == .reinject) = some p ∧ s.chip.reinjectGate d = some g ∧ s.chip.alive = true ∧ s.chip.arrivalBlocks d = true ∧ q
    =
    { (p.release fun _ => true) with inDie := d, reinjected := true, whole := true, merged := Merged.none, through := false, flow := none, missed := false, added := 0, colour := 0, gate := some g }
    ∧ (s.chip.setPkt q).fits d .ingress p.cells = true ∧ ((((s.chip.setPkt q).takeGate d g true).headgate (q.take d .ingress) m).ctxOfPkt d
    p.id) = some (k', k)) ∧
    (∃ (s : State) (d : Nat) (e : Nat) (x : Nat) (imm : Nat) (args : List Nat) (k : Ctx) (p : Pkt), ∃ g3, s.chip.ends d e x 2 imm args k ∧
    k.pkt.bind s.chip.pkt = some p ∧ args = [g3] ∧ (bitN g3 12 = true ∨ s.chip.isPort (g3 % 2 ^ 12) = true)) ∧
    (∃ (s : State) (d : Nat) (e : Nat) (x : Nat) (imm : Nat) (args : List Nat) (k : Ctx) (p : Pkt), s.chip.ends d e x 3 imm args k ∧
    k.pkt.bind s.chip.pkt = some p) ∧
    (∃ (s : State) (d : Nat) (e : Nat) (x : Nat) (imm : Nat) (args : List Nat) (k : Ctx) (j : Started), s.chip.ends d e x 4 imm args k ∧
    k.pkt = none ∧ s.chip.jobEntry k = some j ∧ (s.chip.chan k.fn).full = false ∧ s.chip.reach d (s.chip.fnDie k.fn) = true) :=
  ⟨⟨on (engine (context false (.ending 1 0 []) [])), 0, 0, 0, 0, [], context false (.ending 1 0 []) [], frame .context, by decide +kernel⟩,
   ⟨on (((carrying [frame .reinject]).setCtx 0 0 0 (some (context false .waitSlot [])))), 0, context false .waitSlot [], frame .reinject, _, (((((carrying [frame .reinject]).setCtx 0 0 0 (some (context false .waitSlot [])))).reinjectGate 0).getD 0), 0, none, by decide +kernel, by decide +kernel, by decide +kernel, by decide +kernel, rfl, by decide +kernel, by decide +kernel⟩,
   ⟨on (engine (context false (.ending 2 0 [0]) [])), 0, 0, 0, 0, [0], context false (.ending 2 0 [0]) [], frame .context, 0, by decide +kernel⟩,
   ⟨on (engine (context false (.ending 3 0 []) [])), 0, 0, 0, 0, [], context false (.ending 3 0 []) [], frame .context, by decide +kernel⟩,
   ⟨on (jobEngine (context true (.ending 4 0 []) []) ⟨0, 0, entry 2 0x09 [], true, none, [], some (0, 0)⟩), 0, 0, 0, 0, [], context true (.ending 4 0 []) [], ⟨0, 0, entry 2 0x09 [], true, none, [], some (0, 0)⟩, by decide +kernel⟩⟩

/-- The hypotheses of `Obligations.ChannelRowsComplete`, clause by clause, are met. -/
theorem witness_ChannelRowsComplete :
    (∃ (s : State) (f : Nat) (v : Reg32), s.chip.bellOk f = true ∧ (s.chip.chan f).dsHalt = 0 ∧ diff32 v.toNat (s.chip.chan f).dsC ≤ 2 ^
    (s.chip.chan f).dsK ∧ diff32 (s.chip.chan f).dsP (s.chip.chan f).dsC ≤ diff32 v.toNat (s.chip.chan f).dsC) ∧
    (∃ (s : State) (f : Nat) (v : Reg32), s.chip.bellOk f = true ∧ (s.chip.chan f).dsHalt = 0 ∧ diff32 v.toNat (s.chip.chan f).dsC ≤ 2 ^
    (s.chip.chan f).dsK ∧ diff32 v.toNat (s.chip.chan f).dsC < diff32 (s.chip.chan f).dsP (s.chip.chan f).dsC) ∧
    (∃ (s : State) (f : Nat) (v : Reg32), s.chip.bellOk f = true ∧ (s.chip.chan f).cqHalt = 0 ∧ diff32 (s.chip.chan f).cqP v.toNat ≤ 2 ^
    (s.chip.chan f).cqK) ∧
    (∃ (s : State) (f : Nat), s.chip.bellOk f = true ∧ (s.chip.chan f).dsHalt ≠ 0 ∧ f ≠ stewardFn) ∧
    (∃ (s : State) (f : Nat), s.chip.bellOk f = true ∧ (s.chip.chan f).cqHalt ≠ 0 ∧ f ≠ stewardFn) ∧
    (∃ (s : State) (f : Nat) (v : Reg32), s.chip.bellOk f = true ∧ (s.chip.chan f).dsHalt = 0 ∧ v.getLsbD 0 = true) ∧
    (∃ (s : State) (f : Nat) (v : Reg32), ∃ n x, s.chip.bellOk f = true ∧ v.getLsbD 0 = true ∧ (s.chip.dma (s.chip.fnDie f)).xfers = [(n,
    x)] ∧ (s.chip.chan f).started.all (fun e => e.run) = true ∧ x.ofRing = true ∧ x.fn = f ∧ x.status = none ∧ (x.kind = .send ∨ x.kind =
    .copy) ∧ x.issued < x.total ∧ x.closed = false ∧ x.bad = none) ∧
    (∃ (s : State) (f : Nat), ∃ lo hi ps c' reqs, s.chip.fetches f = true ∧ (s.chip.chan f).fetch.open_ = 0 ∧ (s.chip.chan f).posted ≠ 0 ∧
    cacheSlots (s.chip.chan f).cache < 8 ∧ (((s.chip.chan f).fetch.held = 0 ∧ lo = 0 ∧ hi = 1) ∨ ((s.chip.chan f).fetch.held ≠ 0 ∧
    (s.chip.chan f).badFetch = false ∧ lo = 1 ∧ hi = entrySlots (s.chip.chan f).fetch.bytes ∧ hi ≤ (s.chip.chan f).posted ∧ (cacheSlots
    (s.chip.chan f).cache + hi ≤ 8 ∨ cacheSlots (s.chip.chan f).cache = 0))) ∧ Chip.xlateAll f (pieces 3 ((s.chip.chan f).dsBase + 32 *
    (((s.chip.chan f).fetchAt + lo) % 2 ^ (s.chip.chan f).dsK)) (32 * (hi - lo))) s.chip = (some ps, c') ∧ reqs = pieceReads (s.chip.fn
    (pfOfKey (s.chip.fnPci f))).mrrs (32 * lo) ps ∧ reqs.length ≤ (s.chip.freeTags (pfOfKey (s.chip.fnPci f)) reqs.length).length) ∧
    (∃ (s : State) (f : Nat), ∃ b rest, (s.chip.chan f).cache = b :: rest ∧ s.chip.runsRing f = true ∧ byteAt b 1 ≠ 0 ∧ s.chip.mayStart f b
    = true ∧ entryRefused b f (s.chip.chan f).ver = none) ∧
    (∃ (s : State) (f : Nat), ∃ b rest, (s.chip.chan f).cache = b :: rest ∧ s.chip.runsRing f = true ∧ byteAt b 1 = 0 ∧ s.chip.inOrder f b =
    true) ∧
    (∃ (s : State) (f : Nat), ∃ e, s.chip.toRun f 0x01 e) ∧
    (∃ (s : State) (f : Nat), ∃ e, s.chip.toRun f 0x03 e ∧ 64 ≤ leAt e.bytes 12 4 ∧ leAt e.bytes 12 4 ≤ 65536 ∧ s.chip.rxCount f < 4096) ∧
    (∃ (s : State) (f : Nat), ∃ c' a, s.chip.on (s.chip.fnDie f) 15 = true ∧ (s.chip.chan f).shadowDirty = true ∧ s.chip.fnMasters f = true
    ∧ (f = stewardFn ∨ ((s.chip.inst f).st ≠ .free ∧ (s.chip.inst f).st ≠ .resetting)) ∧ s.chip.translate f (s.chip.chan f).shadow true =
    (some a, c')) ∧
    (∃ (s : State) (f : Nat) (v : Reg32), s.chip.bellOk f = true ∧ v.getLsbD 0 = true ∧ (s.chip.chan f).pending = true) ∧
    (∃ (s : State) (f : Nat) (v : Reg32), s.chip.bellOk f = true ∧ v.getLsbD 0 = true ∧ (s.chip.chan f).pending = false) ∧
    (∃ (s : State) (f : Nat), s.chip.alive = true ∧ (s.chip.chan f).pending = true ∧ (s.chip.chan f).armed = true ∧ (s.chip.chan
    f).pendSince + 1000 * (s.chip.chan f).modTime ≤ s.chip.steady) :=
  ⟨⟨on tenant, 0, 64, by decide +kernel⟩,
   ⟨on (tenant.setChan 0 { tenant.chan 0 with dsP := 8 }), 0, 4, by decide +kernel⟩,
   ⟨on (tenant.setChan 0 { tenant.chan 0 with cqP := 64 }), 0, 0, by decide +kernel⟩,
   ⟨on (tenant.setChan 0 { tenant.chan 0 with dsHalt := 1 }), 0, by decide +kernel⟩,
   ⟨on (tenant.setChan 0 { tenant.chan 0 with cqHalt := 1 }), 0, by decide +kernel⟩,
   ⟨on tenant, 0, 1, by decide +kernel⟩,
   ⟨on (moving (xfer .copy 64 0 0)), 0, 1, 0, xfer .copy 64 0 0, by decide +kernel⟩,
   ⟨on ((moving (xfer .copy 64 0 0)).setChan 0 { tenant.chan 0 with dsP := 1, dsBase := 0x1000, shadow := 0x1008, shadowDirty := true }), 0, 0, 1, [(0x2000, 32)], (Chip.xlateAll 0 [(0x1000, 32)] ((moving (xfer .copy 64 0 0)).setChan 0 { tenant.chan 0 with dsP := 1, dsBase := 0x1000, shadow := 0x1008, shadowDirty := true })).2, [(0, 0x2000, 32)], by decide +kernel⟩,
   ⟨on (tenant.setChan 0 { tenant.chan 0 with cache := [entry 1 1 []] }), 0, entry 1 1 [], [], by decide +kernel⟩,
   ⟨on (tenant.setChan 0 { tenant.chan 0 with cache := [entry 1 0 []] }), 0, entry 1 0 [], [], by decide +kernel⟩,
   ⟨on (forVf tenant (todo (entry 1 1 []))), 0, todo (entry 1 1 []), by decide +kernel⟩,
   ⟨on (forVf tenant (todo (entry 1 3 [(12, 4, 64)]))), 0, todo (entry 1 3 [(12, 4, 64)]), by decide +kernel⟩,
   ⟨on ((moving (xfer .copy 64 0 0)).setChan 0 { tenant.chan 0 with dsP := 1, dsBase := 0x1000, shadow := 0x1008, shadowDirty := true }), 0, (((moving (xfer .copy 64 0 0)).setChan 0 { tenant.chan 0 with dsP := 1, dsBase := 0x1000, shadow := 0x1008, shadowDirty := true }).translate 0 0x1008 true).2, 0x2008, by decide +kernel⟩,
   ⟨on (tenant.setChan 0 { tenant.chan 0 with pending := true }), 0, 1, by decide +kernel⟩,
   ⟨on tenant, 0, 1, by decide +kernel⟩,
   ⟨on (tenant.setChan 0 { tenant.chan 0 with pending := true, armed := true }), 0, by decide +kernel⟩⟩

/-- The hypotheses of `Obligations.TransferRowsComplete`, clause by clause, are met. -/
theorem witness_TransferRowsComplete :
    (∃ (s : State) (f : Nat) (e : Started), s.chip.toRun f 0x02 e ∧ (s.chip.chan f).ver ≠ 1 ∧ 14 ≤ leAt e.bytes 12 4 ∧ leAt e.bytes 12 4 ≤
    16380 ∧ ((sendSegs e.bytes).map Prod.snd).sum = leAt e.bytes 12 4 ∧ (sendFields (slice e.bytes 16 16)).segEn = false ∧ (sendFields
    (slice e.bytes 16 16)).tsReq = false ∧ (sendFields (slice e.bytes 16 16)).refused (leAt e.bytes 12 4) = false) ∧
    (∃ (s : State) (f : Nat) (e : Started), s.chip.toRun f 0x04 e ∧ 0 < leAt e.bytes 12 4 ∧ leAt e.bytes 12 4 ≤ 16777216) ∧
    (∃ (s : State) (f : Nat) (e : Started), s.chip.toRun f 0x09 e ∧ byteAt e.bytes 9 % 8 ∉ [0, 6, 7]) ∧
    (∃ (s : State), ∃ die n x, s.chip.on die 15 = true ∧ nextServed ((s.chip.dma die).xfers.filter (s.chip.readReady die)) (s.chip.dma
    die).lastRead = some (n, x)) ∧
    (∃ (s : State), ∃ die n x, s.chip.on die 15 = true ∧ (∀ y ∈ (s.chip.dma die).xfers, s.chip.writeReady die y = true → byteAt y.2.ent 1 ≠
    0x56) ∧ nextServed ((s.chip.dma die).xfers.filter (s.chip.writeReady die)) (s.chip.dma die).lastWrite = some (n, x)) ∧
    (∃ (s : State), ∃ port link tag x d n, ∃ (burst : Nat), s.chip.linkUp port link = true ∧ (s.chip.tag (tagKey port link tag)).st =
    .outstanding ∧ (s.chip.tag (tagKey port link tag)).poisoned = false ∧ (s.chip.tag (tagKey port link tag)).use = .xfer d n burst ∧
    s.chip.xfer d n = some x) ∧
    (∃ (s : State), ∃ port link tag gen, s.chip.linkUp port link = true ∧ (s.chip.tag (tagKey port link tag)).st = .outstanding ∧
    (s.chip.tag (tagKey port link tag)).poisoned = false ∧ (s.chip.tag (tagKey port link tag)).use = .fetch gen) ∧
    (∃ (s : State), ∃ port link tag, s.chip.alive = true ∧ (s.chip.tag (tagKey port link tag)).st = .outstanding ∧ 9 * (s.chip.tag (tagKey
    port link tag)).limit ≤ 10 * (s.chip.steady - (s.chip.tag (tagKey port link tag)).since) ∧ (s.chip.tag (tagKey port link tag)).poisoned
    = false ∧ s.chip.fld (port / 4) R.hepQuarHold 0 16 = 0) ∧
    (∃ (s : State), ∃ port link tag, s.chip.alive = true ∧ (s.chip.tag (tagKey port link tag)).st = .held ∧ s.chip.fld (port / 4)
    R.hepQuarHold 0 16 * 1000000 ≤ s.chip.steady - (s.chip.tag (tagKey port link tag)).since) ∧
    (∃ (s : State), ∃ die n x t, s.chip.alive = true ∧ s.chip.xfer die n = some x ∧ x.kind ≠ .job ∧ s.chip.endWaits die x = false ∧
    s.chip.xferEnd die x = some t) :=
  ⟨⟨on (forVf tenant (todo (entry 2 0x02 [(12, 4, 60), (32, 8, 0x1000), (40, 4, 60)]))), 0, todo (entry 2 0x02 [(12, 4, 60), (32, 8, 0x1000), (40, 4, 60)]), by decide +kernel⟩,
   ⟨on (forVf tenant (todo (entry 1 0x04 [(12, 4, 0x1000000)]))), 0, todo (entry 1 0x04 [(12, 4, 0x1000000)]), by decide +kernel⟩,
   ⟨on (forVf tenant (todo (entry 2 0x09 [(9, 1, 5)]))), 0, todo (entry 2 0x09 [(9, 1, 5)]), by decide +kernel⟩,
   ⟨on (moving (xfer .copy 64 0 0)), 0, 0, xfer .copy 64 0 0, by decide +kernel⟩,
   ⟨on (moving ({ xfer .copy 64 64 0 with outs := [(0x2000, [1#8])] })), 0, 0, { xfer .copy 64 64 0 with outs := [(0x2000, [1#8])] }, by decide +kernel⟩,
   ⟨on ((moving (xfer .copy 64 0 0)).setTag (tagKey 0 0 5) { Tag.none with st := .outstanding, use := .xfer 0 0 0 }), 0, 0, 5, xfer .copy 64 0 0, 0, 0, 0, by decide +kernel⟩,
   ⟨on (tenant.setTag (tagKey 0 0 5) { Tag.none with st := .outstanding }), 0, 0, 5, 0, by decide +kernel⟩,
   ⟨on ((tenant.setTag (tagKey 0 0 5) { Tag.none with st := .outstanding }).wr 0 R.hepQuarHold 0), 0, 0, 5, by decide +kernel⟩,
   ⟨on ((tenant.wr 0 R.hepQuarHold 0).setTag (tagKey 0 0 5) { Tag.none with st := .held }), 0, 0, 5, by decide +kernel⟩,
   ⟨on (moving (xfer .copy 64 64 64)), 0, 0, xfer .copy 64 64 64, St.ok, by decide +kernel⟩⟩

/-- The hypotheses of `Obligations.InstanceRowsComplete`, clause by clause, are met. -/
theorem witness_InstanceRowsComplete :
    (∃ (s : State) (e : Started) (i : Nat), leAt e.bytes 8 2 = i ∧ i < 512 * s.chip.dies ∧ (s.chip.markRun stewardFn e.seq).createFails
    e.bytes = none ∧ s.chip.toRun stewardFn 0x50 e) ∧
    (∃ (s : State) (e : Started) (i : Nat), leAt e.bytes 8 2 = i ∧ i < 512 * s.chip.dies ∧ s.chip.toRun stewardFn 0x51 e ∧ (s.chip.inst
    i).st ≠ .free) ∧
    (∃ (s : State) (e : Started) (i : Nat), leAt e.bytes 8 2 = i ∧ i < 512 * s.chip.dies ∧ s.chip.toRun stewardFn 0x52 e ∧ (s.chip.inst
    i).st = .active) ∧
    (∃ (s : State) (e : Started) (i : Nat), ∃ d, leAt e.bytes 8 2 = i ∧ i < 512 * s.chip.dies ∧ s.chip.alive = true ∧ (s.chip.inst i).st =
    .resetting ∧ (s.chip.inst i).destroying = d) ∧
    (∃ (s : State) (e : Started) (i : Nat), ∃ new, leAt e.bytes 8 2 = i ∧ i < 512 * s.chip.dies ∧ s.chip.toRun stewardFn 0x53 e ∧
    (s.chip.inst i).st = .active ∧ mapFails (s.chip.inst i).leaves (mapArgs e.bytes) true = none ∧ new = replaceRange (s.chip.inst i).leaves
    (rangeLeaves (mapArgs e.bytes).size (mapArgs e.bytes).first (mapArgs e.bytes).count (mapArgs e.bytes).bus (bitN (byteAt e.bytes 11) 0)
    (bitN (byteAt e.bytes 11) 1)) (mapArgs e.bytes).first (mapArgs e.bytes).stop ∧ tablePages new ≤ (s.chip.inst i).quota) ∧
    (∃ (s : State) (e : Started) (i : Nat), leAt e.bytes 8 2 = i ∧ i < 512 * s.chip.dies ∧ s.chip.toRun stewardFn 0x54 e ∧ (s.chip.inst
    i).st = .active ∧ mapFails (s.chip.inst i).leaves (mapArgs e.bytes) false = none) ∧
    (∃ (s : State) (e : Started) (i : Nat), leAt e.bytes 8 2 = i ∧ i < 512 * s.chip.dies ∧ s.chip.alive = true ∧ s.chip.mapWait = true ∧ (∀
    t ∈ s.chip.tags, t.2.fn = i → t.2.st ≠ .outstanding ∧ t.2.st ≠ .quarantined) ∧ ((s.chip.chan stewardFn).started.find? fun e => e.run &&
    e.recs.isNone && [0x53, 0x54].contains (byteAt e.bytes 1)) = some e) ∧
    (∃ (s : State) (e : Started) (i : Nat), leAt e.bytes 8 2 = i ∧ i < 512 * s.chip.dies ∧ s.chip.toRun stewardFn 0x55 e ∧ (s.chip.inst
    i).st = .active ∧ 0 < leAt e.bytes 12 4 ∧ leAt e.bytes 12 4 ≤ 1024 ∧ leAt e.bytes 16 8 % 2 ^ 30 = 0 ∧ (∀ o ∈ s.chip.insts, o.1 ≠ i →
    o.2.tracking = none)) ∧
    (∃ (s : State) (e : Started) (i : Nat), ∃ t, leAt e.bytes 8 2 = i ∧ i < 512 * s.chip.dies ∧ s.chip.toRun stewardFn 0x56 e ∧ (s.chip.inst
    i).st = .active ∧ (s.chip.inst i).tracking = some t ∧ t.outOfRange = false ∧ leAt e.bytes 16 8 % 4096 = 0) ∧
    (∃ (s : State) (e : Started) (i : Nat), ∃ t, leAt e.bytes 8 2 = i ∧ i < 512 * s.chip.dies ∧ s.chip.toRun stewardFn 0x57 e ∧ (s.chip.inst
    i).st = .active ∧ (s.chip.inst i).tracking = some t) ∧
    (∃ (s : State) (e : Started) (i : Nat), leAt e.bytes 8 2 = i ∧ i < 512 * s.chip.dies ∧ s.chip.toRun stewardFn 0x58 e ∧ (s.chip.inst
    i).st = .active) ∧
    (∃ (s : State) (e : Started) (i : Nat), leAt e.bytes 8 2 = i ∧ i < 512 * s.chip.dies ∧ s.chip.alive = true ∧ (s.chip.inst i).freezing =
    true ∧ (s.chip.inst i).st = .active ∧ s.chip.idle i = true) ∧
    (∃ (s : State) (e : Started) (i : Nat), leAt e.bytes 8 2 = i ∧ i < 512 * s.chip.dies ∧ s.chip.toRun stewardFn 0x59 e ∧ (s.chip.inst
    i).st = .frozen) :=
  ⟨⟨on (forStw live (todo (entry 4 0x50 [(8, 2, 1), (12, 2, 1), (16, 1, 1), (17, 1, 2), (18, 1, 6), (19, 1, 6), (24, 8, 0x4000), (32, 8, 0x5000), (48, 2, 9), (50, 2, 4)]))), todo (entry 4 0x50 [(8, 2, 1), (12, 2, 1), (16, 1, 1), (17, 1, 2), (18, 1, 6), (19, 1, 6), (24, 8, 0x4000), (32, 8, 0x5000), (48, 2, 9), (50, 2, 4)]), 1, by decide +kernel⟩,
   ⟨on (forStw tenant (todo (entry 1 0x51 []))), todo (entry 1 0x51 []), 0, by decide +kernel⟩,
   ⟨on (forStw tenant (todo (entry 1 0x52 []))), todo (entry 1 0x52 []), 0, by decide +kernel⟩,
   ⟨on (tenant.setInst 0 { inst0 with st := .resetting }), todo (entry 1 0x51 []), 0, false, by decide +kernel⟩,
   ⟨on (forStw tenant (todo (entry 1 0x53 [(8, 2, 0), (11, 1, 3), (12, 4, 1), (16, 8, 0x1000), (24, 8, 0x2000)]))), todo (entry 1 0x53 [(8, 2, 0), (11, 1, 3), (12, 4, 1), (16, 8, 0x1000), (24, 8, 0x2000)]), 0, _, by decide +kernel, by decide +kernel, by decide +kernel, by decide +kernel, by decide +kernel, rfl, by decide +kernel⟩,
   ⟨on (forStw tenant (todo (entry 1 0x54 [(12, 4, 1048576)]))), todo (entry 1 0x54 [(12, 4, 1048576)]), 0, by decide +kernel⟩,
   ⟨on (forStw { tenant with mapWait := true } ⟨0, 0, entry 1 0x53 [], true, none, [], none⟩), ⟨0, 0, entry 1 0x53 [], true, none, [], none⟩, 0, by decide +kernel⟩,
   ⟨on (forStw tenant (todo (entry 1 0x55 [(12, 4, 1024)]))), todo (entry 1 0x55 [(12, 4, 1024)]), 0, by decide +kernel⟩,
   ⟨on (forStw (tenant.setInst 0 { inst0 with tracking := some ⟨0, 0, [], false⟩ }) (todo (entry 1 0x56 [(16, 8, 0x1000)]))), todo (entry 1 0x56 [(16, 8, 0x1000)]), 0, ⟨0, 0, [], false⟩, by decide +kernel⟩,
   ⟨on (forStw (tenant.setInst 0 { inst0 with tracking := some ⟨0, 0, [], false⟩ }) (todo (entry 1 0x57 []))), todo (entry 1 0x57 []), 0, ⟨0, 0, [], false⟩, by decide +kernel⟩,
   ⟨on (forStw tenant (todo (entry 1 0x58 []))), todo (entry 1 0x58 []), 0, by decide +kernel⟩,
   ⟨on (tenant.setInst 0 { inst0 with freezing := true }), todo (entry 1 0x58 []), 0, by decide +kernel⟩,
   ⟨on (forStw (tenant.setInst 0 { inst0 with st := .frozen }) (todo (entry 1 0x59 []))), todo (entry 1 0x59 []), 0, by decide +kernel⟩⟩

/-- The hypotheses of `Obligations.MigrationCompletes`, clause by clause, are met. -/
theorem witness_MigrationCompletes :
    (∃ (s : State) (e : Started) (i : Nat), ∃ blob, leAt e.bytes 8 2 = i ∧ i < 512 * s.chip.dies ∧ s.chip.toRun stewardFn 0x5A e ∧
    (s.chip.inst i).st = .frozen ∧ byteAt e.bytes 10 ≤ 2 ∧ blob = (s.chip.markRun stewardFn e.seq).blob s.root.fuses.kekSeed i (if byteAt
    e.bytes 10 = 0 then 2 else byteAt e.bytes 10) (slice (slice e.bytes 24 136) 8 64) ∧ beAt (slice e.bytes 24 136) 0 2 = stewardFn) ∧
    (∃ (s : State) (e : Started) (i : Nat), leAt e.bytes 8 2 = i ∧ i < 512 * s.chip.dies ∧ s.chip.toRun stewardFn 0x5B e ∧ s.chip.blobRead =
    none ∧ (s.chip.inst i).takesBlob = true) ∧
    (∃ (s : State) (e : Started) (i : Nat), ∃ n x b, leAt e.bytes 8 2 = i ∧ i < 512 * s.chip.dies ∧ s.chip.alive = true ∧ s.chip.blobRead =
    some (n, x) ∧ ((s.chip.chan stewardFn).started.find? fun o => o.seq == x.index) = some e ∧ leAt x.ent 8 2 = i ∧ b = x.prefixData ∧
    (s.chip.inst i).takesBlob = true ∧ byteAt b 4 = 1 ∧ beAt b 0 4 = 0x4C4D4947 ∧ beAt b 12 4 ≤ b.length ∧ 164 ≤ beAt b 12 4) :=
  ⟨⟨on (forStw (tenant.setInst 0 { inst0 with st := .frozen }) (todo (entry 7 0x5A [(24, 2, 16)]))), todo (entry 7 0x5A [(24, 2, 16)]), 0, _, by decide +kernel, by decide +kernel, by decide +kernel, by decide +kernel, by decide +kernel, rfl, by decide +kernel⟩,
   ⟨on (forStw tenant (todo (entry 1 0x5B [(12, 4, 164)]))), todo (entry 1 0x5B [(12, 4, 164)]), 0, by decide +kernel⟩,
   ⟨on ((forStw tenant ⟨0, 0, entry 1 0x5B [], true, none, [], none⟩).setDma 0 { DieDma.none with xfers := [(0, { Xfer.fresh stewardFn 0 (entry 1 0x5B []) .restore [(0x1000, 164)] with bursts := [⟨0, 164, toBE 4 0x4C4D4947 ++ [1#8] ++ List.replicate 7 0#8 ++ toBE 4 164 ++ List.replicate 148 0#8, 0, false, false⟩], issued := 164, total := 164 })] }), ⟨0, 0, entry 1 0x5B [], true, none, [], none⟩, 0, 0, { Xfer.fresh stewardFn 0 (entry 1 0x5B []) .restore [(0x1000, 164)] with bursts := [⟨0, 164, toBE 4 0x4C4D4947 ++ [1#8] ++ List.replicate 7 0#8 ++ toBE 4 164 ++ List.replicate 148 0#8, 0, false, false⟩], issued := 164, total := 164 }, toBE 4 0x4C4D4947 ++ [1#8] ++ List.replicate 7 0#8 ++ toBE 4 164 ++ List.replicate 148 0#8, by decide +kernel⟩⟩

/-- The hypotheses of `Obligations.HostRowsComplete`, clause by clause, are met. -/
theorem witness_HostRowsComplete :
    (∃ (s : State) (fn : FnId), s.chip.fnThere fn = true ∧ (s.chip.fn (fnKey fn)).bme = true) ∧
    (∃ (s : State) (fn : FnId), s.chip.fnThere fn = true ∧ (s.chip.fn (fnKey fn)).bme = false) ∧
    (∃ (s : State) (fn : FnId), s.chip.fnThere fn = true ∧ (s.chip.fn (fnKey fn)).d3 = false) ∧
    (∃ (s : State) (fn : FnId), s.chip.fnThere fn = true ∧ (s.chip.fn (fnKey fn)).d3 = true) ∧
    (∃ (s : State) (port : Nat) (link : Nat) (vf : Nat), ∃ i, s.chip.fnThere (.vf port link vf) = true ∧ s.chip.instOfVf port link vf = some
    i) ∧
    (∃ (s : State) (port : Nat) (link : Nat), ∃ speed width flit, s.chip.mayTrain port link = true ∧ link < 2 ∧ s.chip.linkFits port speed
    width flit = true) ∧
    (∃ (s : State) (port : Nat) (link : Nat), s.chip.fnThere (.pf port link) = true ∧ (s.chip.fn (fnKey (.pf port link))).vfEnable = true) ∧
    (∃ (s : State) (port : Nat) (link : Nat), ∃ n, s.chip.fnThere (.pf port link) = true ∧ n ≤ s.chip.totalVfs port link ∧ (s.chip.fn (fnKey
    (.pf port link))).vfEnable = false) ∧
    (∃ (s : State) (fn : FnId) (v : Nat), s.chip.fnThere fn = true ∧ v < tableVectors fn ∧ v ∉ (s.chip.fn (fnKey fn)).unmasked) ∧
    (∃ (s : State) (port : Nat) (link : Nat) (cause : LinkResetCause), cause ≠ .perst ∧ s.chip.alive = true ∧ s.chip.hasDie (port / 4) =
    true ∧ s.chip.hasLink port link = true) ∧
    (∃ (s : State) (port : Nat), s.chip.alive = false ∧ s.chip.hasDie (port / 4) = true ∧ s.chip.recovering = false ∧ port ∉
    s.chip.pwr.perst) ∧
    (∃ (s : State) (port : Nat), s.chip.alive = true ∧ s.chip.hasDie (port / 4) = true ∧ s.chip.recovering = false ∧ port ∉
    s.chip.pwr.perst) :=
  ⟨⟨on live, .vf 0 0 0, by decide +kernel⟩,
   ⟨on live, .vf 0 0 3, by decide +kernel⟩,
   ⟨on live, .pf 0 0, by decide +kernel⟩,
   ⟨on { live with fns := [(0, { PciFn.reset with d3 := true })] }, .pf 0 0, by decide +kernel⟩,
   ⟨on tenant, 0, 0, 0, 0, by decide +kernel⟩,
   ⟨on live, 0, 0, 1, 8, false, by decide +kernel⟩,
   ⟨on live, 0, 0, by decide +kernel⟩,
   ⟨on { live with fns := [(0, { PciFn.reset with bme := true })] }, 0, 0, 0, by decide +kernel⟩,
   ⟨on live, .pf 0 0, 2047, by decide +kernel⟩,
   ⟨on live, 0, 0, .hotReset, by decide +kernel⟩,
   ⟨on { live with pwr := Power.powerOn }, 0, by decide +kernel⟩,
   ⟨on live, 0, by decide +kernel⟩⟩

/-- The hypotheses of `Obligations.NeighbourRowsComplete`, clause by clause, are met. -/
theorem witness_NeighbourRowsComplete :
    (∃ (s : State), ∃ d, s.chip.on d 16 = true ∧ tget 0 s.chip.sp.helloAt d + s.chip.fld d R.spnHello 0 14 * 1000000 ≤ s.chip.steady) ∧
    (∃ (s : State) (lane : Nat) (b : Bytes) (q : Chip), s.chip.hspTaken lane b q ∧ (Hsp.ofFrame b).typ = 1 ∧ byteAt b 16 = 1 ∧ (s.chip.neigh
    lane).minV = byteAt (Hsp.ofFrame b).body 0 ∧ (s.chip.neigh lane).maxV = byteAt (Hsp.ofFrame b).body 1) ∧
    (∃ (s : State) (lane : Nat), s.chip.on (lane / 64) 16 = true ∧ (s.chip.neigh lane).heardAt + (s.chip.neigh lane).interval *
    (s.chip.neigh lane).mult * 1000000 ≤ s.chip.steady) ∧
    (∃ (s : State) (lane : Nat) (b : Bytes) (q : Chip), s.chip.hspTaken lane b q ∧ (Hsp.ofFrame b).typ = 2 ∧ byteAt b 16 = 2 ∧ (Hsp.ofFrame
    b).seq = wrapAdd 32 (s.chip.neigh lane).seqRx 1 ∧ q.installs lane = true) ∧
    (∃ (s : State) (lane : Nat) (b : Bytes) (q : Chip), s.chip.hspTaken lane b q ∧ (Hsp.ofFrame b).typ = 3 ∧ byteAt b 16 = 3) ∧
    (∃ (s : State) (lane : Nat), ∃ seq evs l, s.chip.on (lane / 64) 16 = true ∧ (s.chip.neigh lane).st = .up ∧ (s.chip.neigh lane).unacked =
    (seq, evs) :: l ∧ (s.chip.neigh lane).resent + 1000000 ≤ s.chip.steady) ∧
    (∃ (s : State), ∃ e out, s.chip.toRun stewardFn 0x61 e ∧ out = ((s.chip.markRun stewardFn e.seq).lanes.filter fun l => (s.chip.markRun
    stewardFn e.seq).spanPort l).flatMap (s.chip.markRun stewardFn e.seq).neighEntry ∧ out.length ≤ leAt e.bytes 12 4) ∧
    (∃ (s : State) (lane : Nat), ∃ e, s.chip.toRun stewardFn 0x62 e ∧ s.chip.en 0 16 = true ∧ leAt e.bytes 8 2 = lane ∧ lane ≠ 0xFFFF ∧
    s.chip.spanPort lane = true ∧ (s.chip.neigh lane).st = .up) :=
  ⟨⟨on (later spanned 1000000000), 0, by decide +kernel⟩,
   ⟨on spanned, 0, hsp 1 1, spanned.count 0 (R.spnEvtCnt 0), by decide +kernel⟩,
   ⟨on spanned, 0, by decide +kernel⟩,
   ⟨on spanned, 0, hsp 2 1, spanned.count 0 (R.spnEvtCnt 0), by decide +kernel⟩,
   ⟨on spanned, 0, hsp 3 1, spanned.count 0 (R.spnEvtCnt 0), by decide +kernel⟩,
   ⟨on (later spanned 1000000), 0, 1, [], [], by decide +kernel⟩,
   ⟨on (forStw spanned (todo (entry 1 0x61 [(12, 4, 64)]))), todo (entry 1 0x61 [(12, 4, 64)]), _, by decide +kernel, rfl, by decide +kernel⟩,
   ⟨on (forStw spanned (todo (entry 1 0x62 []))), 0, todo (entry 1 0x62 []), by decide +kernel⟩⟩

/-- The hypotheses of `Obligations.BarrierRowsComplete`, clause by clause, are met. -/
theorem witness_BarrierRowsComplete :
    (∃ (s : State), ∃ e, s.chip.toRun stewardFn 0x60 e ∧ s.chip.en 0 16 = true ∧ leAt e.bytes 12 2 ≤ 16383 ∧ 0 < leAt e.bytes 14 2 ∧ leAt
    e.bytes 14 2 ≤ 16384 ∧ 0 < leAt e.bytes 16 2 ∧ s.chip.commit.barrier = false) ∧
    (∃ (s : State), ∃ g, ∃ (w : Wave), s.chip.alive = true ∧ s.chip.sp.barrier.using_ = some g ∧ s.chip.commit.phase = .barrier ∧ g.coord =
    s.chip.spanDevice ∧ s.chip.sp.barrier.wave = none ∧ w = ⟨g.coord, g.id, (s.chip.slot s.chip.commit.slot).epoch, g.count, none,
    s.chip.waveLanes, 0, 0, false, s.chip.steady, g.limit⟩) ∧
    (∃ (s : State) (lane : Nat) (b : Bytes) (q : Chip) (w : Wave), s.chip.hspTaken lane b q ∧ (Hsp.ofFrame b).typ = 4 ∧ byteAt b 16 = 4 ∧
    (q.neigh lane).inWave = true ∧ q.sp.barrier.past = [] ∧ q.sp.barrier.wave = none ∧ w = ⟨beAt (Hsp.ofFrame b).body 0 2, beAt (Hsp.ofFrame
    b).body 4 4, beAt (Hsp.ofFrame b).body 8 2, beAt (Hsp.ofFrame b).body 10 2, some lane, q.waveLanes.filter (· != lane), 0, 0, false,
    q.steady, ((q.memberOf (beAt (Hsp.ofFrame b).body 4 4)).map BarGroup.limit).getD 0⟩) ∧
    (∃ (s : State) (lane : Nat) (b : Bytes) (q : Chip), s.chip.hspTaken lane b q ∧ (Hsp.ofFrame b).typ = 5 ∧ byteAt b 16 = 5 ∧ (q.neigh
    lane).inWave = true ∧ q.sp.barrier.past = [] ∧ q.inWave (beAt (Hsp.ofFrame b).body 0 2) (beAt (Hsp.ofFrame b).body 4 4) = true) ∧
    (∃ (s : State) (lane : Nat) (b : Bytes) (q : Chip), ∃ coord id, s.chip.hspTaken lane b q ∧ (Hsp.ofFrame b).typ = 6 ∧ byteAt b 16 = 6 ∧
    (q.neigh lane).inWave = true ∧ q.sp.barrier.past = [] ∧ beAt (Hsp.ofFrame b).body 0 2 = coord ∧ beAt (Hsp.ofFrame b).body 4 4 = id ∧ 4 ≤
    (q.neigh lane).version) ∧
    (∃ (s : State) (lane : Nat) (b : Bytes) (q : Chip), ∃ coord id, s.chip.hspTaken lane b q ∧ (Hsp.ofFrame b).typ = 6 ∧ byteAt b 16 = 6 ∧
    (q.neigh lane).inWave = true ∧ q.sp.barrier.past = [] ∧ beAt (Hsp.ofFrame b).body 0 2 = coord ∧ beAt (Hsp.ofFrame b).body 4 4 = id ∧
    (q.neigh lane).version < 4) ∧
    (∃ (s : State) (lane : Nat) (b : Bytes) (q : Chip), ∃ coord id, s.chip.hspTaken lane b q ∧ (Hsp.ofFrame b).typ = 7 ∧ byteAt b 16 = 7 ∧
    (q.neigh lane).inWave = true ∧ q.sp.barrier.past = [] ∧ beAt (Hsp.ofFrame b).body 0 2 = coord ∧ beAt (Hsp.ofFrame b).body 4 4 = id) ∧
    (∃ (s : State) (w : Wave), s.chip.alive = true ∧ s.chip.sp.barrier.wave = some w ∧ w.parent = none ∧ w.begun + w.limit ≤ s.chip.steady) ∧
    (∃ (s : State), ∃ g, s.chip.alive = true ∧ s.chip.sp.barrier.using_ = some g ∧ s.chip.commit.phase = .barrier ∧
    s.chip.sp.barrier.stalled = false ∧ ((∃ w, s.chip.sp.barrier.wave = some w ∧ w.id = g.id ∧ w.parent.isSome = true ∧ w.echoed = true ∧
    w.begun + g.timeout * 1000000 ≤ s.chip.steady) ∨ (∃ t, (∀ w, s.chip.sp.barrier.wave = some w → w.id ≠ g.id) ∧ s.chip.sp.barrier.ready =
    some t ∧ t + g.timeout * 1000000 ≤ s.chip.steady))) ∧
    (∃ (s : State) (m : Master) (v : Reg32), s.reaches m 0 16 ∧ v.getLsbD 0 = true ∧ s.chip.commit.barrier = true ∧ s.chip.commit.phase =
    .barrier) ∧
    (∃ (s : State) (m : Master) (v : Reg32), s.reaches m 0 16 ∧ v.getLsbD 0 = true ∧ s.chip.commit.barrier = false ∧
    s.chip.sp.barrier.group.isSome = true) :=
  ⟨⟨on (forStw live (todo (entry 1 0x60 [(12, 2, 16383), (14, 2, 16384), (16, 2, 1)]))), todo (entry 1 0x60 [(12, 2, 16383), (14, 2, 16384), (16, 2, 1)]), by decide +kernel⟩,
   ⟨on (inBarrier none 0), group0, _, by decide +kernel, by decide +kernel, by decide +kernel, by decide +kernel, by decide +kernel, rfl⟩,
   ⟨on (inBarrier none 0), 0, hsp 4 1, (inBarrier none 0).count 0 (R.spnEvtCnt 0), _, by decide +kernel, by decide +kernel, by decide +kernel, by decide +kernel, by decide +kernel, by decide +kernel, rfl⟩,
   ⟨on (inBarrier (some (wave0 none false)) 0), 0, hsp 5 1, (inBarrier (some (wave0 none false)) 0).count 0 (R.spnEvtCnt 0), by decide +kernel⟩,
   ⟨on ({ inBarrier (some (wave0 none false)) 0 with sp := { (inBarrier (some (wave0 none false)) 0).sp with neigh := [(0, { Neigh.none with st := .up, version := 4, device := 2, unacked := [(1, [])] })] } }), 0, hspv 4 6, ({ inBarrier (some (wave0 none false)) 0 with sp := { (inBarrier (some (wave0 none false)) 0).sp with neigh := [(0, { Neigh.none with st := .up, version := 4, device := 2, unacked := [(1, [])] })] } }).count 0 (R.spnEvtCnt 0), 0, 0, by decide +kernel⟩,
   ⟨on ({ inBarrier (some (wave0 none false)) 0 with sp := { (inBarrier (some (wave0 none false)) 0).sp with neigh := [(0, { Neigh.none with st := .up, version := 3, device := 2, unacked := [(1, [])] })] } }), 0, hspv 3 6, ({ inBarrier (some (wave0 none false)) 0 with sp := { (inBarrier (some (wave0 none false)) 0).sp with neigh := [(0, { Neigh.none with st := .up, version := 3, device := 2, unacked := [(1, [])] })] } }).count 0 (R.spnEvtCnt 0), 0, 0, by decide +kernel⟩,
   ⟨on (inBarrier (some (wave0 none false)) 0), 0, hsp 7 1, (inBarrier (some (wave0 none false)) 0).count 0 (R.spnEvtCnt 0), 0, 0, by decide +kernel⟩,
   ⟨on (inBarrier (some (wave0 none false)) 100000000), wave0 none false, by decide +kernel⟩,
   ⟨on (inBarrier (some (wave0 (some 0) true)) 100000000), group0, by decide +kernel, by decide +kernel, by decide +kernel, by decide +kernel, .inl ⟨wave0 (some 0) true, by decide +kernel⟩⟩,
   ⟨on (inBarrier none 0), .tether, 1, by decide +kernel⟩,
   ⟨on { live with sp := { Span.reset with barrier := { Barrier.none with group := some group0 } } }, .tether, 1, by decide +kernel⟩⟩

/-- The hypotheses of `Obligations.FaultRowsComplete`, clause by clause, are met. -/
theorem witness_FaultRowsComplete :
    (∃ (s : State) (d : Nat) (port : Nat), s.chip.alive = true ∧ s.chip.hasDie d = true ∧ port < 7 ∧ s.chip.culUp d port = true) ∧
    (∃ (s : State) (d : Nat) (port : Nat), s.chip.alive = true ∧ (d * 8 + port) ∈ s.chip.culTrain) ∧
    (∃ (s : State) (d : Nat), s.chip.alive = true ∧ s.chip.hasDie d = true ∧ s.chip.bit d R.fltScrubCtrl 1 = true) ∧
    (∃ (s : State) (d : Nat), s.chip.alive = true ∧ s.chip.hasDie d = true ∧ s.chip.bit d R.fltScrubCtrl 0 = true ∧ tget 0
    s.chip.faults.hbmPos d + 1 < 36 * 2 ^ 23 ∧ bitN s.chip.faults.hbmLate d = false) ∧
    (∃ (s : State), ∃ g, s.chip.faults.ring = some g ∧ s.chip.faults.unsignalled = true ∧ s.chip.faults.prod ≠ s.chip.faults.cons ∧ (∀ t,
    s.chip.faults.lastMsg = some t → t + 10000 ≤ s.chip.steady) ∧ s.chip.alive = true ∧ s.chip.tetherUp = true) ∧
    (∃ (s : State), s.chip.pwr.aux = true ∧ s.chip.pwr.inReset = false) ∧
    (∃ (s : State) (d : Nat) (port : Nat) (m : Master) (v : Reg32), s.reaches m d 19 ∧ v.getLsbD 31 = true ∧ bitsN v.toNat 0 3 = port ∧ port
    < 7 ∧ s.chip.culUp d port = false) ∧
    (∃ (s : State) (d : Nat) (m : Master) (v : Reg32), s.reaches m d 19 ∧ v.getLsbD 2 = true) ∧
    (∃ (s : State) (d : Nat) (m : Master) (v : Reg32), s.reaches m d 19 ∧ v.getLsbD 30 = true) ∧
    (∃ (s : State) (m : Master) (v : Reg32), s.reaches m 0 19 ∧ diff32 s.chip.faults.prod v.toNat ≤ diff32 s.chip.faults.prod
    s.chip.faults.cons) ∧
    (∃ (s : State) (m : Master) (v : Reg32), s.reaches m 0 19 ∧ diff32 s.chip.faults.prod s.chip.faults.cons < diff32 s.chip.faults.prod
    v.toNat) :=
  ⟨⟨on live, 0, 6, by decide +kernel⟩,
   ⟨on { live with culTrain := [8] }, 1, 0, by decide +kernel⟩,
   ⟨on (live.wr 0 R.fltScrubCtrl 2), 0, by decide +kernel⟩,
   ⟨on (live.wr 0 R.fltScrubCtrl 1), 0, by decide +kernel⟩,
   ⟨on { live with faults := { Faults.none with ring := some ⟨0, 6, 0⟩, unsignalled := true, prod := 1 } }, ⟨0, 6, 0⟩, by decide +kernel, by decide +kernel, by decide +kernel, nofun, by decide +kernel⟩,
   ⟨on live, by decide +kernel⟩,
   ⟨on { live with culDown := [6] }, 0, 6, .tether, 0x80000006, by decide +kernel⟩,
   ⟨on live, 0, .tether, 4, by decide +kernel⟩,
   ⟨on live, 0, .tether, 0x40000000, by decide +kernel⟩,
   ⟨on { live with faults := { Faults.none with prod := 1 } }, .tether, 1, by decide +kernel⟩,
   ⟨on { live with faults := { Faults.none with prod := 1 } }, .tether, 2, by decide +kernel⟩⟩

/-- The hypotheses of `Obligations.ReportRowsComplete`, clause by clause, are met. -/
theorem witness_ReportRowsComplete :
    (∃ (s : State), ∃ e, s.chip.toRun stewardFn 0x68 e ∧ 6 ≤ byteAt e.bytes 16 ∧ byteAt e.bytes 16 ≤ 16 ∧ ringAligned (leAt e.bytes 8 8) 32
    (byteAt e.bytes 16) = true) ∧
    (∃ (s : State), ∃ e, s.chip.toRun stewardFn 0x69 e) ∧
    (∃ (s : State), ∃ e, s.chip.toRun stewardFn 0x6A e ∧ s.chip.verdictFails e.bytes = none) ∧
    (∃ (s : State), ∃ e, s.chip.toRun stewardFn 0x6B e) ∧
    (∃ (s : State), s.chip.alive = true ∧ (∀ d ∈ s.chip.allDies, s.chip.reach d 0 = true) ∧ s.chip.cfg.slot < s.chip.steady / sweepNs ∧
    s.chip.cfg.busy = false ∧ s.chip.cfg.waitNext = false ∧ s.chip.cfg.refParts ≠ [] ∧ s.chip.cfg.refParts = s.chip.sweep.sweepParts ∧
    s.chip.cfg.ref = s.chip.sweep.sweepResult) ∧
    (∃ (s : State), ∃ d, ∃ (a : RegAddr), s.chip.gateOpen d a.blk = true) ∧
    (∃ (s : State), ∃ x, s.chip.gateOfBar4 x = false) ∧
    (∃ (s : State), s.chip.alive = true ∧ s.chip.cfg.hold = true ∧ s.chip.cfg.holdLong = false ∧ s.chip.cfg.holdAt + 1000000000 ≤
    s.chip.steady) ∧
    (∃ (s : State) (m : Master) (v : Reg32), s.reaches m 0 32 ∧ v.getLsbD 1 = true ∧ s.chip.cfg.busy = false) :=
  ⟨⟨on (forStw live (todo (entry 1 0x68 [(8, 8, 0x1000), (16, 1, 16)]))), todo (entry 1 0x68 [(8, 8, 0x1000), (16, 1, 16)]), by decide +kernel⟩,
   ⟨on (forStw live (todo (entry 1 0x69 []))), todo (entry 1 0x69 []), by decide +kernel⟩,
   ⟨on (forStw live (todo (entry 2 0x6A [(11, 1, 6), (12, 4, 1), (16, 4, 64000), (20, 1, 1), (21, 1, 1), (24, 8, 0x1000)]))), todo (entry 2 0x6A [(11, 1, 6), (12, 4, 1), (16, 4, 64000), (20, 1, 1), (21, 1, 1), (24, 8, 0x1000)]), by decide +kernel⟩,
   ⟨on (forStw live (todo (entry 1 0x6B []))), todo (entry 1 0x6B []), by decide +kernel⟩,
   ⟨on (committed (later live 4000000)), by decide +kernel, by decide +kernel, by decide +kernel, by decide +kernel, by decide +kernel, committed_some (later live 4000000), committed_parts (later live 4000000) rfl, committed_result (later live 4000000) rfl⟩,
   ⟨on live, 0, ⟨16, 0⟩, by decide +kernel⟩,
   ⟨on (live.wr 0 R.clkGate 0), 0, by decide +kernel⟩,
   ⟨on (later { live with cfg := { CfgCheck.reset with hold := true } } 1000000000), by decide +kernel⟩,
   ⟨on live, .tether, 2, by decide +kernel⟩⟩

/-- The hypotheses of `Obligations.SnapshotsTaken`, clause by clause, are met. -/
theorem witness_SnapshotsTaken :
    (∃ (s : State) (m : Master) (d : Nat) (v : Reg32), ∃ i, s.reaches m d 2 ∧ v.getLsbD 31 = false ∧ v.getLsbD 30 = true ∧ bitsN v.toNat 0
    20 = i ∧ (d * 2 ^ 20 + i) ∉ s.chip.tb.badCtrs) ∧
    (∃ (s : State) (m : Master) (d : Nat) (v : Reg32), ∃ k, s.reaches m d 5 ∧ bitN v.toNat 30 = false ∧ k = ((d * 256 + bitsN v.toNat 0 8) *
    2 + bitsN v.toNat 20 1) * 4096 + bitsN v.toNat 8 12) ∧
    (∃ (s : State) (m : Master) (d : Nat) (v : Reg32), ∃ k, s.reaches m d 5 ∧ bitN v.toNat 30 = true ∧ k = ((d * 256 + bitsN v.toNat 0 8) *
    2 + bitsN v.toNat 20 1) * 4096 + bitsN v.toNat 8 12) ∧
    (∃ (s : State) (m : Master) (d : Nat), s.reaches m d 6) ∧
    (∃ (s : State) (m : Master) (d : Nat) (v : Reg32), s.reaches m d 7 ∧ v.getLsbD 30 = true) ∧
    (∃ (s : State) (m : Master) (d : Nat) (v : Reg32), ∃ n, s.reaches m d 8 ∧ bitN v.toNat 30 = true ∧ n = s.chip.mac (d * 64 + bitsN
    v.toNat 0 6) (bitsN v.toNat 8 5)) ∧
    (∃ (s : State) (m : Master) (d : Nat) (v : Reg32), s.reaches m d 9 ∧ v.getLsbD 30 = true) ∧
    (∃ (s : State) (m : Master) (d : Nat) (v : Reg32), s.reaches m d 11 ∧ s.chip.ctx d (bitsN v.toNat 0 6) (bitsN v.toNat 6 7) = none) ∧
    (∃ (s : State) (m : Master) (d : Nat) (v : Reg32), ∃ k, s.reaches m d 11 ∧ s.chip.ctx d (bitsN v.toNat 0 6) (bitsN v.toNat 6 7) = some
    k) :=
  ⟨⟨on live, .tether, 0, 0x400FFFFF, 1048575, by decide +kernel⟩,
   ⟨on live, .tether, 0, 0x10FFFFF, _, by decide +kernel, by decide +kernel, rfl⟩,
   ⟨on live, .tether, 0, 0x40000000, _, by decide +kernel, by decide +kernel, rfl⟩,
   ⟨on live, .tether, 0, by decide +kernel⟩,
   ⟨on live, .tether, 0, 0x40000000, by decide +kernel⟩,
   ⟨on live, .tether, 0, 0x40000000, _, by decide +kernel, by decide +kernel, rfl⟩,
   ⟨on live, .tether, 0, 0x40000000, by decide +kernel⟩,
   ⟨on live, .tether, 0, 0, by decide +kernel⟩,
   ⟨on (engine (context false .ready [])), .tether, 0, 0, context false .ready [], by decide +kernel⟩⟩

/-- The hypotheses of `Obligations.RegisterRowsComplete`, clause by clause, are met. -/
theorem witness_RegisterRowsComplete :
    (∃ (s : State) (m : Master) (d : Nat) (b : Nat) (v : Reg32), s.reaches m d b ∧ v.getLsbD 0 = true ∧ b < 17 ∧ b ≠ 3) ∧
    (∃ (s : State) (m : Master) (d : Nat) (b : Nat) (v : Reg32), s.reaches m d b ∧ v.getLsbD 0 = false ∧ b < 17 ∧ b ≠ 3) ∧
    (∃ (s : State) (m : Master) (d : Nat) (v : Reg32), s.reaches m d 5 ∧ v.getLsbD 2 = false) ∧
    (∃ (s : State) (m : Master) (d : Nat) (v : Reg32) (q : Chip), s.reaches m 0 32 ∧ q = s.chip.writeStored m 0 R.pkgTenantMode v ∧
    (s.chip.mode = 1 ∨ q.mode ≠ 1 ∨ ∀ d ∈ q.allDies, q.en d 10 = true → q.macsecLanes d ≤ 16)) ∧
    (∃ (s : State) (m : Master) (v : Reg32) (q : Chip), s.reaches m 0 32 ∧ q = s.chip.writeStored m 0 R.pkgTenantMode v ∧ s.chip.mode ≠ 1 ∧
    q.mode = 1 ∧ q.dies = 2 ∧ q.en 0 10 = true ∧ 16 < q.macsecLanes 0) ∧
    (∃ (s : State) (d : Nat), ∃ off a, s.chip.masterOk .tether = true ∧ off < 0x40000000 ∧ off % 4 = 0 ∧ namedBar4 off = some (d, a) ∧
    s.chip.path .tether d a.blk = .clear ∧ off ≠ 0x20100020) ∧
    (∃ (s : State) (m : Master) (d : Nat) (b : Nat) (v : Reg32), s.reaches m d 17 ∧ b < 17 ∧ v.getLsbD b = true) ∧
    (∃ (s : State) (m : Master) (d : Nat) (b : Nat) (v : Reg32), s.reaches m d 17 ∧ b < 17 ∧ v.getLsbD b = false ∧ b ≠ 3 ∧
    s.chip.blockDisabled d b = true) ∧
    (∃ (s : State) (m : Master) (d : Nat) (b : Nat) (v : Reg32), s.reaches m d 18 ∧ b < 17 ∧ b ≠ 3 ∧ v.getLsbD b = true ∧
    s.chip.blockDisabled d b = true ∧ s.chip.gateOpen d b = true) ∧
    (∃ (s : State) (m : Master) (v : Reg32), s.reaches m 0 17 ∧ v.getLsbD 31 = false ∧ s.chip.clk.stepLo + v.toNat * 2 ^ 32 ≠ 0) :=
  ⟨⟨on live, .tether, 0, 16, 1, by decide +kernel⟩,
   ⟨on live, .tether, 0, 16, 0, by decide +kernel⟩,
   ⟨on live, .tether, 0, 0xFFFFFFFB, by decide +kernel⟩,
   ⟨on live, .steward, 0, 3, _, by decide +kernel, rfl, by decide +kernel⟩,
   ⟨on (((((((List.range 17).foldl (fun c p => (c.wr 0 (R.cipMacsecPort p) 2).wr 0 (R.macPortCfg p) 1) live).wr 0 ⟨4, 0⟩ 0).wr 0 ⟨9, 0⟩ 0).wr 0 ⟨11, 0⟩ 0).wr 0 R.dreStatus 1).wr 1 R.dreStatus 1), .tether, 1, _, by decide +kernel, rfl, by decide +kernel, by decide +kernel, by decide +kernel, by decide +kernel, by decide +kernel⟩,
   ⟨on live, 0, 0x20000000, ⟨32, 0⟩, by decide +kernel⟩,
   ⟨on live, .tether, 0, 16, 0x10000, by decide +kernel⟩,
   ⟨on (live.wr 0 ⟨16, 0⟩ 0), .tether, 0, 16, 0, by decide +kernel⟩,
   ⟨on (live.wr 0 ⟨16, 0⟩ 0), .tether, 0, 16, 0x10000, by decide +kernel⟩,
   ⟨on live, .tether, 1, by decide +kernel⟩⟩

/-- The hypotheses of `Obligations.ClockRowsComplete`, clause by clause, are met. -/
theorem witness_ClockRowsComplete :
    (∃ (s : State), s.chip.pwr.aux = true ∧ s.chip.pwr.inReset = false ∧ s.chip.clk.stage = .starting ∧ s.chip.booting = false) ∧
    (∃ (s : State), s.chip.pwr.aux = true ∧ s.chip.pwr.inReset = false ∧ s.chip.clk.stage = .starting ∧ s.chip.booting = true) ∧
    (∃ (s : State), s.chip.pwr.aux = true ∧ s.chip.pwr.inReset = false ∧ s.chip.clk.stage = .armed ∧ s.chip.pwr.standby = true ∧
    s.chip.boot.state = .waitRefclk) ∧
    (∃ (s : State) (d : Nat), s.chip.pwr.aux = true ∧ s.chip.pwr.inReset = false ∧ s.chip.clk.stage = .armed ∧ s.chip.clk.refclkOk = true ∧
    s.chip.hasDie d = true ∧ s.chip.booting = true) ∧
    (∃ (s : State), s.chip.pwr.aux = true ∧ s.chip.pwr.inReset = false ∧ s.chip.clk.refclkOk = true ∧ s.chip.clk.pilotFailed = false ∧
    s.chip.clk.trim < 127) ∧
    (∃ (s : State), s.chip.pwr.aux = true ∧ s.chip.pwr.inReset = false ∧ s.chip.clk.refclkOk = true ∧ s.chip.clk.pilotFailed = false ∧ 0 <
    s.chip.clk.trim) ∧
    (∃ (s : State), s.chip.pwr.aux = true ∧ s.chip.pwr.inReset = false ∧ s.chip.clk.trim = 127) ∧
    (∃ (s : State), s.chip.pwr.aux = true ∧ s.chip.pwr.inReset = false ∧ s.chip.clk.trim = 0) ∧
    (∃ (s : State) (d : Nat), s.chip.pwr.aux = true ∧ s.chip.pwr.inReset = false ∧ s.chip.watching = true ∧ s.chip.hasDie d = true ∧ d ≠ 0) ∧
    (∃ (s : State) (d : Nat), ∃ k, ∃ (n : Nat), s.chip.pwr.aux = true ∧ s.chip.pwr.inReset = false ∧ s.chip.watching = true ∧
    s.chip.clk.settled = true ∧ s.chip.clk.pilotFailed = false ∧ s.chip.hasDie d = true ∧ k < 7 ∧ s.chip.pwr.psPg = true ∧ s.chip.pwr.pgAt +
    1000000 ≤ s.chip.steady ∧ offFrequency k n = true) ∧
    (∃ (s : State), s.chip.pwr.aux = true ∧ s.chip.pwr.inReset = false ∧ s.chip.watching = true ∧ s.chip.clk.settled = true ∧
    s.chip.clk.pilotFailed = false ∧ s.chip.clk.skipWindow = false ∧ s.chip.clk.refCount = none) ∧
    (∃ (s : State) (n : Nat) (r : Nat), s.chip.pwr.aux = true ∧ s.chip.pwr.inReset = false ∧ s.chip.watching = true ∧ s.chip.clk.settled =
    true ∧ s.chip.clk.pilotFailed = false ∧ s.chip.clk.skipWindow = false ∧ s.chip.clk.refCount = some r ∧ r < ((n * 10000000 : Nat) - (r :
    Int)).natAbs * 1000) ∧
    (∃ (s : State), s.chip.pwr.aux = true ∧ s.chip.pwr.inReset = false ∧ s.chip.clk.stage = .locked ∧ s.chip.clk.pilotFailed = false) ∧
    (∃ (s : State) (d : Nat), ∃ b, s.chip.pwr.aux = true ∧ s.chip.pwr.inReset = false ∧ s.chip.alive = true ∧ s.chip.hasDie d = true ∧ b <
    17 ∧ b ≠ 3 ∧ s.chip.blockDisabled d b = true) ∧
    (∃ (s : State) (d : Nat), ∃ b, s.chip.pwr.aux = true ∧ s.chip.pwr.inReset = false ∧ s.chip.alive = true ∧ s.chip.hasDie d = true ∧ b <
    17 ∧ s.chip.bit d R.pwrSoftRst b = true) :=
  ⟨⟨on { live with clk := Clk.reset }, by decide +kernel⟩,
   ⟨on { live with clk := { Clk.reset with trim := 64 }, boot := { Boot.reset with step := 1 } }, by decide +kernel⟩,
   ⟨on { live with clk := { Clk.reset with stage := .armed }, boot := { Boot.reset with step := 2, state := .waitRefclk } }, by decide +kernel⟩,
   ⟨on { live with clk := { Clk.reset with stage := .armed, refclkOk := true }, boot := { Boot.reset with step := 2 } }, 1, by decide +kernel⟩,
   ⟨on live, by decide +kernel⟩,
   ⟨on live, by decide +kernel⟩,
   ⟨on { live with clk := { live.clk with trim := 127 } }, by decide +kernel⟩,
   ⟨on { live with clk := { live.clk with trim := 0 } }, by decide +kernel⟩,
   ⟨on live, 1, by decide +kernel⟩,
   ⟨on (later live 1000000), 0, 6, 0, by decide +kernel⟩,
   ⟨on live, by decide +kernel⟩,
   ⟨on { live with clk := { live.clk with refCount := some 1 } }, 0, 1, by decide +kernel⟩,
   ⟨on live, by decide +kernel⟩,
   ⟨on (live.wr 0 ⟨16, 0⟩ 0), 0, 16, by decide +kernel⟩,
   ⟨on (live.wr 0 R.pwrSoftRst 0x10000), 0, 16, by decide +kernel⟩⟩

/-- The hypotheses of `Obligations.PowerRowsComplete`, clause by clause, are met. -/
theorem witness_PowerRowsComplete :
    (∃ (s : State), s.chip.pwr.aux = false ∧ s.root.fuses.dieCount = 0b10#2) ∧
    (∃ (s : State), s.chip.pwr.aux = true ∧ s.chip.pwr.psEn = true ∧ s.chip.boot.state ≠ .waitPower) ∧
    (∃ (s : State), s.chip.pwr.aux = true ∧ s.chip.pwr.psEn = true ∧ s.chip.boot.state = .waitPower) ∧
    (∃ (s : State), ∃ d, s.chip.pwr.aux = true ∧ s.chip.pwr.psPg = true ∧ s.chip.pwr.inReset = false ∧ s.chip.hasDie d = true ∧
    s.chip.booting = false) ∧
    (∃ (s : State), s.chip.pwr.aux = true ∧ s.chip.pwr.psPg = true ∧ s.chip.pwr.inReset = true) ∧
    (∃ (s : State), s.chip.pwr.aux = true ∧ s.chip.mgmtUp = true) ∧
    (∃ (s : State), ∃ d, ∃ (l : List Int), ∃ k, s.chip.pwr.aux = true ∧ s.chip.pwr.mainDown = false ∧ s.chip.pwr.psPg = true ∧ s.chip.hasDie
    d = true ∧ k < 16 ∧ thermLimit (d * 16 + k) ≤ l.getD k 0) ∧
    (∃ (s : State), s.chip.pwr.aux = true ∧ (s.chip.pwr.inReset = true ∨ s.chip.clk.stage = .starting)) ∧
    (∃ (s : State), s.chip.pwr.aux = true ∧ s.chip.pwr.inReset = false ∧ s.chip.clk.stage = .locked) ∧
    (∃ (s : State), s.chip.pwr.aux = true ∧ s.chip.pwr.inReset = true ∧ s.root.fuses.dieCount = 0b01#2) :=
  ⟨⟨rooted { Root.reset with fuses := { Fuses.reset with dieCount := 0b10#2 } } { live with pwr := { Power.powerOn with aux := false } }, by decide +kernel⟩,
   ⟨on live, by decide +kernel⟩,
   ⟨on { live with pwr := { live.pwr with psPg := false }, boot := { Boot.reset with state := .waitPower, step := 3 } }, by decide +kernel⟩,
   ⟨on live, 1, by decide +kernel⟩,
   ⟨on { live with pwr := { Power.powerOn with psPg := true } }, by decide +kernel⟩,
   ⟨on live, by decide +kernel⟩,
   ⟨on live, 0, [105], 0, by decide +kernel⟩,
   ⟨State.reset, by decide +kernel⟩,
   ⟨on live, by decide +kernel⟩,
   ⟨rooted { Root.reset with fuses := { Fuses.reset with dieCount := 0b01#2 } } { live with pwr := Power.powerOn }, by decide +kernel⟩⟩

/-- The hypotheses of `Obligations.BootStepsComplete`, clause by clause, are met. -/
theorem witness_BootStepsComplete :
    (∃ (s : State), s.chip.pwr.aux = true ∧ s.chip.pwr.inReset = false ∧ s.chip.tetherUp = true ∧ s.chip.booting = true ∧ s.chip.boot.step =
    1) ∧
    (∃ (s : State) (hw : Option Nat) (d : Nat), s.chip.pwr.aux = true ∧ s.chip.pwr.inReset = false ∧ s.chip.tetherUp = true ∧ s.chip.booting
    = true ∧ s.chip.boot.step = 2 ∧ hw = some d ∧ s.chip.hasDie d = true) ∧
    (∃ (s : State) (hw : Option Nat), s.chip.pwr.aux = true ∧ s.chip.pwr.inReset = false ∧ s.chip.tetherUp = true ∧ s.chip.booting = true ∧
    s.chip.boot.step = 2 ∧ hw = none ∧ s.chip.clk.stage = .locked ∧ s.chip.boot.bootSel = 0b00#2 ∧ s.root.fuses.valid = true) ∧
    (∃ (s : State) (hw : Option Nat), s.chip.pwr.aux = true ∧ s.chip.pwr.inReset = false ∧ s.chip.tetherUp = true ∧ s.chip.booting = true ∧
    s.chip.boot.step = 2 ∧ hw = none ∧ s.chip.clk.stage = .locked ∧ s.chip.boot.bootSel = 0b11#2) ∧
    (∃ (s : State), s.chip.pwr.aux = true ∧ s.chip.pwr.inReset = false ∧ s.chip.tetherUp = true ∧ s.chip.booting = true ∧ s.chip.boot.step =
    3 ∧ s.chip.pwr.psPg = false) ∧
    (∃ (s : State) (hw : Option Nat), s.chip.pwr.aux = true ∧ s.chip.pwr.inReset = false ∧ s.chip.tetherUp = true ∧ s.chip.booting = true ∧
    s.chip.boot.step = 3 ∧ s.chip.pwr.psPg = true ∧ hw = none ∧ s.root.nvmOk = true) ∧
    (∃ (s : State), s.chip.pwr.aux = true ∧ s.chip.pwr.inReset = false ∧ s.chip.tetherUp = true ∧ s.chip.booting = true ∧ s.chip.boot.step =
    4) ∧
    (∃ (s : State), s.chip.pwr.aux = true ∧ s.chip.pwr.inReset = false ∧ s.chip.tetherUp = true ∧ s.chip.booting = true ∧ s.chip.boot.step =
    5) ∧
    (∃ (s : State), s.chip.pwr.aux = true ∧ s.chip.pwr.inReset = false ∧ s.chip.tetherUp = true ∧ s.chip.booting = true ∧ s.chip.boot.step =
    6) ∧
    (∃ (s : State), s.chip.pwr.aux = true ∧ s.chip.pwr.inReset = false ∧ s.chip.tetherUp = true ∧ s.chip.booting = true ∧ s.chip.boot.step =
    7) ∧
    (∃ (s : State), s.chip.pwr.aux = true ∧ s.chip.pwr.inReset = false ∧ s.chip.tetherUp = true ∧ s.chip.booting = true ∧ s.chip.boot.step =
    8) ∧
    (∃ (s : State), s.chip.pwr.aux = true ∧ s.chip.pwr.inReset = false ∧ s.chip.tetherUp = true ∧ s.chip.booting = true ∧ s.chip.boot.step =
    9) :=
  ⟨⟨bootAt 1 0, by decide +kernel⟩,
   ⟨bootAt 2 0, some 0, 0, by decide +kernel⟩,
   ⟨bootAt 2 0, none, by decide +kernel⟩,
   ⟨bootAt 2 3, none, by decide +kernel⟩,
   ⟨{ (bootAt 3 0) with chip := { (bootAt 3 0).chip with pwr := { (bootAt 3 0).chip.pwr with psPg := false } } }, by decide +kernel⟩,
   ⟨bootAt 3 0, none, by decide +kernel⟩,
   ⟨bootAt 4 0, by decide +kernel⟩,
   ⟨bootAt 5 0, by decide +kernel⟩,
   ⟨bootAt 6 0, by decide +kernel⟩,
   ⟨bootAt 7 0, by decide +kernel⟩,
   ⟨bootAt 8 0, by decide +kernel⟩,
   ⟨bootAt 9 0, by decide +kernel⟩⟩

/-- The hypotheses of `Obligations.FuseRowsComplete`, clause by clause, are met. -/
theorem witness_FuseRowsComplete :
    (∃ (s : State) (m : Master), s.chip.masterOk m = true ∧ s.root.blow = none ∧ s.root.armed = true ∧ s.root.arbCounter <
    s.chip.boot.secVersion) ∧
    (∃ (s : State), s.root.blow = some .lock) ∧
    (∃ (s : State), ∃ n, s.root.blow = some (.counter n)) ∧
    (∃ (s : State), s.chip.recovering = true ∧ s.root.rcvOp = none) ∧
    (∃ (s : State), s.root.rcvOp = some 3 ∧ s.root.rcvReset = false ∧ 0 < s.root.rcvLen ∧ s.root.rcvAddr + s.root.rcvLen ≤ s.root.nvmSize) ∧
    (∃ (s : State) (m : Master) (v : Reg32), s.chip.masterOk m = true ∧ s.root.blow = none ∧ s.root.armed = false ∧ v ≠ 0x46555340#32) ∧
    (∃ (s : State) (m : Master), ∃ b, s.chip.masterOk m = true ∧ s.root.blow = some b) ∧
    (∃ (s : State) (m : Master), s.chip.masterOk m = true ∧ s.root.blow = none ∧ s.root.armed = true ∧ s.chip.boot.secVersion ≤
    s.root.arbCounter) :=
  ⟨⟨rooted { Root.reset with armed := true } { live with boot := { live.boot with secVersion := 1 } }, .tether, by decide +kernel⟩,
   ⟨rooted { Root.reset with blow := some .lock } live, by decide +kernel⟩,
   ⟨rooted { Root.reset with blow := some (.counter 63) } live, 63, by decide +kernel⟩,
   ⟨on { live with boot := { Boot.reset with state := .failed } }, by decide +kernel⟩,
   ⟨rooted { Root.reset with rcvOp := some 3, rcvLen := 1, rcvAddr := 2 ^ 27 - 1 } live, by decide +kernel⟩,
   ⟨on live, .tether, 0, by decide +kernel⟩,
   ⟨rooted { Root.reset with blow := some .lock } live, .tether, .lock, by decide +kernel⟩,
   ⟨rooted { Root.reset with armed := true } live, .tether, by decide +kernel⟩⟩

/-- The hypotheses of `Obligations.TransportRowsComplete`, clause by clause, are met. -/
theorem witness_TransportRowsComplete :
    (∃ (s : State), ∃ smb n, s.chip.sideband smb = true ∧ n < 16 * s.chip.dies ∧ s.chip.pwr.psPg = true ∧ s.chip.pwr.mainDown = false) ∧
    (∃ (s : State), ∃ smb n, s.chip.sideband smb = true ∧ n < 16 * s.chip.dies ∧ s.chip.pwr.mainDown = true) ∧
    (∃ (s : State), ∃ smb d k, s.chip.sideband smb = true ∧ s.chip.hasDie d = true ∧ k < 256 ∧ (s.chip.cls d k).first = none ∧ (s.chip.cls d
    k).last = none) ∧
    (∃ (s : State), ∃ smb, s.chip.sideband smb = false) ∧
    (∃ (s : State), s.chip.doeUp = true ∧ s.chip.trust.doeError = false) ∧
    (∃ (s : State), ∃ via, s.chip.spdmUp via = true ∧ s.chip.booted = true ∧ (s.chip.session via).phase = 1) ∧
    (∃ (s : State), ∃ via req, s.chip.spdmUp via = true ∧ s.chip.booted = true ∧ (s.chip.session via).phase = 3 ∧ byteAt req 2 = 1 ∧ leAt
    req 4 4 = 0x200 ∧ leAt req 8 4 = 0x40) ∧
    (∃ (s : State), ∃ via off, s.chip.spdmUp via = true ∧ s.chip.booted = true ∧ (s.chip.session via).phase = 7 ∧ s.chip.boot.certPresent =
    true ∧ off < s.chip.spdmChain.length) ∧
    (∃ (s : State), ∃ via x, s.chip.spdmUp via = true ∧ s.chip.booted = true ∧ (s.chip.session via).phase = 7 ∧ s.chip.boot.certPresent =
    true ∧ s.measurements.filter (fun m => m.index == 1) = [x]) ∧
    (∃ (s : State), ∃ d a, s.chip.pwr.aux = true ∧ s.debugOk = true ∧ s.chip.debugDie d = true ∧ a < 32768 * 24) ∧
    (∃ (s : State), s.chip.pwr.aux = true ∧ s.root.locked = true) :=
  ⟨⟨on live, ⟨0x64, true⟩, 31, by decide +kernel⟩,
   ⟨on { live with pwr := { live.pwr with psPg := false, mainDown := true } }, ⟨0x64, true⟩, 31, by decide +kernel⟩,
   ⟨on live, ⟨0x64, true⟩, 1, 255, by decide +kernel⟩,
   ⟨on live, ⟨0x65, true⟩, by decide +kernel⟩,
   ⟨on live, by decide +kernel⟩,
   ⟨on { live with trust := { Trust.reset with sb := { Spdm.none with phase := 1 } }, boot := { live.boot with certPresent := true } }, .sideband ⟨0x64, true⟩, by decide +kernel⟩,
   ⟨on { live with trust := { Trust.reset with doe := { Spdm.none with phase := 3 } }, boot := { live.boot with certPresent := true } }, .doe, [0#8, 0#8, 1#8, 0#8, 0#8, 2#8, 0#8, 0#8, 0x40#8, 0#8, 0#8, 0#8], by decide +kernel⟩,
   ⟨on { live with trust := { Trust.reset with doe := { Spdm.none with phase := 7 } }, boot := { live.boot with certPresent := true } }, .doe, 0, by decide +kernel⟩,
   ⟨on { live with trust := { Trust.reset with sb := { Spdm.none with phase := 7 } }, boot := { live.boot with certPresent := true } }, .sideband ⟨0x64, true⟩, _, by decide +kernel, by decide +kernel, by decide +kernel, by decide +kernel, rfl⟩,
   ⟨on live, 1, 786431, by decide +kernel⟩,
   ⟨rooted { Root.reset with fuses := { Fuses.reset with debugLock := 1 } } live, by decide +kernel⟩⟩

end Sys2Proof.Tests
end

section
/-! Accesses to BAR4 by the masters of register space (R527, R530, R531): where they lead, what one aligned doubleword
does, and order 1 for the dies that the part does not have (R6). -/

namespace Sys2Proof.Proofs

open Sys2Proof.Machine

/-! ### The steward's function takes the requests of a master that reaches register space -/

theorem fld_lt (c : Chip) (d : Nat) (a : RegAddr) (lo w : Nat) : c.fld d a lo w < 2 ^ w := Nat.mod_lt _ (Nat.two_pow_pos w)

/-- The steward's PF is keyed among the PFs, not among the VFs. -/
theorem stwPf_lt (c : Chip) : c.stwPf < 64 := by
  have hport : c.stwPort < 2 ^ 5 := fld_lt ..
  have hlink : c.stwLink < 2 ^ 1 := fld_lt ..
  simp only [Chip.stwPf]
  omega

/-- A PF that refuses memory requests is in D3hot or has Memory Space Enable clear (R334): a function-level reset refuses only
those of a VF (R335). -/
theorem memAnswer_pf_false {c : Chip} {k : Nat} (hk : k < 64) (h : c.memAnswer k = some false) :
    ((c.fn k).d3 || !(c.fn k).mse) = true := by
  simp only [Chip.memAnswer, fnOfKey, if_pos hk] at h
  split at h
  · nomatch h
  · simpa [imp_iff_not_or] using h

/-- The steward reaches register space only over a link that is up and through a function that takes memory requests. -/
theorem steward_masterOk_iff (c : Chip) :
    c.masterOk .steward = true ↔ (c.stwLinked = true ∧ c.tetherUp = true) ∧ c.stwRefuses = false := by
  simp only [Chip.masterOk, Bool.and_eq_true, Bool.not_eq_true']

/-- No request to BAR4 of a master that reaches register space is refused. -/
theorem refusedBy_bar4 {c : Chip} {m : Master} (hm : c.masterOk m = true) (o : Nat) : c.refusedBy m (.bar4 o) = none := by
  cases m with
  | tether => rfl
  | tenant => rfl
  | steward =>
    obtain ⟨⟨hlink, _⟩, htakes⟩ := (steward_masterOk_iff c).mp hm
    have hanswer : c.memAnswer c.stwPf ≠ some false := fun h => by
      have hrefuses : c.stwRefuses = (c.stwLinked && ((c.fn c.stwPf).d3 || !(c.fn c.stwPf).mse)) := rfl
      rw [hrefuses, hlink, memAnswer_pf_false (stwPf_lt c) h] at htakes
      nomatch htakes
    simpa [Chip.refusedBy, Chip.placeFn] using hanswer

/-- The Tether and the steward find BAR4 at the offsets below 2³⁰. -/
theorem placeOf_bar4 (c : Chip) {m : Master} {off : Nat} (hm : m ≠ .tenant) (hoff : off < 0x40000000) :
    c.placeOf m off = .bar4 off := by
  cases m with
  | tether => exact if_pos hoff
  | steward => exact (if_neg (by omega)).trans (if_pos hoff)
  | tenant => exact absurd rfl hm

/-! ### One aligned doubleword of BAR4 -/

theorem isWord_four {off : Nat} (h : off % 4 = 0) : isWord 4 off = true := by simp [isWord, h]

section
variable {s : State} {m : Master} {off : Nat}
  (hm : m ≠ .tenant) (hok : s.chip.masterOk m = true) (hoff : off < 0x40000000) (hal : off % 4 = 0)
include hm hok hoff hal

/-- A write of an aligned doubleword stores it in BAR4. -/
theorem exec_registerWrite_word (v : Reg32) : exec (.registerWrite m off 4 (v.setWidth 64)) s = .next (bar4Store m off v s) := by
  have hstore : hostStore m off 4 (v.setWidth 64) s = bar4Store m off v s := by
    simp [hostStore, placeOf_bar4 _ hm hoff, refusedBy_bar4 hok, hok, isWord_four hal]
  exact congrArg Host.Outcome.next hstore

/-- A read of an aligned doubleword answers what BAR4 reads, with the request's attributes. -/
theorem exec_counterReadClear_word (attr : Nat) : exec (.counterReadClear m off 4 attr) s =
    .next ((bar4Access m off none s).2.onChip fun c => c.emit (.regRead off (bar4Access m off none s).1 attr)) := by
  have hload : hostLoad m off 4 s = some (bar4Access m off none s) := by
    simp [hostLoad, placeOf_bar4 _ hm hoff, hok, isWord_four hal]
  have hread : counterRead m off 4 attr s =
      (bar4Access m off none s).2.onChip fun c => c.emit (.regRead off (bar4Access m off none s).1 attr) := by
    simp [counterRead, placeOf_bar4 _ hm hoff, refusedBy_bar4 hok, hload]
  exact congrArg Host.Outcome.next hread

end

/-! ### Dies that the part does not have -/

/-- A register named below 2²⁹ is a block's of the die whose 64 MiB hold the offset (R538, R539). -/
theorem namedBar4_die {off d : Nat} {a : RegAddr} (hoff : off < 0x20000000) (h : namedBar4 off = some (d, a)) :
    d = off / 0x04000000 ∧ a.blk < 20 := by
  have hdec : decodeBar4 off = some (d, a) := (Option.filter_eq_some_iff.mp h).1
  simp only [decodeBar4, if_pos hoff] at hdec
  split at hdec
  · cases hdec
    exact ⟨rfl, ‹_›⟩
  · nomatch hdec

/-- Order 1 of R531 comes before all others for a block of a die that the part does not have. -/
theorem path_absent (c : Chip) (m : Master) {d b : Nat} (hb : b < 20) (hd : c.dies ≤ d) : c.path m d b = .absent := by
  simp [Chip.path, Chip.hasDie, hb, hd]

/-- An access to a register of a die that the part does not have reads zero and changes nothing, whatever is written. -/
theorem bar4Access_absent {s : State} {off : Nat} (m : Master) (value : Option Reg32) (hoff : off < 0x20000000)
    (hdie : s.chip.dies * 0x04000000 ≤ off) : bar4Access m off value s = (0, s) := by
  unfold bar4Access
  split
  case h_1 => rfl
  case h_2 d a hnamed =>
    obtain ⟨rfl, hblk⟩ := namedBar4_die hoff hnamed
    have hpath := path_absent s.chip m hblk ((Nat.le_div_iff_mul_le (by decide)).mpr hdie)
    rw [hpath]

/-- Below 2²⁹ lies no TET_FUSE_CTRL: a store is an access like any other. -/
theorem bar4Store_die {off : Nat} (m : Master) (v : Reg32) (s : State) (hoff : off < 0x20000000) :
    bar4Store m off v s = (bar4Access m off (some v) s).2 := if_neg (by omega)

/-- Settles O12: the offset leads to BAR4, where any register it names is one of an absent die. -/
theorem absentDieReadsZero : Obligations.AbsentDieReadsZero := by
  intro s m off attr v hm hok hal hoff hdie
  have hbar : off < 0x40000000 := by omega
  constructor
  · rw [exec_registerWrite_word hm hok hbar hal, bar4Store_die m v s hoff, bar4Access_absent m _ hoff hdie]
  · rw [exec_counterReadClear_word hm hok hbar hal, bar4Access_absent m _ hoff hdie]

end Sys2Proof.Proofs
end

section
/-! MAC Control frames at a port (R233): one under reception has no packet, so neither its arrival nor its end makes or changes
one; PAUSE and PFC touch the pauses of the lane and the MAC counters alone. -/

namespace Sys2Proof.Proofs

open Sys2Proof.Machine

/-! ### MAC counters -/

theorem mac_macCount_same (c : Chip) (lane k n : Nat) : (c.macCount lane k n).mac lane k = wrapAdd 64 (c.mac lane k) n :=
  tget_tput_same ..

theorem mac_macCount_ne (c : Chip) (lane n : Nat) {j k : Nat} (h : j ≠ k) : (c.macCount lane k n).mac lane j = c.mac lane j :=
  tget_tput_ne _ _ _ (by omega)

/-! ### A frame under reception that has no packet -/

/-- The count of a drop is kept among registers and tables, apart from the packets. -/
@[simp] theorem countDrop_dp (c : Chip) (d reason : Nat) (srcInst : Bool) (src : Nat) (dest : Option Nat) :
    (c.countDrop d reason srcInst src dest).dp = c.dp := by
  unfold Chip.countDrop
  split
  · rfl
  · cases dest with
    | none => simp
    | some i => dsimp only; split <;> simp

@[simp] theorem setRx_pkts (c : Chip) (lane : Nat) (l : List Rx) : (c.setRx lane l).dp.pkts = c.dp.pkts := rfl

theorem closeRx_dp {r : Rx} (h : r.pkt = none) (c : Chip) (lane counter reason limit : Nat) :
    (c.closeRx r lane counter reason limit).dp = c.dp := by
  simp only [Chip.closeRx, h, Option.bind_none]
  split <;> simp

theorem goodEnd_dp {r : Rx} (h : r.pkt = none) (c : Chip) : (c.goodEnd r).dp = c.dp := by
  have hcopies : (r.copies.foldl (fun c e => c.emit (.mirror e.1 e.2)) c).dp = c.dp :=
    List.foldlRecOn r.copies _ (motive := fun q : Chip => q.dp = c.dp) rfl fun q hq e _ => (Chip.emit_dp ..).trans hq
  simpa only [Chip.goodEnd, h, Option.bind_none] using hcopies

/-- The innermost frame's end leaves every packet, however it ends, if that frame has none. -/
theorem frameEnd_pkts {c : Chip} {lane : Nat} {r : Rx} {l : List Rx} (hrx : c.rxOf lane = r :: l) (h : r.pkt = none)
    (fcsOk : Bool) (n unc : Nat) : (frameEnd lane fcsOk false n unc c).dp.pkts = c.dp.pkts := by
  simp only [frameEnd, hrx, Bool.false_eq_true, if_false, List.head?_cons, List.tail_cons]
  split
  · rfl -- no clock or rails
  split
  · rfl -- ended already
  split
  · simp [closeRx_dp h] -- shorter than 64 bytes
  split
  · simp [closeRx_dp h] -- longer than the maximum
  split
  · simp [closeRx_dp h] -- frame check or line code
  · simp [goodEnd_dp h]

/-- The arrival of a MAC Control frame, taken or not, makes no packet. -/
theorem frameArrival_macControl_pkts {b : Bytes} (h : etherType b = 0x8808) (lane phase : Nat) (x : ScrubOutcome) (c : Chip) :
    (frameArrival lane phase b x c).dp.pkts = c.dp.pkts ∧ (frameArrival lane phase b x c).dp.nextPkt = c.dp.nextPkt := by
  simp only [frameArrival, h, if_true]
  split
  · exact ⟨rfl, rfl⟩
  · exact ⟨rfl, rfl⟩

/-! ### PAUSE and PFC -/

/-- `t` is what a flow-control frame on a lane may make of `c`: received frames of flow control (counter 9) are one more, and the
packets are the same. -/
def CountedFlow (lane : Nat) (c t : Chip) : Prop :=
  t.mac lane 9 = wrapAdd 64 (c.mac lane 9) 1 ∧ t.dp.pkts = c.dp.pkts

theorem CountedFlow.received (lane : Nat) (c : Chip) : CountedFlow lane c (c.macCount lane 9) := ⟨mac_macCount_same .., rfl⟩

theorem CountedFlow.ignored {lane : Nat} {c t : Chip} (h : CountedFlow lane c t) : CountedFlow lane c (t.macCount lane 10) :=
  ⟨(mac_macCount_ne t lane 1 (by decide)).trans h.1, h.2⟩

theorem CountedFlow.honoured {lane : Nat} {c t : Chip} (h : CountedFlow lane c t) (q quanta : Nat) :
    CountedFlow lane c (t.honour lane q quanta) := h

section
variable {c : Chip} {lane : Nat} {b : Bytes} (hup : c.portUp lane = true) (h : etherType b = 0x8808)
include hup h

/-- PAUSE and PFC count as received, whether the port honours them or not. -/
theorem pauseReceived_flow (hop : beAt b 14 2 = 0x0001 ∨ beAt b 14 2 = 0x0101) : CountedFlow lane c (pauseReceived lane b c) := by
  have hreceived := CountedFlow.received lane c
  have htaken : ¬ (!c.portUp lane || etherType b != 0x8808) = true := by simp [hup, h]
  rw [pauseReceived, if_neg htaken]
  obtain hpause | hpfc := hop
  case inl =>
    simp only [hpause, if_true]
    split
    · exact hreceived.honoured ..
    · exact hreceived.ignored
  case inr =>
    simp only [hpfc, if_neg (show ¬ 0x0101 = 0x0001 by decide), if_true]
    split
    · exact hreceived.ignored
    · exact List.foldlRecOn _ _ hreceived fun t ht q _ => ht.honoured ..

theorem pauseReceived_unsupported (hpause : beAt b 14 2 ≠ 0x0001) (hpfc : beAt b 14 2 ≠ 0x0101) :
    pauseReceived lane b c = c.macCount lane 11 := by
  simp [pauseReceived, hup, h, hpause, hpfc]

end

/-! ### The commands -/

theorem exec_frameArrival (lane phase : Nat) (b : Bytes) (x : ScrubOutcome) (s : State) :
    exec (.frameArrival lane phase b x) s = .next (s.onChip (frameArrival lane phase b x)) := rfl

theorem exec_frameEnd (lane : Nat) (fcsOk reasmErr : Bool) (n unc : Nat) (s : State) :
    exec (.frameEnd lane fcsOk reasmErr n unc) s = .next (s.onChip (frameEnd lane fcsOk reasmErr n unc)) := rfl

theorem exec_pauseReceived (lane : Nat) (b : Bytes) (s : State) :
    exec (.pauseReceived lane b) s = .next (s.onChip (pauseReceived lane b)) := rfl

/-- Settles O18: a MAC Control frame opens at most a reception that has no packet; neither the end of such a reception nor a MAC
Control opcode touches the packets. -/
theorem macControlConsumed : Obligations.MacControlConsumed := by
  intro s lane b h
  refine ⟨fun phase x => ?arrival, fun n r l hrx hnone => ?ending, fun hup hop => ?flow, fun hup hpause hpfc => ?unsupported⟩
  case arrival => exact ⟨_, exec_frameArrival .., frameArrival_macControl_pkts h ..⟩
  case ending => exact ⟨_, exec_frameEnd .., frameEnd_pkts hrx hnone ..⟩
  case flow => exact ⟨_, exec_pauseReceived .., pauseReceived_flow hup h hop⟩
  case unsupported =>
    refine ⟨_, exec_pauseReceived .., ?_⟩
    simp only [State.onChip_chip, pauseReceived_unsupported hup h hpause hpfc]
    exact ⟨mac_macCount_same .., rfl⟩

end Sys2Proof.Proofs
end

section
/-! What the fuses say (R459): the anti-rollback counter by the highest blown bit of arb_counter, DEBUG_LOCK by any blown copy. -/

namespace Sys2Proof.Proofs

open Sys2Proof.Machine

/-! ### The highest blown bit -/

theorem highestBlown_succ_of_blown {v : BitVec 64} {n : Nat} (h : v.getLsbD n = true) : highestBlown v (n + 1) = n + 1 :=
  if_pos h

theorem highestBlown_succ_of_unblown {v : BitVec 64} {n : Nat} (h : v.getLsbD n = false) :
    highestBlown v (n + 1) = highestBlown v n :=
  if_neg (by simp [h])

/-- Unblown bits at the top do not count: the search among the low `m` bits comes down to the low `n`. -/
theorem highestBlown_of_unblown_above {v : BitVec 64} {n m : Nat} (hnm : n ≤ m)
    (h : ∀ k, n ≤ k → v.getLsbD k = false) : highestBlown v m = highestBlown v n := by
  induction m, hnm using Nat.le_induction with
  | base => rfl
  | succ m hm ih => rw [highestBlown_succ_of_unblown (h m hm), ih]

/-! ### The two values -/

theorem arbCounter_of_none_blown {r : Root} (h : r.fuses.arb = 0#64) : r.arbCounter = 0 :=
  highestBlown_of_unblown_above (Nat.zero_le 64) fun k _ => BitVec.zero_iff_eq_false.mp h k

theorem arbCounter_of_highest_blown {r : Root} {n : Nat} (hn : r.fuses.arb.getLsbD n = true)
    (habove : ∀ k, n < k → r.fuses.arb.getLsbD k = false) : r.arbCounter = n + 1 :=
  calc highestBlown r.fuses.arb 64
    _ = highestBlown r.fuses.arb (n + 1) := highestBlown_of_unblown_above (BitVec.lt_of_getLsbD hn) habove
    _ = n + 1 := highestBlown_succ_of_blown hn

theorem locked_iff (r : Root) : r.locked = true ↔ ∃ k, r.fuses.debugLock.getLsbD k = true :=
  calc r.locked = true
    _ ↔ r.fuses.debugLock ≠ 0#4 := bne_iff_ne
    _ ↔ ∃ k, r.fuses.debugLock.getLsbD k = true := by simp [BitVec.zero_iff_eq_false]

/-- Settles O8: from the top of arb_counter down to its highest blown bit nothing counts, and debug_lock is nonzero exactly when one of
its copies is blown. -/
theorem fuseValues : Obligations.FuseValues := fun r =>
  ⟨arbCounter_of_none_blown, fun _ => arbCounter_of_highest_blown, locked_iff r⟩

end Sys2Proof.Proofs
end

section
/-! What a command can do to the queue and to the fuse and NVM side. Most commands act on the part alone; the others are taken one by
one. -/

namespace Sys2Proof.Proofs

open Sys2Proof.Machine

/-! ### Commands that act on the part alone -/

/-- The meaning of the command is a function of the part alone: it neither reads nor writes the fuse and NVM side. -/
def partOnly : Instr → Bool
  | .keyLoad .. | .kekQuery .. | .save | .restore | .vendorBootStatus .. | .challenge .. | .getMeasurements .. => false
  | .auxPowerOn | .pkgRstRelease .. | .counterReadClear .. => false
  | i => !i.onRootSide

/-- A change of the whole machine that is a change of the part, the same whatever the fuse side and the queue hold. -/
def ActsOnPart (g : State → State) : Prop := ∃ f : Chip → Chip, ∀ s, g s = s.onChip f

theorem ActsOnPart.onChip (f : Chip → Chip) : ActsOnPart fun s => s.onChip f := ⟨f, fun _ => rfl⟩

theorem ActsOnPart.same : ActsOnPart fun s => s := ⟨id, fun _ => rfl⟩

theorem ActsOnPart.ite {g h : State → State} (p : Chip → Prop) [DecidablePred p] (hg : ActsOnPart g) (hh : ActsOnPart h) :
    ActsOnPart fun s => if p s.chip then g s else h s := by
  obtain ⟨f, hf⟩ := hg
  obtain ⟨f', hf'⟩ := hh
  refine ⟨fun c => if p c then f c else f' c, fun s => ?_⟩
  by_cases hp : p s.chip <;> simp [hp, hf, hf', State.onChip]

/-- A register row does the same to the part whatever the fuse side holds. -/
theorem busAccess_actsOnPart (m : Master) (d b : Nat) (f : Chip → Chip) : ActsOnPart (busAccess m d b f) := by
  have hpath : ActsOnPart fun s => match s.chip.path m d b with
      | .clear => s.onChip f
      | .unreachable => s.onChip fun c => c.accessFail d
      | .absent => s
      | .gated => s := by
    refine ⟨fun c => match c.path m d b with | .clear => f c | .unreachable => c.accessFail d | .absent => c | .gated => c, fun s => ?_⟩
    cases h : s.chip.path m d b <;> simp [State.onChip, h]
  exact .ite (fun c => m = .steward ∧ c.stwRefuses = true) (.onChip _) (.ite (fun c => c.masterOk m = true) hpath .same)

/-- A command that acts on the part alone is one function of the part. -/
theorem exec_partOnly (i : Instr) (h : partOnly i = true) : ∃ f : Chip → Chip, ∀ s, exec i s = .next (s.onChip f) := by
  have lift {g : State → State} (hg : ActsOnPart g) : ∃ f : Chip → Chip, ∀ s, (.next (g s) : Outcome) = .next (s.onChip f) :=
    hg.imp fun _ hf s => congrArg _ (hf s)
  cases i
  case blockEnable | blockDisable => exact lift (.ite (fun _ => _) (busAccess_actsOnPart ..) .same)
  case spillDisable => exact lift (.ite (fun _ => _) .same (busAccess_actsOnPart ..))
  case dreCtxKill | fltCulRetrain | cfgCrcCommit | fltPinRelease | fltClassSel | fltLogCons | pkgTenantMode | clsCntSel | bufOccSel |
      bufDropSel | schShpSel | weiCntSel | macCntSel | cipSlotSel | dreCtxSel | clkGate | pwrSoftRst | clkTbRate | clkTbStep |
      barrierCancel =>
    exact lift (busAccess_actsOnPart ..)
  case keyLoad | kekQuery | save | restore | vendorBootStatus | challenge | getMeasurements | auxPowerOn | pkgRstRelease |
      counterReadClear | bootStepComplete | fuseArm | fuseArmExpiry | advanceCounter | debugLock | fuseBlowDone | rcvRead | rcvErase |
      rcvProgram | rcvOpDone | registerWrite | testPortInstruction | conventionalReset | pkgRstAssert | auxPowerLoss =>
    nomatch h
  all_goals exact ⟨_, fun _ => rfl⟩

/-! ### The queue -/

theorem blowDone_pending (v : Bool) (s : State) : (blowDone v s).pending = s.pending := by
  unfold blowDone
  split <;> rfl

theorem rcvCommand_pending (op : Nat) (a : BitVec 28) (l : BitVec 16) (b : Bytes) (s : State) :
    (rcvCommand op a l b s).pending = s.pending := by
  unfold rcvCommand
  split <;> rfl

theorem rcvDone_pending (ok : Bool) (s : State) : (rcvDone ok s).pending = s.pending := by
  unfold rcvDone
  split <;> rfl

theorem bootStepComplete_pending (hw : Option Nat) (s : State) : (bootStepComplete hw s).pending = s.pending := by
  unfold bootStepComplete
  dsimp only
  split
  · rfl
  · split <;> rfl

theorem auxPowerOn_frame (s : State) : (auxPowerOn s).pending = s.pending ∧ (auxPowerOn s).root = s.root := by
  unfold auxPowerOn
  split <;> exact ⟨rfl, rfl⟩

theorem auxPowerLoss_pending (s : State) : (auxPowerLoss s).pending = s.pending := by
  unfold auxPowerLoss
  split <;> rfl

theorem pkgRstAssert_pending (s : State) : (pkgRstAssert s).pending = s.pending := by
  unfold pkgRstAssert
  split <;> rfl

theorem pkgRstRelease_frame (a b c : BitVec 2) (s : State) :
    (pkgRstRelease a b c s).pending = s.pending ∧ (pkgRstRelease a b c s).root = s.root := by
  unfold pkgRstRelease
  split <;> exact ⟨rfl, rfl⟩

theorem vendorBootStatus_frame (smb : Smb) (s : State) :
    (vendorBootStatus smb s).pending = s.pending ∧ (vendorBootStatus smb s).root = s.root := by
  unfold vendorBootStatus
  split <;> exact ⟨rfl, rfl⟩

/-- The commands beside the rows of the part, and those on the root side: each leaves the queue. -/
theorem exec_answers (i : Instr) (s : State) : ∃ t, exec i s = .next t ∧ t.pending = s.pending := by
  by_cases h : partOnly i = true
  · obtain ⟨f, hf⟩ := exec_partOnly i h
    exact ⟨_, hf s, rfl⟩
  cases i
  case keyLoad | kekQuery | save | restore | challenge | getMeasurements | fuseArmExpiry | conventionalReset => exact ⟨_, rfl, rfl⟩
  case fuseArm | advanceCounter | debugLock => exact ⟨_, rfl, rootAccess_pending ..⟩
  case fuseBlowDone => exact ⟨_, rfl, blowDone_pending ..⟩
  case rcvRead | rcvErase | rcvProgram => exact ⟨_, rfl, rcvCommand_pending ..⟩
  case rcvOpDone => exact ⟨_, rfl, rcvDone_pending ..⟩
  case bootStepComplete => exact ⟨_, rfl, bootStepComplete_pending ..⟩
  case auxPowerOn => exact ⟨_, rfl, (auxPowerOn_frame s).1⟩
  case auxPowerLoss => exact ⟨_, rfl, auxPowerLoss_pending s⟩
  case pkgRstAssert => exact ⟨_, rfl, pkgRstAssert_pending s⟩
  case pkgRstRelease => exact ⟨_, rfl, (pkgRstRelease_frame ..).1⟩
  case registerWrite => exact ⟨_, rfl, hostStore_pending ..⟩
  case counterReadClear => exact ⟨_, rfl, counterRead_pending ..⟩
  case testPortInstruction => exact ⟨_, rfl, testPort_pending ..⟩
  case vendorBootStatus => exact ⟨_, rfl, (vendorBootStatus_frame ..).1⟩
  all_goals exact absurd rfl h

/-- Settles O3: a row of the part leaves the queue by its shape, and so does each of the other commands. -/
theorem everyCommandAnswers : Obligations.EveryCommandAnswers := exec_answers

/-! ### The fuse and NVM side -/

/-- Settles O5: outside the root side's rows a command acts on the part alone, or reads the fuse side and leaves it. -/
theorem rootKept : Obligations.RootKept := by
  intro i s t hside ht
  by_cases h : partOnly i = true
  · obtain ⟨f, hf⟩ := exec_partOnly i h
    cases (hf s).symm.trans ht
    rfl
  cases i
  case keyLoad | kekQuery | save | restore | challenge | getMeasurements => cases ht; rfl
  case auxPowerOn => cases ht; exact (auxPowerOn_frame s).2
  case pkgRstRelease => cases ht; exact (pkgRstRelease_frame ..).2
  case counterReadClear => cases ht; exact counterRead_root ..
  case vendorBootStatus => cases ht; exact (vendorBootStatus_frame ..).2
  case bootStepComplete | fuseArm | fuseArmExpiry | advanceCounter | debugLock | fuseBlowDone | rcvRead | rcvErase | rcvProgram |
      rcvOpDone | registerWrite | testPortInstruction | conventionalReset | pkgRstAssert | auxPowerLoss =>
    nomatch hside
  all_goals exact absurd rfl h

end Sys2Proof.Proofs
end

section
/-! What each operation of the fuse and NVM side leaves of it (R457–R460): blown bits stay blown, memories stay canonical. -/

namespace Sys2Proof.Proofs

open Sys2Proof.Machine

/-! ### What every operation keeps -/

/-- `r'` is a root side that `r` may become: only bits of arb_counter and copies of debug_lock have been blown, and canonical memories
are canonical still. -/
structure RootKeeps (r r' : Root) : Prop where
  grows : ∃ arb lock, r'.fuses = { r.fuses with arb := r.fuses.arb ||| arb, debugLock := r.fuses.debugLock ||| lock }
  sound : Root.sound r → Root.sound r'

/-- Nothing blown. -/
theorem fuses_or_zero (f : Fuses) : { f with arb := f.arb ||| 0#64, debugLock := f.debugLock ||| 0#4 } = f := by simp

theorem RootKeeps.of_fuses_eq {r r' : Root} (hf : r'.fuses = r.fuses) (hs : Root.sound r → Root.sound r') : RootKeeps r r' :=
  ⟨⟨0#64, 0#4, by rw [hf, fuses_or_zero]⟩, hs⟩

/-- Fuses and memories as they were. -/
theorem RootKeeps.of_same {r r' : Root} (hf : r'.fuses = r.fuses) (hn : r'.nvm = r.nvm) (hb : r'.rcvBuf = r.rcvBuf) : RootKeeps r r' :=
  .of_fuses_eq hf fun h => by rwa [Root.sound, hn, hb]

theorem RootKeeps.refl (r : Root) : RootKeeps r r := .of_same rfl rfl rfl

theorem RootKeeps.trans {a b c : Root} (h : RootKeeps a b) (k : RootKeeps b c) : RootKeeps a c := by
  obtain ⟨arb, lock, hab⟩ := h.grows
  obtain ⟨arb', lock', hbc⟩ := k.grows
  exact ⟨⟨arb ||| arb', lock ||| lock', by rw [hbc, hab]; simp [BitVec.or_assoc]⟩, k.sound ∘ h.sound⟩

/-- Bits of arb_counter blown. -/
theorem RootKeeps.of_arb {r r' : Root} (w : BitVec 64) (hf : r'.fuses = { r.fuses with arb := r.fuses.arb ||| w })
    (hs : Root.sound r → Root.sound r') : RootKeeps r r' :=
  ⟨⟨w, 0#4, by rw [hf, BitVec.or_zero]⟩, hs⟩

/-- Copies of debug_lock blown. -/
theorem RootKeeps.of_lock {r r' : Root} (w : BitVec 4) (hf : r'.fuses = { r.fuses with debugLock := r.fuses.debugLock ||| w })
    (hs : Root.sound r → Root.sound r') : RootKeeps r r' :=
  ⟨⟨0#64, w, by rw [hf, BitVec.or_zero]⟩, hs⟩

/-! ### Fuses -/

theorem advanceCounter_keeps (v : Nat) (r : Root) : RootKeeps r (advanceCounter v r) := by
  unfold advanceCounter
  split_ifs <;> exact .of_same rfl rfl rfl

theorem debugLock_keeps (r : Root) : RootKeeps r (debugLock r) := by
  unfold debugLock
  split_ifs <;> exact .of_same rfl rfl rfl

theorem fuseArm_keeps (v : Reg32) (r : Root) : RootKeeps r (fuseArm v r) := by
  unfold fuseArm
  split_ifs <;> exact .of_same rfl rfl rfl

theorem fuseCtrl_keeps (n : Nat) (v : Reg32) (r : Root) : RootKeeps r (fuseCtrl n v r) := by
  unfold fuseCtrl
  split_ifs
  · exact advanceCounter_keeps n r
  · exact debugLock_keeps r
  · exact fuseArm_keeps v r

/-- A blow cut short blows some of its bits. -/
theorem cutBlow_keeps (r : Root) (n : Nat) : RootKeeps r (r.cutBlow n) := by
  unfold Root.cutBlow
  split
  · exact .refl r
  · exact .of_arb _ rfl id
  · exact .of_lock _ rfl id

theorem fuseBlowDone_keeps (ok : Bool) (n : Nat) (r : Root) : RootKeeps r (fuseBlowDone ok n r) := by
  unfold fuseBlowDone
  split
  · exact .refl r
  split_ifs
  · split
    · exact .of_arb _ rfl id
    · have hall : r.fuses.debugLock ||| 0b1111#4 = 0b1111#4 := BitVec.or_allOnes
      exact .of_lock 0b1111#4 (by rw [hall]) id
  · exact (cutBlow_keeps r _).trans (.of_same rfl rfl rfl)

/-! ### The NVM and the recovery buffer -/

theorem cutNvm_keeps (r : Root) (f : Nat → Nat) : RootKeeps r (r.cutNvm f) := by
  unfold Root.cutNvm
  split
  · exact .of_same rfl rfl rfl
  · exact .of_fuses_eq rfl fun h => ⟨twriteN_wf _ _ h.1, h.2⟩
  · exact .refl r

theorem pkgReset_keeps (r : Root) (n : Nat) : RootKeeps r (r.pkgReset n) := by
  have hcut := (cutBlow_keeps r (Config.free n)).trans (cutNvm_keeps _ fun i => Config.free (n + 1 + i))
  exact hcut.trans (.of_fuses_eq rfl fun h => ⟨h.1, rfl⟩)

theorem perst_keeps (r : Root) : RootKeeps r r.perst := by
  unfold Root.perst
  split_ifs
  · exact .of_same rfl rfl rfl
  · exact .of_fuses_eq rfl fun h => ⟨h.1, rfl⟩

theorem rcvStart_keeps (op : Nat) (a : BitVec 28) (l : BitVec 16) (b : Bytes) (r : Root) : RootKeeps r (rcvStart op a l b r) := by
  unfold rcvStart
  split_ifs
  · exact .refl r
  · exact .of_fuses_eq rfl fun h => ⟨h.1, twriteN_wf _ _ h.2⟩
  · exact .of_same rfl rfl rfl

theorem rcvStore_keeps (off : Nat) (v : Reg32) (r : Root) : RootKeeps r (rcvStore off v r) := by
  unfold rcvStore
  split_ifs
  · dsimp only
    split_ifs
    · exact .refl r
    · exact rcvStart_keeps ..
  · exact .refl r
  · exact .of_same rfl rfl rfl
  · exact .of_same rfl rfl rfl
  · exact .of_fuses_eq rfl fun h => ⟨h.1, twriteN_wf _ _ h.2⟩
  · exact .refl r

theorem rcvEnd_keeps (r : Root) (ok : Bool) (n : Nat) : RootKeeps r (r.rcvEnd ok n) := by
  unfold Root.rcvEnd
  split
  · exact .refl r
  dsimp only
  split_ifs
  · exact .of_same rfl rfl rfl
  · exact (cutNvm_keeps r _).trans (.of_same rfl rfl rfl)
  · exact .of_fuses_eq rfl fun h => ⟨h.1, twriteN_wf _ _ h.2⟩
  · refine .of_fuses_eq rfl fun h => ⟨?_, h.2⟩
    dsimp only
    exact tdrop_wf _ h.1
  · exact .of_fuses_eq rfl fun h => ⟨twriteN_wf _ _ h.1, h.2⟩

theorem rcvOpDone_keeps (ok : Bool) (n : Nat) (r : Root) : RootKeeps r (rcvOpDone ok n r) := by
  unfold rcvOpDone
  dsimp only
  split_ifs
  · exact (rcvEnd_keeps r ok n).trans (.of_fuses_eq rfl fun h => ⟨h.1, rfl⟩)
  · exact rcvEnd_keeps r ok n

theorem cfgRecords_keeps (r : Root) (c : Chip) (xs : List CfgRec) : RootKeeps r (r.cfgRecords c xs) := by
  refine List.foldlRecOn _ _ (motive := RootKeeps r) (.refl r) fun q hq x _ => hq.trans ?_
  split_ifs
  · exact fuseCtrl_keeps ..
  · exact .refl q

/-! ### The commands of the root side -/

theorem rootAccess_keeps (m : Master) {f : Root → Root} (hf : ∀ r, RootKeeps r (f r)) (s : State) :
    RootKeeps s.root (rootAccess m f s).root := by
  obtain h | h | h := rootAccess_cases m f s <;> rw [h]
  · exact .refl _
  · exact hf _
  · exact .refl _

theorem blowDone_keeps (ok : Bool) (s : State) : RootKeeps s.root (blowDone ok s).root := by
  unfold blowDone
  split_ifs
  · exact fuseBlowDone_keeps ..
  · exact .refl _

theorem rcvCommand_keeps (op : Nat) (a : BitVec 28) (l : BitVec 16) (b : Bytes) (s : State) :
    RootKeeps s.root (rcvCommand op a l b s).root := by
  unfold rcvCommand
  split_ifs
  · exact rcvStart_keeps ..
  · exact .refl _

theorem rcvDone_keeps (ok : Bool) (s : State) : RootKeeps s.root (rcvDone ok s).root := by
  unfold rcvDone
  split_ifs
  · exact rcvOpDone_keeps ..
  · exact .refl _

theorem bootStepComplete_keeps (hw : Option Nat) (s : State) : RootKeeps s.root (bootStepComplete hw s).root := by
  unfold bootStepComplete
  dsimp only
  split
  · exact .refl _
  split
  case h_6 => exact cfgRecords_keeps ..
  all_goals exact .refl _

theorem auxPowerLoss_keeps (s : State) : RootKeeps s.root (auxPowerLoss s).root := by
  unfold auxPowerLoss
  split
  · exact pkgReset_keeps ..
  · exact .refl _

theorem pkgRstAssert_keeps (s : State) : RootKeeps s.root (pkgRstAssert s).root := by
  unfold pkgRstAssert
  split
  · exact pkgReset_keeps ..
  · exact .refl _

theorem conventionalResetAll_keeps (port link : Nat) (cause : LinkResetCause) (s : State) :
    RootKeeps s.root (conventionalResetAll port link cause s).root := by
  unfold conventionalResetAll
  dsimp only
  split_ifs
  · exact perst_keeps _
  · exact .refl _

theorem bar4Store_keeps (m : Master) (off : Nat) (v : Reg32) (s : State) : RootKeeps s.root (bar4Store m off v s).root := by
  obtain h | h := bar4Store_root m off v s <;> rw [h]
  · exact .refl _
  · exact fuseCtrl_keeps ..

theorem hostStore_keeps (m : Master) (off size : Nat) (v : BitVec 64) (s : State) : RootKeeps s.root (hostStore m off size v s).root := by
  unfold hostStore
  dsimp only
  split
  · exact .refl _
  split
  case h_1 => -- BAR4
    split_ifs
    · exact .refl _
    · exact bar4Store_keeps ..
    · exact (bar4Store_keeps ..).trans (bar4Store_keeps ..)
    · exact .refl _
  case h_4 => -- the recovery function's BAR0
    split_ifs
    · exact rcvStore_keeps ..
    · exact .refl _
  all_goals (try split_ifs) <;> exact .refl _

theorem testPort_keeps (i : TestInstr) (s : State) : RootKeeps s.root (testPort i s).root := by
  unfold testPort testBypass
  split
  · exact .refl _
  split
  case h_6 => -- a read of a register
    split
    · exact .of_same (by rw [State.onChip_root, bar4Access_root]) (by rw [State.onChip_root, bar4Access_root])
        (by rw [State.onChip_root, bar4Access_root])
    · exact .refl _
  case h_7 => -- a write of one
    split
    · exact bar4Store_keeps ..
    · exact .refl _
  all_goals (try split) <;> exact .refl _

/-- Every command keeps what is blown and the canonical memories. -/
theorem exec_keeps (i : Instr) (s t : State) (h : exec i s = .next t) : RootKeeps s.root t.root := by
  cases hside : i.onRootSide
  · rw [rootKept i s t hside h]
    exact .refl _
  cases i
  case bootStepComplete => cases h; exact bootStepComplete_keeps ..
  case fuseArm => cases h; exact rootAccess_keeps _ (fuseCtrl_keeps _ _) s
  case fuseArmExpiry => cases h; exact .of_same rfl rfl rfl
  case advanceCounter => cases h; exact rootAccess_keeps _ (advanceCounter_keeps _) s
  case debugLock => cases h; exact rootAccess_keeps _ debugLock_keeps s
  case fuseBlowDone => cases h; exact blowDone_keeps ..
  case rcvRead | rcvErase | rcvProgram => cases h; exact rcvCommand_keeps ..
  case rcvOpDone => cases h; exact rcvDone_keeps ..
  case registerWrite => cases h; exact hostStore_keeps ..
  case testPortInstruction => cases h; exact testPort_keeps ..
  case conventionalReset => cases h; exact conventionalResetAll_keeps ..
  case pkgRstAssert => cases h; exact pkgRstAssert_keeps s
  case auxPowerLoss => cases h; exact auxPowerLoss_keeps s
  all_goals nomatch hside

theorem step_keeps (s t : State) (h : step s = .next t) : RootKeeps s.root t.root := by
  unfold step at h
  split at h
  · cases h
    exact .refl _
  · exact (exec_keeps _ _ t h :)

/-! ### Blown fuses -/

/-- More blown bits, no lower a highest one. -/
theorem highestBlown_le (v : BitVec 64) (n : Nat) : highestBlown v n ≤ n := by
  induction n with
  | zero => exact Nat.le_refl 0
  | succ n ih =>
    simp only [highestBlown]
    split_ifs
    · exact Nat.le_refl _
    · exact ih.trans (Nat.le_succ n)

/-- More blown bits, no lower a highest one. -/
theorem highestBlown_le_of_or (v w : BitVec 64) (n : Nat) : highestBlown v n ≤ highestBlown (v ||| w) n := by
  induction n with
  | zero => exact Nat.le_refl 0
  | succ n ih =>
    have hle : highestBlown v (n + 1) ≤ n + 1 := highestBlown_le v (n + 1)
    cases hv : v.getLsbD n
    · rw [highestBlown_succ_of_unblown hv]
      cases hor : (v ||| w).getLsbD n
      · rwa [highestBlown_succ_of_unblown hor]
      · rw [highestBlown_succ_of_blown hor]
        exact (highestBlown_le v n).trans (Nat.le_succ n)
    · rwa [highestBlown_succ_of_blown (show (v ||| w).getLsbD n = true by simp [hv])]

/-- Settles O6: a step blows bits and changes no other fuse; the counter and the lock follow from the blown bits. -/
theorem fusesOnlyGrow : Obligations.FusesOnlyGrow := by
  intro s t h
  obtain ⟨arb, lock, hfuses⟩ := (step_keeps s t h).grows
  refine ⟨fun k hk => ?arb, fun k hk => ?copy, ?counter, fun hlocked => ?locked, by rw [hfuses]⟩
  case arb => simp [hfuses, hk]
  case copy => simp [hfuses, hk]
  case counter =>
    simp only [Root.arbCounter, hfuses]
    exact highestBlown_le_of_or ..
  case locked =>
    obtain ⟨k, hk⟩ := (locked_iff s.root).mp hlocked
    exact (locked_iff t.root).mpr ⟨k, by simp [hfuses, hk]⟩

/-- Settles O7: each operation of the root side writes its memories by the canonical writes of tables. -/
theorem rootStaysSound : Obligations.RootStaysSound := fun s t hs h => (step_keeps s t h).sound hs

end Sys2Proof.Proofs
end

section
/-! The KEK seed among the fuses (R461): what a command does whatever the seed is. An operation is blind to the seed when it answers for
any other seed what it answers for this one, with that seed kept. -/

namespace Sys2Proof.Proofs

open Sys2Proof.Machine

/-! ### The root side with another seed -/

/-- The root side with another KEK seed. -/
def withSeed (k : Nat) (r : Root) : Root := { r with fuses := { r.fuses with kekSeed := k } }

@[simp] theorem withKek_chip (s : State) (k : Nat) : (s.withKek k).chip = s.chip := (rfl)

@[simp] theorem withKek_root (s : State) (k : Nat) : (s.withKek k).root = withSeed k s.root := (rfl)

theorem withKek_onChip (s : State) (k : Nat) (f : Chip → Chip) : (s.withKek k).onChip f = (s.onChip f).withKek k := rfl

/-- Operations of the root side that are blind to the seed. -/
def BlindRoot (f : Root → Root) : Prop := ∀ k r, f (withSeed k r) = withSeed k (f r)

theorem BlindRoot.ite {f g : Root → Root} {p : Root → Prop} [DecidablePred p] (hp : ∀ k r, p (withSeed k r) = p r)
    (hf : BlindRoot f) (hg : BlindRoot g) : BlindRoot fun r => if p r then f r else g r := by
  intro k r
  by_cases h : p r
  · simpa only [hp, h, if_true] using hf k r
  · simpa only [hp, h, if_false] using hg k r

theorem BlindRoot.comp {f g : Root → Root} (hg : BlindRoot g) (hf : BlindRoot f) : BlindRoot fun r => g (f r) := fun k r =>
  (congrArg g (hf k r)).trans (hg k (f r))

/-- Operations of the machine that are blind to the seed. -/
def Blind (g : State → State) : Prop := ∀ s k, g (s.withKek k) = (g s).withKek k

theorem Blind.onChip (f : Chip → Chip) : Blind fun s => s.onChip f := fun _ _ => rfl

theorem Blind.same : Blind fun s => s := fun _ _ => rfl

/-- What the operation on the root side is may depend on the part. -/
theorem Blind.onRoot {f : Chip → Root → Root} (hf : ∀ c, BlindRoot (f c)) : Blind fun s => s.onRoot (f s.chip) := fun s k =>
  congrArg (fun r => { s with root := r }) (hf s.chip k s.root)

theorem Blind.ite {g h : State → State} {p : State → Prop} [DecidablePred p] (hp : ∀ s k, p (s.withKek k) = p s)
    (hg : Blind g) (hh : Blind h) : Blind fun s => if p s then g s else h s := by
  intro s k
  by_cases hs : p s
  · simpa only [hp, hs, if_true] using hg s k
  · simpa only [hp, hs, if_false] using hh s k

theorem Blind.comp {f g : State → State} (hg : Blind g) (hf : Blind f) : Blind fun s => g (f s) := fun s k =>
  (congrArg g (hf s k)).trans (hg (f s) k)

/-! ### Operations of the root side -/

theorem advanceCounter_blind (n : Nat) : BlindRoot (advanceCounter n) :=
  .ite (fun _ _ => rfl) (fun _ _ => rfl) (.ite (fun _ _ => rfl) (fun _ _ => rfl)
    (.ite (fun _ _ => rfl) (fun _ _ => rfl) fun _ _ => rfl))

theorem debugLock_blind : BlindRoot debugLock :=
  .ite (fun _ _ => rfl) (fun _ _ => rfl) (.ite (fun _ _ => rfl) (fun _ _ => rfl) fun _ _ => rfl)

theorem fuseArm_blind (v : Reg32) : BlindRoot (fuseArm v) :=
  .ite (fun _ _ => rfl) (fun _ _ => rfl) (.ite (fun _ _ => rfl) (fun _ _ => rfl) (.ite (fun _ _ => rfl) (fun _ _ => rfl)
    (.ite (fun _ _ => rfl) (fun _ _ => rfl) fun _ _ => rfl)))

theorem fuseCtrl_blind (n : Nat) (v : Reg32) : BlindRoot (fuseCtrl n v) :=
  .ite (fun _ _ => rfl) (advanceCounter_blind n) (.ite (fun _ _ => rfl) debugLock_blind (fuseArm_blind v))

theorem cutBlow_blind (n : Nat) : BlindRoot fun r => r.cutBlow n := by
  intro k r
  obtain ⟨f, nvm, p, l, e, a, blow⟩ := r
  cases blow with
  | none => rfl
  | some b => cases b <;> rfl

theorem fuseBlowDone_blind (ok : Bool) (n : Nat) : BlindRoot (fuseBlowDone ok n) := by
  intro k r
  obtain ⟨f, nvm, p, l, e, a, blow⟩ := r
  cases blow with
  | none => rfl
  | some b => cases b <;> cases ok <;> rfl

theorem cutNvm_blind (g : Nat → Nat) : BlindRoot fun r => r.cutNvm g := by
  intro k r
  obtain ⟨f, nvm, p, l, e, a, blow, res, ra, rl, op⟩ := r
  obtain _ | _ | _ | _ := op <;> rfl

theorem pkgReset_blind (n : Nat) : BlindRoot fun r => r.pkgReset n :=
  .comp (g := fun r => { r with armed := false, result := .ok, rcvAddr := 0, rcvLen := 0, rcvResult := 0, rcvBuf := [], rcvReset := false })
    (fun _ _ => rfl) (.comp (cutNvm_blind _) (cutBlow_blind _))

theorem perst_blind : BlindRoot Root.perst := .ite (fun _ _ => rfl) (fun _ _ => rfl) fun _ _ => rfl

theorem rcvStart_blind (op : Nat) (a : BitVec 28) (l : BitVec 16) (b : Bytes) : BlindRoot (rcvStart op a l b) :=
  .ite (fun _ _ => rfl) (fun _ _ => rfl) fun _ _ => rfl

theorem rcvStore_blind (off : Nat) (v : Reg32) : BlindRoot (rcvStore off v) :=
  .ite (fun _ _ => rfl) (.ite (fun _ _ => rfl) (fun _ _ => rfl) fun k r => rcvStart_blind _ _ _ _ k r)
    (.ite (fun _ _ => rfl) (fun _ _ => rfl) (.ite (fun _ _ => rfl) (fun _ _ => rfl) (.ite (fun _ _ => rfl) (fun _ _ => rfl)
      (.ite (fun _ _ => rfl) (fun _ _ => rfl) fun _ _ => rfl))))

theorem rcvEnd_blind (ok : Bool) (n : Nat) : BlindRoot fun r => r.rcvEnd ok n := by
  intro k r
  have hcut := cutNvm_blind (fun i => Config.free (n + i)) k r
  cases hop : r.rcvOp with
  | none =>
    have hk : (withSeed k r).rcvOp = none := hop
    simp only [Root.rcvEnd, hop, hk]
  | some op =>
    have hk : (withSeed k r).rcvOp = some op := hop
    have hfits : (withSeed k r).nvmSize < (withSeed k r).rcvAddr + (withSeed k r).rcvBytes ↔ r.nvmSize < r.rcvAddr + r.rcvBytes := .rfl
    simp only [Root.rcvEnd, hop, hk, hfits, hcut]
    split_ifs <;> rfl

theorem rcvOpDone_blind (ok : Bool) (n : Nat) : BlindRoot (rcvOpDone ok n) :=
  .comp (g := fun r => if r.rcvReset then { r with rcvAddr := 0, rcvLen := 0, rcvResult := 0, rcvBuf := [], rcvReset := false } else r)
    (.ite (fun _ _ => rfl) (fun _ _ => rfl) fun _ _ => rfl) (rcvEnd_blind ok n)

/-! ### An access to BAR4, case by case (R531) -/

section
variable {m : Master} {off d : Nat} {a : RegAddr} {s : State}

theorem bar4Access_unnamed {v : Option Reg32} (h : namedBar4 off = none) : bar4Access m off v s = (0, s) := by
  rw [bar4Access, h]

variable (hnamed : namedBar4 off = some (d, a))
include hnamed

theorem bar4Access_write {v : Reg32} (h : s.chip.path m d a.blk = .clear) :
    bar4Access m off (some v) s = (0, s.onChip fun c => c.regWrite m d a v) := by
  simp only [bar4Access, hnamed, h]

theorem bar4Access_read (h : s.chip.path m d a.blk = .clear) : bar4Access m off none s = s.regRead m d a := by
  simp only [bar4Access, hnamed, h]

theorem bar4Access_unreachable {v : Option Reg32} (h : s.chip.path m d a.blk = .unreachable) :
    bar4Access m off v s = (0, s.onChip fun c => c.accessFail d) := by
  simp only [bar4Access, hnamed, h]

theorem bar4Access_closed {v : Option Reg32} (h : s.chip.path m d a.blk = .absent ∨ s.chip.path m d a.blk = .gated) :
    bar4Access m off v s = (0, s) := by
  obtain h | h := h <;> simp only [bar4Access, hnamed, h]

end

/-! ### Accesses -/

/-- Reads that are blind to the seed: the value is the same. -/
def BlindRead (f : State → Nat × State) : Prop := ∀ s k, f (s.withKek k) = ((f s).1, (f s).2.withKek k)

/-- No register shows the KEK seed. -/
theorem pkgView_withSeed (c : Chip) (k : Nat) (r : Root) (a : RegAddr) (v : Nat) : c.pkgView (withSeed k r) a v = c.pkgView r a v := by
  have harb : (withSeed k r).arbCounter = r.arbCounter := rfl
  have hlocked : (withSeed k r).locked = r.locked := rfl
  simp only [Chip.pkgView, harb, hlocked]
  rfl

theorem regView_withKek (s : State) (k d : Nat) (a : RegAddr) : (s.withKek k).regView d a = s.regView d a := by
  simp only [State.regView, withKek_chip, withKek_root, pkgView_withSeed]

theorem regRead_blind (m : Master) (d : Nat) (a : RegAddr) : BlindRead fun s => s.regRead m d a := by
  intro s k
  simp only [State.regRead, regView_withKek]
  split
  · rfl
  · split_ifs <;> rfl

theorem bar4Access_blind (m : Master) (off : Nat) (v : Option Reg32) : BlindRead (bar4Access m off v) := by
  intro s k
  cases hnamed : namedBar4 off with
  | none => rw [bar4Access_unnamed hnamed, bar4Access_unnamed hnamed]
  | some x =>
    obtain ⟨d, a⟩ := x
    cases hpath : s.chip.path m d a.blk with
    | clear =>
      cases v with
      | none => rw [bar4Access_read hnamed hpath, bar4Access_read (s := s.withKek k) hnamed hpath]; exact regRead_blind m d a s k
      | some v => rw [bar4Access_write hnamed hpath, bar4Access_write (s := s.withKek k) hnamed hpath, withKek_onChip]
    | unreachable => rw [bar4Access_unreachable hnamed hpath, bar4Access_unreachable (s := s.withKek k) hnamed hpath, withKek_onChip]
    | absent => rw [bar4Access_closed hnamed (.inl hpath), bar4Access_closed (s := s.withKek k) hnamed (.inl hpath)]
    | gated => rw [bar4Access_closed hnamed (.inr hpath), bar4Access_closed (s := s.withKek k) hnamed (.inr hpath)]

theorem bar4Store_blind (m : Master) (off : Nat) (v : Reg32) : Blind (bar4Store m off v) :=
  .ite (fun _ _ => rfl) (.onRoot (f := fun c => fuseCtrl c.boot.secVersion v) fun _ => fuseCtrl_blind _ v)
    fun s k => congrArg Prod.snd (bar4Access_blind m off (some v) s k)

theorem hostStore_blind (m : Master) (off size : Nat) (v : BitVec 64) : Blind (hostStore m off size v) := by
  intro s k
  unfold hostStore
  rw [withKek_chip]
  split
  · rfl
  split
  case h_1 => -- BAR4
    split_ifs
    · rfl
    · exact bar4Store_blind ..
    · exact Blind.comp (bar4Store_blind _ _ _) (bar4Store_blind _ _ _) s k
    · rfl
  case h_4 => -- the recovery function's BAR0
    split_ifs
    · exact Blind.onRoot (fun _ => rcvStore_blind _ _) s k
    · rfl
  all_goals (try split_ifs) <;> rfl

theorem readPair_blind {f : Nat → State → Nat × State} (hf : ∀ o, BlindRead (f o)) (o : Nat) : BlindRead (readPair f o) := by
  intro s k
  have hfst := hf o s k
  have hsnd := hf (o + 4) (f o s).2 k
  rw [readPair_eq, readPair_eq, hfst, hsnd]

theorem hostLoad_blind (m : Master) (off size : Nat) (s : State) (k : Nat) :
    hostLoad m off size (s.withKek k) = (hostLoad m off size s).map fun x => (x.1, x.2.withKek k) := by
  have hpair := readPair_blind (fun o => bar4Access_blind m o none)
  have hrecovery (o : Nat) : (s.withKek k).recoveryRead o = s.recoveryRead o := rfl
  cases hplace : s.chip.placeOf m off <;> simp only [hostLoad, withKek_chip, hplace, hrecovery] <;> (try split_ifs) <;>
    simp only [Option.map_some, Option.map_none, withKek_onChip, bar4Access_blind m _ none s k, hpair _ s k]

theorem counterRead_blind (m : Master) (off size attr : Nat) : Blind (counterRead m off size attr) := by
  intro s k
  simp only [counterRead, hostLoad_blind, withKek_chip]
  cases (s.chip.refusedBy m (s.chip.placeOf m off)).isSome <;> cases hostLoad m off size s <;> rfl

theorem testPort_blind (i : TestInstr) : Blind (testPort i) := by
  intro s k
  have hdebug : (s.withKek k).debugOk = s.debugOk := rfl
  simp only [testPort, withKek_chip, hdebug, bar4Access_blind .tether _ none s k]
  split
  · rfl
  split
  case h_7 => -- a write of a register
    split
    · exact bar4Store_blind ..
    · rfl
  all_goals (try split) <;> rfl

/-! ### The commands beside the rows of the part -/

theorem rootAccess_blind (m : Master) {f : Chip → Root → Root} (hf : ∀ c, BlindRoot (f c)) :
    Blind fun s => rootAccess m (f s.chip) s :=
  .ite (fun _ _ => rfl) (.onChip _) (.ite (fun _ _ => rfl) (.onRoot hf) .same)

theorem vendorBootStatus_blind (smb : Smb) : Blind (vendorBootStatus smb) :=
  .ite (fun _ _ => rfl) (fun _ _ => rfl) .same

theorem blowDone_blind (ok : Bool) : Blind (blowDone ok) :=
  .ite (fun _ _ => rfl)
    (fun s k => congrArg (fun r => { s with root := r, chip := { s.chip with free := s.chip.free + 1 } }) (fuseBlowDone_blind ok _ k s.root))
    .same

theorem rcvCommand_blind (op : Nat) (a : BitVec 28) (l : BitVec 16) (b : Bytes) : Blind (rcvCommand op a l b) :=
  .ite (fun _ _ => rfl) (.onRoot (f := fun _ => rcvStart op a l b) fun _ => rcvStart_blind op a l b) .same

theorem rcvDone_blind (ok : Bool) : Blind (rcvDone ok) :=
  .ite (fun _ _ => rfl)
    (fun s k => congrArg (fun r => { s with root := r, chip := { s.chip with free := s.chip.free + s.root.cutDraws } })
      (rcvOpDone_blind ok _ k s.root))
    .same

theorem pkgRstAssert_blind : Blind pkgRstAssert :=
  .ite (fun _ _ => rfl)
    (fun s k => congrArg (fun r => { s with root := r, chip := { s.chip.pkgReset with free := s.chip.free + s.root.cutDraws } })
      (pkgReset_blind _ k s.root))
    .same

theorem auxPowerLoss_blind : Blind auxPowerLoss := by
  intro s k
  have hreset := pkgReset_blind s.chip.free k s.root
  simp only [auxPowerLoss, withKek_chip, withKek_root, hreset]
  split <;> rfl

theorem auxPowerOn_blind : Blind auxPowerOn := .ite (fun _ _ => rfl) .same fun _ _ => rfl

theorem pkgRstRelease_blind (a b c : BitVec 2) : Blind (pkgRstRelease a b c) := .ite (fun _ _ => rfl) (fun _ _ => rfl) .same

theorem conventionalResetAll_blind (port link : Nat) (cause : LinkResetCause) : Blind (conventionalResetAll port link cause) := by
  intro s k
  have hperst := perst_blind k s.root
  simp only [conventionalResetAll, withKek_chip, withKek_root, hperst]
  split <;> rfl

/-- A command is blind to the seed when its meaning is. -/
theorem exec_withKek {i : Instr} {g : State → State} (hi : ∀ s, exec i s = .next (g s)) (hg : Blind g) {s t : State} (k : Nat)
    (h : exec i s = .next t) : exec i (s.withKek k) = .next (t.withKek k) := by
  cases (hi s).symm.trans h
  rw [hi, hg s k]

/-- Settles O9: the rows of the part do not see the root side, and each other command but those that wrap keys is blind to the seed. -/
theorem kekSeedUnseen : Obligations.KekSeedUnseen := by
  intro i s t k hkek h
  by_cases hpart : partOnly i = true
  · obtain ⟨f, hf⟩ := exec_partOnly i hpart
    exact exec_withKek hf (.onChip f) k h
  cases i
  case keyLoad | kekQuery | save | restore | bootStepComplete => nomatch hkek
  case challenge | getMeasurements => exact exec_withKek (fun _ => rfl) (fun _ _ => rfl) k h
  case fuseArm m v => exact exec_withKek (fun _ => rfl) (rootAccess_blind m fun c => fuseCtrl_blind c.boot.secVersion v) k h
  case fuseArmExpiry => exact exec_withKek (fun _ => rfl) (fun _ _ => rfl) k h
  case advanceCounter m => exact exec_withKek (fun _ => rfl) (rootAccess_blind m fun c => advanceCounter_blind c.boot.secVersion) k h
  case debugLock m => exact exec_withKek (fun _ => rfl) (rootAccess_blind m fun _ => debugLock_blind) k h
  case fuseBlowDone ok => exact exec_withKek (fun _ => rfl) (blowDone_blind ok) k h
  case rcvRead | rcvErase | rcvProgram => exact exec_withKek (fun _ => rfl) (rcvCommand_blind _ _ _ _) k h
  case rcvOpDone ok => exact exec_withKek (fun _ => rfl) (rcvDone_blind ok) k h
  case registerWrite => exact exec_withKek (fun _ => rfl) (hostStore_blind _ _ _ _) k h
  case counterReadClear => exact exec_withKek (fun _ => rfl) (counterRead_blind _ _ _ _) k h
  case testPortInstruction i => exact exec_withKek (fun _ => rfl) (testPort_blind i) k h
  case conventionalReset => exact exec_withKek (fun _ => rfl) (conventionalResetAll_blind _ _ _) k h
  case pkgRstAssert => exact exec_withKek (fun _ => rfl) pkgRstAssert_blind k h
  case pkgRstRelease => exact exec_withKek (fun _ => rfl) (pkgRstRelease_blind _ _ _) k h
  case auxPowerOn => exact exec_withKek (fun _ => rfl) auxPowerOn_blind k h
  case auxPowerLoss => exact exec_withKek (fun _ => rfl) auxPowerLoss_blind k h
  case vendorBootStatus smb => exact exec_withKek (fun _ => rfl) (vendorBootStatus_blind smb) k h
  all_goals exact absurd rfl hpart

end Sys2Proof.Proofs
end

section
/-! Clocks, supplies and resets of the package: each row under the conditions its statement names. -/

namespace Sys2Proof.Proofs

open Sys2Proof.Machine

/-! ### Rows of the part -/

/-- Two operations that agree on the part at hand give the same next state. -/
theorem next_onChip {s : State} {f g : Chip → Chip} (h : f s.chip = g s.chip) :
    (Host.Outcome.next (s.onChip f) : Outcome) = .next (s.onChip g) :=
  congrArg (fun c => Host.Outcome.next { s with chip := c }) h

/-- What a row of the part gives is a fact about the part. -/
theorem gives_onChip {i : Instr} {s : State} {f : Chip → Chip} {P : State → Prop} (hi : exec i s = .next (s.onChip f))
    (h : P (s.onChip f)) : Gives i s P := ⟨_, hi, h⟩

/-! ### Clocks -/

/-- A part that runs, with the soft reset of its first block under way and that block's gate closed meanwhile. -/
def gatedSoftReset : State :=
  State.reset.onChip fun c =>
    (({ c with pwr := { c.pwr with inReset := false } }).wfld 0 R.clkGate 0 1 0).wfld 0 R.pwrSoftRst 0 1 1

/-- Refutes O55: a soft reset does not end while the gate of its block is closed (R478), so its bit goes on reading 1. -/
theorem not_clockRowsComplete : ¬ Obligations.ClockRowsComplete := by
  intro h
  obtain ⟨-, -, -, -, -, -, -, -, -, -, -, -, -, -, -, -, -, -, hdone⟩ := h gatedSoftReset 0 rfl rfl
  obtain ⟨t, ht, hbit⟩ := hdone 0 (by decide +kernel) (by decide +kernel) (by decide) (by decide +kernel)
  cases ht
  have hstays : (softResetDone 0 0 gatedSoftReset.chip).bit 0 R.pwrSoftRst 0 = true := by decide +kernel
  exact absurd (hbit.symm.trans hstays) (by decide)

/-! ### Supplies -/

/-- A listed value that is not the default stands in the table. -/
theorem mem_of_tget_ne {α : Type} {d v : α} {t : Tab α} {k : Nat} (h : tget d t k = v) (hv : v ≠ d) : (k, v) ∈ t := by
  induction t with
  | nil => exact absurd h.symm hv
  | cons e t ih =>
    obtain ⟨k', v'⟩ := e
    simp only [tget] at h
    split at h
    case isTrue hk => subst hk h; exact List.mem_cons_self
    case isFalse => exact List.mem_cons_of_mem _ (ih h)

/-- Readings stored one after another: each place from `a` on holds its own. -/
theorem tget_foldl_tput_range {α : Type} [DecidableEq α] (d : α) (t : Tab α) (a : Nat) (f : Nat → α) {k n : Nat} (hk : k < n) :
    tget d ((List.range n).foldl (fun t k => tput d t (a + k) (f k)) t) (a + k) = f k := by
  induction n with
  | zero => nomatch hk
  | succ n ih =>
    rw [List.range_succ, List.foldl_append, List.foldl_cons, List.foldl_nil]
    obtain rfl | hlt : k = n ∨ k < n := by omega
    · exact tget_tput_same ..
    · rw [tget_tput_ne _ _ _ (by omega), ih hlt]

/-- A reading at its limit is stored and asserts THERM_N (R561). -/
theorem sensorUpdate_hot {c : Chip} {d k : Nat} {l : List Int} (haux : c.pwr.aux = true) (hmain : c.pwr.mainDown = false)
    (hpg : c.pwr.psPg = true) (hd : c.hasDie d = true) (hk : k < 16) (hlimit : thermLimit (d * 16 + k) ≤ l.getD k 0) :
    tget 0 (sensorUpdate d l c).pwr.sensors (d * 16 + k) = l.getD k 0 ∧ (sensorUpdate d l c).pwr.therm = true := by
  have hstored := tget_foldl_tput_range (0 : Int) c.pwr.sensors (d * 16) (fun k => l.getD k 0) hk
  have hpos : (0 : Int) < thermLimit (d * 16 + k) := by unfold thermLimit; split <;> decide
  have hmem := mem_of_tget_ne hstored (by omega)
  simp only [sensorUpdate, haux, hmain, hpg, hd, Bool.not_false, Bool.and_self, if_true]
  refine ⟨hstored, ?_⟩
  rw [Bool.or_eq_true, List.any_eq_true]
  exact .inl ⟨_, hmem, decide_eq_true hlimit⟩

/-- Settles O56: each row of the supplies and of the package's resets under its own conditions. -/
theorem powerRowsComplete : Obligations.PowerRowsComplete := by
  intro s
  refine ⟨fun haux hdie => ?on, fun haux => ⟨fun l => ?psEn, fun hen hst => ?rise, fun hen hst => ?riseWaiting,
    fun d hpg hr hd hb => ?fall, fun d hpg hr => ?fallInReset, fun d rail hr hd => ?stage, ?fltFall, fun v i p rails hup => ?telemetry,
    fun hup => ?timeout, fun d l k hmain hpg hd hk hlimit => ?sensor, fun h => ?standby, fun hr hst => ?standbyLocked, fun hr => ?assert,
    fun a b c hr hdie => ?release, ?loss⟩, fun haux => ?standbyOff⟩
  case on => exact ⟨_, rfl, by simp [auxPowerOn, haux, hdie, dieCountOf, Chip.resetWith, Power.powerOn]⟩
  case psEn => exact gives_onChip rfl (by simp [psEnChange, State.onChip, haux])
  case rise => exact gives_onChip rfl (by simp [psPgRise, State.onChip, haux, hen, hst])
  case riseWaiting => exact gives_onChip rfl (by simp [psPgRise, State.onChip, haux, hen, hst])
  case fall =>
    have hb' (p : Power) : Chip.booting { s.chip with pwr := p } = false := hb
    have hd' (p : Power) : Chip.hasDie { s.chip with pwr := p } d = true := hd
    exact next_onChip (by simp [psPgFall, haux, hpg, hr, hb', hd'])
  case fallInReset => exact gives_onChip rfl (by simp [psPgFall, State.onChip, haux, hpg, hr])
  case stage =>
    have hd' (p : Power) : Chip.hasDie { s.chip with pwr := p } d = true := hd
    exact next_onChip (by simp [powerStageFault, haux, hr, hd'])
  case fltFall => exact gives_onChip rfl (by simp [psFltFall, State.onChip, haux])
  case telemetry => exact gives_onChip rfl (by simp [telemetryUpdate, State.onChip, hup])
  case timeout => exact next_onChip (by simp [telemetryTimeout, hup])
  case sensor => exact gives_onChip rfl (sensorUpdate_hot haux hmain hpg hd hk hlimit)
  case standby =>
    obtain hr | hst := h
    · exact gives_onChip rfl (by simp [standbyRailsChange, State.onChip, haux, hr])
    · exact gives_onChip rfl (by simp [standbyRailsChange, State.onChip, haux, hst])
  case standbyLocked => exact next_onChip (by simp [standbyRailsChange, haux, hr, hst])
  case assert => exact congrArg Host.Outcome.next (by simp [pkgRstAssert, haux, hr])
  case release => exact ⟨_, rfl, by simp [pkgRstRelease, haux, hr, hdie, dieCountOf]⟩
  case loss => exact ⟨_, rfl, by simp [auxPowerLoss, haux, Chip.resetWith, Power.powerOn]⟩
  case standbyOff => exact gives_onChip rfl (by simp [standbyRailsChange, State.onChip, haux])

/-- Settles O31: with no blow and no operation of the recovery function under way nothing of fuses and NVM is cut short. -/
theorem packageReset : Obligations.PackageReset := by
  intro s haux hr hblow hop
  have hroot : s.root.pkgReset s.chip.free = { s.root with
      armed := false, result := .ok, rcvAddr := 0, rcvLen := 0, rcvResult := 0, rcvBuf := [], rcvReset := false } := by
    simp [Root.pkgReset, Root.cutBlow, hblow, Root.cutNvm, hop]
  have hassert : pkgRstAssert s = { s with
      root := s.root.pkgReset s.chip.free, chip := { s.chip.pkgReset with free := s.chip.free + s.root.cutDraws } } := by
    simp [pkgRstAssert, haux, hr]
  refine ⟨_, rfl, ?_⟩
  rw [hassert, hroot]
  exact ⟨rfl, rfl, rfl, rfl, rfl, rfl, rfl, rfl, rfl, rfl, rfl, rfl, rfl, rfl, rfl, rfl, rfl, rfl, rfl, rfl, rfl, rfl⟩

/-! ### The run's beginning, and an edge -/

/-- Settles O1: the queue is not empty. -/
theorem stepRunsFront : Obligations.StepRunsFront := fun _ _ => rfl

/-- A part with nothing waiting whose port 0 is up and must secure its frames, with the MACsec block disabled and an own HSP frame to
send. -/
def unsecuredOwn : State :=
  State.reset.onChip fun c =>
    let c := { c with pwr := { c.pwr with inReset := false }, dp := { c.dp with own := [(0, [.hsp []])] } }
    (((c.wr 0 (R.macPortCfg 0) 1).wr 0 (R.macPortStatus 0) 1).wr 0 ⟨8, 0⟩ 1).wr 0 (R.cipMacsecPort 0) 1

/-- Refutes O2: an edge also lets a port's own frames leave (R236, R417); one that cannot be secured is dropped and counted in
BUF_DROP_TOTAL, a register. -/
theorem not_idleStepIsEdge : ¬ Obligations.IdleStepIsEdge := by
  intro h
  obtain ⟨-, -, -, -, hregs⟩ := h unsecuredOwn rfl
  have hcounts : unsecuredOwn.chip.tick.regs ≠ unsecuredOwn.chip.regs := by decide +kernel
  exact hcounts hregs

/-- Settles O4: every field of the reset state reads off its definition. -/
theorem resetState : Obligations.ResetState := by
  refine ⟨rfl, ⟨rfl, rfl⟩, rfl, rfl, rfl, rfl, rfl, fun d a => ?register, rfl, fun _ => rfl, fun _ => ⟨rfl, rfl⟩⟩
  case register =>
    have hword : State.reset.chip.rdw d a = BitVec.ofNat 32 (regReset d a) := BitVec.zero_xor
    rw [Chip.rd, hword, BitVec.toNat_ofNat]

end Sys2Proof.Proofs
end

section
/-! The boot, the fuse block and the recovery function, row by row (R453–R460). -/

namespace Sys2Proof.Proofs

open Sys2Proof.Machine

/-! ### What a report leaves alone -/

section
variable {c t : Chip} (h : c.ReportsOf t)
include h

theorem reportsOf_boot : t.boot = c.boot := by obtain ⟨_, _, _, _, rfl, _⟩ := h; rfl

end

/-! ### A boot that fails -/

theorem linksDown_boot (c : Chip) : c.linksDown.boot = c.boot :=
  List.foldlRecOn _ _ (motive := fun t : Chip => t.boot = c.boot) rfl fun _ ht _ _ =>
    List.foldlRecOn _ _ (motive := fun t : Chip => t.boot = c.boot) ht fun _ ht _ _ => ht

theorem hold_boot (c : Chip) (h : Held) : (c.hold h).boot = c.boot := by
  unfold Chip.hold
  split <;> rfl

/-- A boot that fails stays at its step. -/
theorem bootFail_step (c : Chip) (code cls die : Nat) : (c.bootFail code cls die).boot.step = c.boot.step := by
  unfold Chip.bootFail
  dsimp only
  split
  · rw [linksDown_boot]; rfl
  · rw [reportsOf_boot (Chip.raise_reports ..), hold_boot, linksDown_boot]; rfl

/-! ### The steps of the boot -/

/-- The conditions under which a boot step can end. -/
def canEndStep (c : Chip) : Bool := c.pwr.aux && !c.pwr.inReset && c.tetherUp && c.booting

/-- The effect of the boot step under way. -/
def bootStepEffect (hw : Option Nat) (s : State) : State :=
  match s.chip.boot.step with
  | 1 => s.onChip fun c => c.nextStep c.boot.state
  | 2 => s.onChip fun c => c.bootStep2 s.root hw
  | 3 => s.onChip fun c => c.bootStep3 s.root hw
  | 4 => s.onChip fun c => c.bootStep4 s.root
  | 5 => s.onChip fun c => c.bootStep5 s.root
  | 6 => (s.onRoot fun r => r.cfgRecords s.chip (cfgRecs (r.sectOr s.chip.boot 1))).onChip fun c => Chip.endLoad (c.loadConfig s.root) .loading
  | 7 => s.onChip fun c => Chip.endLoad (c.loadMemories s.root) .enabling
  | 8 => s.onChip fun c => Chip.endLoad c.enableAll .enabling
  | _ => s.onChip fun c => c.bootDone

theorem bootStepComplete_eq {s : State} {hw : Option Nat} (h : canEndStep s.chip = true) :
    bootStepComplete hw s = bootStepEffect hw s := by
  simp only [canEndStep] at h
  simp only [bootStepComplete, h]
  rfl

theorem bootStepComplete_five {s : State} {hw : Option Nat} (h : canEndStep s.chip = true) (hstep : s.chip.boot.step = 5) :
    bootStepComplete hw s = s.onChip fun c => c.bootStep5 s.root := by
  simp only [bootStepComplete_eq h, bootStepEffect, hstep]

theorem bootStepComplete_ignored {s : State} {hw : Option Nat} (h : canEndStep s.chip = false) : bootStepComplete hw s = s := by
  simp only [canEndStep] at h
  simp [bootStepComplete, h]

/-- A load that ends a step goes on or ends the boot with its class raised. -/
theorem endLoad_eq (l : Load) (st : BootState) : Chip.endLoad l st =
    match l.2 with
    | none => l.1.nextStep st
    | some x => (l.1.raise x.1 x.2 { block := 0x22, cause := l.1.loadCause x.1 x.2 }).bootFail Fail.configError x.1 x.2 := by
  obtain ⟨c, _ | x⟩ := l <;> rfl

/-- Step 5 passes an image that checks 9 to 11 pass, and takes its header. -/
theorem bootStep5_passes {c : Chip} {r : Root} (h : r.imageFails c.boot.slotB = none) :
    (c.bootStep5 r).boot.state = .verified ∧ (c.bootStep5 r).boot.step = c.boot.step + 1 ∧
      (c.bootStep5 r).boot.secVersion = r.imgBe c.boot.slotB 16 4 ∧ (c.bootStep5 r).regs = c.regs := by
  unfold Chip.bootStep5
  dsimp only
  rw [h]
  exact ⟨rfl, rfl, rfl, rfl⟩

theorem bootStep5_fails {c : Chip} {r : Root} {code : Nat} (h : r.imageFails c.boot.slotB = some code) :
    c.bootStep5 r = c.bootFail code 0 0 := by
  unfold Chip.bootStep5
  dsimp only
  rw [h]

/-- Checks 9 to 11 (R453). -/
theorem imageFails_eq_none_iff (r : Root) (b : Bool) : r.imageFails b = none ↔
    sm2Verify (r.img b 64 64) (r.img b 128 64) (r.imageDigest b) = true ∧
      (∀ x ∈ r.sectionTable b, sm3 (r.img b x.offset x.length) % 2 ^ 256 = x.digest) ∧ r.arbCounter ≤ r.imgBe b 16 4 := by
  simp only [Root.imageFails]
  generalize hsum : (r.sectionTable b).any _ = bad
  rw [List.any_eq] at hsum
  split_ifs with hsig hdigest hver
  · simp_all
  · simp_all
  · simp_all
  · simp_all

/-- Settles O10: step 5 goes on only when checks 9 to 11 pass, and then stores the header's version and no register. -/
theorem bootAcceptsSigned : Obligations.BootAcceptsSigned := by
  intro s hw hstep
  cases hend : canEndStep s.chip
  · refine ⟨_, congrArg Host.Outcome.next (bootStepComplete_ignored hend), rfl, fun h6 => ?_⟩
    omega
  refine ⟨_, congrArg Host.Outcome.next (bootStepComplete_five hend hstep), rfl, fun h6 => ?_⟩
  simp only [State.onChip_chip] at h6 ⊢
  cases hfails : s.root.imageFails s.chip.boot.slotB with
  | some code =>
    rw [bootStep5_fails hfails, bootFail_step] at h6
    omega
  | none =>
    obtain ⟨-, -, hversion, hregs⟩ := bootStep5_passes hfails
    obtain ⟨hsig, hdigests, hcounter⟩ := (imageFails_eq_none_iff ..).mp hfails
    exact ⟨hsig, hdigests, hversion ▸ hcounter, hversion, hregs⟩

/-- Settles O57: each step under its own conditions. -/
theorem bootStepsComplete : Obligations.BootStepsComplete := by
  intro s hw haux hr htether hb
  have hend : canEndStep s.chip = true := by simp [canEndStep, haux, hr, htether, hb]
  have hnext : exec (.bootStepComplete hw) s = .next (bootStepEffect hw s) := congrArg Host.Outcome.next (bootStepComplete_eq hend)
  have hgives {P : State → Prop} (h : P (bootStepEffect hw s)) : Gives (.bootStepComplete hw) s P := ⟨_, hnext, h⟩
  refine ⟨fun hst => ?one, fun d hst hhw hd => ?twoHardware, fun hst hhw hlock hsel hfuses => ?two, fun hst hhw hlock hsel => ?twoStrap,
    fun hst hpg => ?threeWaits, fun hst hpg hhw hnvm => ?three, fun hst => ?four, fun hst => ?five, fun hst => ?six, fun hst => ?seven,
    fun hst => ?eight, fun hst => ?nine⟩
  all_goals try rw [hnext]
  all_goals try refine hgives ?_
  all_goals simp only [bootStepEffect, hst]
  case one => simp [State.onChip, Chip.nextStep, hst]
  case twoHardware => 
    have hfilter : hw.filter s.chip.hasDie = some d := by simp [hhw, Option.filter, hd]
    exact next_onChip (by simp [Chip.bootStep2, hfilter])
  case two => simp [State.onChip, Chip.bootStep2, hhw, hlock, hsel, hfuses, Chip.nextStep, hst]
  case twoStrap => exact next_onChip (by simp [Chip.bootStep2, hhw, hlock, hsel])
  case threeWaits => simp [State.onChip, Chip.bootStep3, hpg]
  case three => simp [State.onChip, Chip.bootStep3, hpg, hhw, hnvm, Chip.nextStep, hst]
  case four =>
    refine next_onChip ?_
    cases hfails : s.root.headerFails s.chip.boot.slotB s.chip.dies <;> simp [Chip.bootStep4, hfails, Chip.nextStep, hst]
  case five =>
    refine ⟨rfl, ?_⟩
    cases hfails : s.root.imageFails s.chip.boot.slotB with
    | some code => exact bootStep5_fails hfails
    | none =>
      obtain ⟨hstate, hstep, hversion, hregs⟩ := bootStep5_passes hfails
      exact ⟨hstate, hstep.trans (congrArg (· + 1) hst), hversion, hregs⟩
  case six => exact endLoad_eq ..
  case seven => exact next_onChip (endLoad_eq ..)
  case eight => exact next_onChip (endLoad_eq ..)

/-! ### Fuses -/

/-- An access to the fuse and NVM side by a master that reaches register space runs its operation. -/
theorem rootAccess_ok {m : Master} {s : State} (f : Root → Root) (hm : s.chip.masterOk m = true) : rootAccess m f s = s.onRoot f := by
  have htakes : ¬(m = .steward ∧ s.chip.stwRefuses = true) := by
    rintro ⟨rfl, href⟩
    rw [((steward_masterOk_iff s.chip).mp hm).2] at href
    nomatch href
  rw [rootAccess, if_neg htakes, if_pos hm]

/-- What a row of the fuse side gives is a fact about the root side. -/
theorem gives_rootAccess {i : Instr} {m : Master} {s : State} {f : Root → Root} {P : State → Prop} (hm : s.chip.masterOk m = true)
    (hi : exec i s = .next (rootAccess m f s)) (h : P (s.onRoot f)) : Gives i s P := ⟨_, hi.trans (by rw [rootAccess_ok f hm]), h⟩

/-- While a blow runs every write of the fuse block is ignored with result BUSY. -/
theorem fuseCtrl_busy {r : Root} {b : Blow} (h : r.blow = some b) (n : Nat) (v : Reg32) : fuseCtrl n v r = { r with result := .busy } := by
  simp only [fuseCtrl, advanceCounter, debugLock, fuseArm, h, Option.isSome_some, if_true, ite_self]

/-- Reading a range byte by byte. -/
theorem getElem_treadN {α : Type} (d : α) (t : Tab α) (a n : Nat) {i : Nat} (h : i < (treadN d t a n).length) :
    (treadN d t a n)[i] = tget d t (a + i) := by
  induction n generalizing a i with
  | zero => nomatch h
  | succ n ih =>
    cases i with
    | zero => rfl
    | succ i => simpa only [treadN, List.getElem_cons_succ, Nat.add_right_comm, Nat.add_assoc] using ih (a + 1) _

theorem length_treadN {α : Type} (d : α) (t : Tab α) (a n : Nat) : (treadN d t a n).length = n := by
  induction n generalizing a with
  | zero => rfl
  | succ n ih => simp only [treadN, List.length_cons, ih]

/-- A program that ends well has cleared bits of its range and left the rest of the NVM (R457). -/
theorem rcvEnd_program {r : Root} (n : Nat) (hop : r.rcvOp = some 3) (hlen : 0 < r.rcvLen) (hfits : r.rcvAddr + r.rcvLen ≤ r.nvmSize)
    (k : Nat) : tget 0xFF#8 (r.rcvEnd true n).nvm k =
      if r.rcvAddr ≤ k ∧ k < r.rcvAddr + r.rcvLen then tget 0xFF#8 r.nvm k &&& tget 0#8 r.rcvBuf (k - r.rcvAddr)
      else tget 0xFF#8 r.nvm k := by
  have hbytes : r.rcvBytes = r.rcvLen := if_neg (by omega)
  simp only [Root.rcvEnd, hop, hbytes, if_neg (show ¬ r.nvmSize < r.rcvAddr + r.rcvLen by omega), Bool.not_true, Bool.false_eq_true,
    if_false, if_neg (show ¬ 3 = 1 by decide), if_neg (show ¬ 3 = 2 by decide), tget_twriteN, List.length_map, List.length_zip,
    length_treadN, Nat.min_self, List.getElem_map, List.getElem_zip, getElem_treadN, Nat.zero_add]
  by_cases hin : r.rcvAddr ≤ k ∧ k < r.rcvAddr + r.rcvLen
  · rw [dif_pos ⟨hin.1, by omega⟩, if_pos hin, Nat.add_sub_cancel' hin.1]
  · rw [dif_neg (by omega), if_neg hin]

/-- Settles O58: each row of the fuse block and of the recovery function under its own conditions. -/
theorem fuseRowsComplete : Obligations.FuseRowsComplete := by
  intro s m
  refine ⟨fun hm hblow => ?arm, ?expiry, fun hm hblow harmed hver => ?advance, fun hm hblow harmed => ?unarmed,
    fun hm hblow harmed => ?lock, fun hblow => ?lockDone, fun n hblow => ?counterDone, fun a l hrec hop => ?read,
    fun a l hrec hop => ?erase, fun a l b hrec hop => ?program, fun hop hreset hlen hfits => ?programDone,
    fun v hm => ⟨fun hblow harmed hv => ?otherWord, fun b hblow i hi => ?busy, fun hblow harmed i hi => ?notArmed,
      fun hblow harmed hver => ?nothingToDo⟩⟩
  case arm => exact gives_rootAccess hm rfl (by simp [fuseCtrl, fuseArm, State.onRoot, hblow])
  case expiry => exact ⟨_, rfl, rfl⟩
  case advance => exact gives_rootAccess hm rfl (by simp [advanceCounter, State.onRoot, hblow, harmed, hver])
  case unarmed => exact gives_rootAccess hm rfl (by simp [advanceCounter, State.onRoot, hblow, harmed])
  case lock => exact gives_rootAccess hm rfl (by simp [debugLock, State.onRoot, hblow, harmed])
  case lockDone => exact ⟨_, rfl, by simp [blowDone, fuseBlowDone, hblow]⟩
  case counterDone => exact ⟨_, rfl, by simp [blowDone, fuseBlowDone, hblow]⟩
  case read => exact ⟨_, rfl, by simp [rcvCommand, rcvStart, State.onRoot, hrec, hop]⟩
  case erase => exact ⟨_, rfl, by simp [rcvCommand, rcvStart, State.onRoot, hrec, hop]⟩
  case program => exact ⟨_, rfl, by simp [rcvCommand, rcvStart, State.onRoot, hrec, hop]⟩
  case programDone =>
    have hdone (n : Nat) : rcvOpDone true n s.root = s.root.rcvEnd true n := by
      have hkeeps : (s.root.rcvEnd true n).rcvReset = false := by
        simp only [Root.rcvEnd, hop]
        split_ifs <;> simp_all
      simp only [rcvOpDone, hkeeps, Bool.false_eq_true, if_false]
    have hbytes : s.root.rcvBytes = s.root.rcvLen := if_neg (by omega)
    refine ⟨_, rfl, ?_⟩
    simp only [rcvDone, hop, Option.isSome_some, if_true, hdone]
    refine ⟨?_, ?_, rcvEnd_program _ hop hlen hfits⟩ <;>
      simp [Root.rcvEnd, hop, hbytes, show ¬ s.root.nvmSize < s.root.rcvAddr + s.root.rcvLen by omega]
  case otherWord =>
    refine gives_rootAccess hm rfl ?_
    simp only [State.onRoot_root, fuseCtrl, advanceCounter, debugLock, fuseArm, hblow, harmed, hv]
    split_ifs <;> simp_all
  case busy =>
    simp only [List.mem_cons, List.not_mem_nil, or_false] at hi
    obtain rfl | rfl | rfl := hi
    · exact congrArg Host.Outcome.next (by rw [rootAccess_ok _ hm]; exact congrArg (fun r => { s with root := r }) (fuseCtrl_busy hblow _ v))
    · exact congrArg Host.Outcome.next (by rw [rootAccess_ok _ hm]; simp [State.onRoot, advanceCounter, hblow])
    · exact congrArg Host.Outcome.next (by rw [rootAccess_ok _ hm]; simp [State.onRoot, debugLock, hblow])
  case notArmed =>
    simp only [List.mem_cons, List.not_mem_nil, or_false] at hi
    obtain rfl | rfl := hi
    · exact congrArg Host.Outcome.next (by rw [rootAccess_ok _ hm]; simp [State.onRoot, advanceCounter, hblow, harmed])
    · exact congrArg Host.Outcome.next (by rw [rootAccess_ok _ hm]; simp [State.onRoot, debugLock, hblow, harmed])
  case nothingToDo => exact gives_rootAccess hm rfl (by simp [advanceCounter, hblow, harmed, hver])

end Sys2Proof.Proofs
end

section
/-! Raising an error class (R511–R519): the three ways a report can end, and what each leaves. -/

namespace Sys2Proof.Proofs

open Sys2Proof.Machine

/-- The classes of the dies are kept apart. -/
theorem clsKey_inj {d e k l : Nat} (hk : k < 256) (hl : l < 256) : clsKey d k = clsKey e l ↔ d = e ∧ k = l := by
  unfold clsKey; omega

/-! ### Where the record of an event goes -/

/-- A logged error leaves what the ring asks of the steward's function. -/
theorem logRoom_of_logs {c t : Chip} (h : c.LogsOf t) (d : Nat) : t.logRoom d = c.logRoom d := by
  obtain ⟨fns, out, rfl, hfns⟩ := h
  have hfn (k : Nat) : (tget PciFn.reset fns k).bme = (c.fn k).bme ∧ (tget PciFn.reset fns k).d3 = (c.fn k).d3 := by
    rw [← hfns k]; exact ⟨rfl, rfl⟩
  have hmasters (f : Nat) : Chip.fnMasters { c with fns := fns, out := out } f = c.fnMasters f := by
    simp only [Chip.fnMasters, Chip.masters]
    show ((tget PciFn.reset fns (c.fnPci f)).bme && !(tget PciFn.reset fns (c.fnPci f)).d3 &&
      (tget PciFn.reset fns (pfOfKey (c.fnPci f))).bme && !(tget PciFn.reset fns (pfOfKey (c.fnPci f))).d3 && _) = _
    simp only [hfn]
    rfl
  unfold Chip.logRoom
  rw [hmasters]
  rfl

theorem logTake_regs (c : Chip) (r : ErrRec) : (c.logTake r).regs = c.regs := by
  unfold Chip.logTake Chip.logWrite
  dsimp only []
  split
  · split <;> rfl
  · rfl

/-- A record that the ring takes leaves every register, and nothing is lost. -/
theorem report_kept {c : Chip} {r : ErrRec} (h : c.logRoom r.die = true) :
    (c.report r).2 = false ∧ (c.report r).1.regs = c.regs := by
  have hlogs := Chip.aerOf_logs { c with faults := { c.faults with ugRaised := c.faults.ugRaised || decide (r.sev = 2) } } r.sev
  have hroom := (logRoom_of_logs hlogs r.die).trans h
  unfold Chip.report
  dsimp only []
  rw [if_pos hroom]
  refine ⟨rfl, (logTake_regs _ _).trans ?_⟩
  obtain ⟨_, _, he, -⟩ := hlogs
  rw [he]

/-- A record that the ring does not take is counted as lost; it is the first loss as long as the overflow is armed. -/
theorem report_lost {c : Chip} {r : ErrRec} (h : c.logRoom r.die = false) :
    (c.report r).2 = c.faults.ovfArmed ∧ (c.report r).1.rd 0 R.fltLogOvf = satAdd 32 (c.rd 0 R.fltLogOvf) 1 := by
  have hlogs := Chip.aerOf_logs { c with faults := { c.faults with ugRaised := c.faults.ugRaised || decide (r.sev = 2) } } r.sev
  have hroom := (logRoom_of_logs hlogs r.die).trans h
  unfold Chip.report
  dsimp only []
  rw [if_neg (by simp [hroom])]
  obtain ⟨_, _, he, -⟩ := hlogs
  rw [he]
  exact ⟨rfl, Laws.rd_count_same _ 0 R.fltLogOvf 1 rfl⟩

/-- FLT_LOG_OVF of die 0 is the one word that a report may change. -/
theorem report_word (c : Chip) (r : ErrRec) {x : Nat} (h : x ≠ bar4 0 R.fltLogOvf) : (c.report r).1.word x = c.word x := by
  obtain ⟨_, _, he, -⟩ :=
    Chip.aerOf_logs { c with faults := { c.faults with ugRaised := c.faults.ugRaised || decide (r.sev = 2) } } r.sev
  unfold Chip.report
  dsimp only []
  rw [he]
  split
  · unfold Chip.word; rw [logTake_regs]
  · exact tget_tput_ne _ _ _ h

theorem raise1_word (c : Chip) (cls die : Nat) (e : Ev) {x : Nat} (h : x ≠ bar4 0 R.fltLogOvf) :
    (c.raise1 cls die e).1.word x = c.word x := by
  unfold Chip.raise1
  dsimp only []
  split
  · rfl
  · exact report_word _ _ h

theorem raise_word (c : Chip) (cls die : Nat) (e : Ev) {x : Nat} (h : x ≠ bar4 0 R.fltLogOvf) :
    (c.raise cls die e).word x = c.word x := by
  unfold Chip.raise
  dsimp only []
  split
  · rw [raise1_word _ _ _ _ h, raise1_word _ _ _ _ h]
  · exact raise1_word _ _ _ _ h

/-- The record of an event on a die is lost: the class is not masked and the ring cannot take it. -/
abbrev Lost (c : Chip) (cls die : Nat) : Prop := c.masked die cls = false ∧ c.logRoom die = false

/-- Whether a raise is the first loss since a record was written. -/
theorem raise1_loss (c : Chip) (cls die : Nat) (e : Ev) :
    (c.raise1 cls die e).2 = true ↔ Lost c cls die ∧ c.faults.ovfArmed = true := by
  unfold Chip.raise1
  dsimp only []
  cases hmask : c.masked die cls
  · rw [if_neg (by simp [Chip.recOf, hmask])]
    cases hroom : c.logRoom die
    · have h := (report_lost (c := c.record (c.recOf cls die e)) (r := c.recOf cls die e) hroom).1
      rw [h]
      simp [Lost, hmask, hroom, Chip.record]
    · simp [report_kept (c := c.record (c.recOf cls die e)) (r := c.recOf cls die e) hroom, Lost, hroom]
  · simp [Chip.recOf, Lost, hmask]

/-- Without a first loss a raise is one report. -/
theorem raise_eq_raise1 {c : Chip} {cls die : Nat} (e : Ev) (h : ¬ (Lost c cls die ∧ c.faults.ovfArmed = true)) :
    c.raise cls die e = (c.raise1 cls die e).1 := by
  unfold Chip.raise
  exact if_neg fun hloss => h ((raise1_loss c cls die e).1 hloss)

/-- A first loss raises LOG_OVERFLOW on die 0 as well. -/
theorem raise_eq_overflow {c : Chip} {cls die : Nat} (e : Ev) (h : Lost c cls die) (harmed : c.faults.ovfArmed = true) :
    c.raise cls die e = ((c.raise1 cls die e).1.raise1 Cls.logOverflow 0 {}).1 := by
  unfold Chip.raise
  exact if_pos ((raise1_loss c cls die e).2 ⟨h, harmed⟩)

theorem raise1_regs_kept {c : Chip} {cls die : Nat} (e : Ev) (h : ¬ Lost c cls die) : (c.raise1 cls die e).1.regs = c.regs := by
  unfold Chip.raise1
  dsimp only []
  split
  case isTrue => rfl
  case isFalse hmask =>
    have hroom : c.logRoom die = true := by
      by_contra hr
      exact h ⟨by simpa [Chip.recOf] using hmask, by simpa using hr⟩
    exact (report_kept (c := c.record (c.recOf cls die e)) (r := c.recOf cls die e) hroom).2

theorem raise1_rd_lost {c : Chip} {cls die : Nat} (e : Ev) (h : Lost c cls die) :
    (c.raise1 cls die e).1.rd 0 R.fltLogOvf = satAdd 32 (c.rd 0 R.fltLogOvf) 1 := by
  obtain ⟨hmask, hroom⟩ := h
  unfold Chip.raise1
  dsimp only []
  rw [if_neg (by simp [Chip.recOf, hmask])]
  exact (report_lost (c := c.record (c.recOf cls die e)) (r := c.recOf cls die e) hroom).2

/-! ### The event as a whole -/

/-- Settles O24. -/
theorem eventRecorded : Obligations.EventRecorded := by
  unfold Obligations.EventRecorded
  intro c cls die e hcls hovf
  have hkey : clsKey die cls ≠ clsKey 0 Cls.logOverflow := fun h => hovf ((clsKey_inj hcls (by decide)).1 h).2
  have hcl := c.raise_cls cls die e hkey
  have hsingle (h : ¬ (Lost c cls die ∧ c.faults.ovfArmed = true)) := raise_eq_raise1 e h
  refine ⟨by rw [hcl]; rfl, ⟨c.recOf cls die e, ?last, rfl, rfl, rfl, rfl, rfl, rfl, rfl, rfl, rfl, rfl, fun hfirst => ?first⟩,
    fun x hfirst => ?keeps, fun hmask => ?masked, fun d k hk hself hother => ?others, fun h => ?quiet, fun hlost harmed => ?overflow,
    fun h => ?regs, fun x => raise_word c cls die e, fun hlost harmed => ?counted, ?frame, ?held⟩
  case last => rw [hcl]; rfl
  case first => rw [hcl]; simp [ClassRec.after, hfirst]
  case keeps => rw [hcl]; simp [ClassRec.after, hfirst]
  case masked =>
    have hrec : (c.recOf cls die e).masked = true := hmask
    refine ⟨?_, ?_, ?_, by rw [hcl]; simp [ClassRec.after, hrec]⟩ <;> rw [c.raise_masked cls die e hmask] <;> rfl
  case others =>
    exact c.raise_cls_ne cls die d k e (fun h => hself ((clsKey_inj hk hcls).1 h)) fun h => hother ((clsKey_inj hk (by decide)).1 h)
  case quiet =>
    rw [hsingle fun hl => by obtain h | h := h; exact h hl.1; simp [h] at hl]
    exact c.raise1_cls_ne cls die 0 0x66 e hkey.symm
  case overflow =>
    rw [raise_eq_overflow e hlost harmed]
    refine (congrArg ClassRec.count (Chip.raise1_cls _ Cls.logOverflow 0 {})).trans ?_
    rw [c.raise1_cls_ne cls die 0 Cls.logOverflow e hkey.symm]
    rfl
  case regs => rw [hsingle fun hl => h hl.1]; exact raise1_regs_kept e h
  case counted => rw [hsingle fun hl => by simp [harmed] at hl]; exact raise1_rd_lost e hlost
  case frame =>
    obtain ⟨_, fns, faults, out, ht, -, hfns⟩ := c.raise_reports cls die e
    exact ⟨fns, faults, out, by rw [ht], hfns⟩
  case held =>
    obtain ⟨_, _, _, _, ht, hheld, -⟩ := c.raise_reports cls die e
    rw [ht]; exact hheld

/-- Raising a class leaves what a report does not touch. -/
theorem raise_frame {α : Type} (c : Chip) (cls die : Nat) (e : Ev) (f : Chip → α)
    (hf : ∀ regs fns faults out, f { c with regs := regs, fns := fns, faults := faults, out := out } = f c) :
    f (c.raise cls die e) = f c := by
  obtain ⟨regs, fns, faults, out, ht, -, -⟩ := c.raise_reports cls die e
  rw [ht, hf]

/-! ### A stalled epoch -/

theorem epochStall_of_stalled {c : Chip} {sl : Nat} (h : (c.slot sl).stalled = true) (ms : Nat) : epochStall sl ms c = c := by
  simp [epochStall, h]

theorem slot_setSlot_same {c : Chip} {sl : Nat} (x : Slot) (h : sl < c.rl.slots.length) : (c.setSlot sl x).slot sl = x := by
  simp [Chip.slot, Chip.setSlot, Chip.setRl, h]

/-- Settles O23. -/
theorem epochStallReported : Obligations.EpochStallReported := by
  unfold Obligations.EpochStallReported
  intro s sl ms hsl hslots halive hst hstalled hlim hms
  obtain ⟨q, hq⟩ : ∃ q, q = s.chip.setSlot sl { s.chip.slot sl with stalled := true } := ⟨_, rfl⟩
  obtain ⟨e, he⟩ : ∃ e : Ev, e = { block := 3, unit := maskOf (s.chip.allDies.filter fun d => s.chip.inflight d sl != 0), cause := sl, value := (s.chip.slot sl).epoch } := ⟨_, rfl⟩
  have hstep : epochStall sl ms s.chip = q.raise Cls.epochStall 0 e := by
    simp only [epochStall, halive, hst, hstalled, hq, he]
    exact if_neg (by simp [hlim]; omega)
  have hcls := q.raise_cls Cls.epochStall 0 e (by decide)
  have hslot : ((epochStall sl ms s.chip).slot sl) = { s.chip.slot sl with stalled := true } := by
    rw [hstep, raise_frame _ _ _ _ (fun c => c.slot sl) fun _ _ _ _ => rfl, hq]
    exact slot_setSlot_same _ (hslots ▸ hsl)
  refine gives_onChip (f := epochStall sl ms) rfl ⟨?count, ⟨q.recOf Cls.epochStall 0 e, ?last, rfl, ?_, ?_, ?_⟩, ?stalled, ?draining,
    ?commit, fun ms' => ?again⟩
  case stalled => exact congrArg Slot.stalled hslot
  case draining => exact (congrArg Slot.st hslot).trans hst
  case again =>
    exact congrArg (fun c => Host.Outcome.next { s with chip := c }) (epochStall_of_stalled (congrArg Slot.stalled hslot) ms')
  case count => simp only [State.onChip, hstep]; exact (congrArg ClassRec.count hcls).trans (by rw [hq]; rfl)
  case last => simp only [State.onChip, hstep]; exact congrArg ClassRec.last hcls
  case commit =>
    simp only [State.onChip, hstep]
    rw [raise_frame _ _ _ _ (fun c => c.commit) fun _ _ _ _ => rfl, hq]
    rfl
  all_goals rw [he]; rfl

end Sys2Proof.Proofs
end

section
/-! Registers bit by bit: what a write and a read do by the access kind of each bit and the level of the master (R15, R528, R533). -/

namespace Sys2Proof.Proofs

open Sys2Proof.Machine

/-! ### Fields of words -/

theorem bitN_eq_testBit (v i : Nat) : bitN v i = v.testBit i := by
  rw [bitN, Nat.testBit_eq_decide_div_mod_eq, Bool.beq_eq_decide_eq]

/-- A number below the field, the field, and what stands above it. -/
theorem setBitsN_eq (v lo w x : Nat) :
    setBitsN v lo w x = 2 ^ lo * (2 ^ w * (v / 2 ^ (lo + w)) + x % 2 ^ w) + v % 2 ^ lo := by
  have hlow := Nat.div_add_mod v (2 ^ lo)
  have hfield := Nat.div_add_mod (v / 2 ^ lo) (2 ^ w)
  rw [Nat.div_div_eq_div_mul, ← Nat.pow_add] at hfield
  have hv : v = bitsN v lo w * 2 ^ lo + (2 ^ lo * (2 ^ w * (v / 2 ^ (lo + w))) + v % 2 ^ lo) := by
    rw [bitsN, ← Nat.add_assoc, Nat.mul_comm _ (2 ^ lo), ← Nat.mul_add, Nat.add_comm _ (2 ^ w * _), hfield, hlow]
  unfold setBitsN
  rw [show v - bitsN v lo w * 2 ^ lo = 2 ^ lo * (2 ^ w * (v / 2 ^ (lo + w))) + v % 2 ^ lo from Nat.sub_eq_of_eq_add' hv]
  ring

/-- Each bit of a number with a field replaced. -/
theorem testBit_setBitsN (v lo w x i : Nat) :
    (setBitsN v lo w x).testBit i = if lo ≤ i ∧ i < lo + w then x.testBit (i - lo) else v.testBit i := by
  rw [setBitsN_eq, Nat.testBit_two_pow_mul_add _ (Nat.mod_lt _ (Nat.two_pow_pos lo))]
  by_cases hlo : i < lo
  · rw [if_pos hlo, if_neg (by omega), Nat.testBit_mod_two_pow]; simp [hlo]
  · rw [if_neg hlo, Nat.testBit_two_pow_mul_add _ (Nat.mod_lt _ (Nat.two_pow_pos w)), Nat.testBit_mod_two_pow, Nat.testBit_div_two_pow]
    by_cases hw : i - lo < w
    · rw [if_pos hw, if_pos (by omega)]; simp [hw]
    · rw [if_neg hw, if_neg (by omega)]; congr 1; omega

theorem setBitsN_lt {v lo w x n : Nat} (hv : v < 2 ^ n) (hn : lo + w ≤ n) : setBitsN v lo w x < 2 ^ n := by
  refine Nat.lt_pow_two_of_testBit _ fun i hi => ?_
  rw [testBit_setBitsN, if_neg (by omega)]
  exact Nat.testBit_lt_two_pow (Nat.lt_of_lt_of_le hv (Nat.pow_le_pow_right (by decide) hi))

theorem testBit_bitsN (v lo w i : Nat) : (bitsN v lo w).testBit i = (decide (i < w) && v.testBit (lo + i)) := by
  rw [bitsN, Nat.testBit_mod_two_pow, Nat.testBit_div_two_pow, Nat.add_comm]

/-- The field that was replaced. -/
theorem bitsN_setBitsN_same (v lo w x : Nat) : bitsN (setBitsN v lo w x) lo w = x % 2 ^ w := by
  refine Nat.eq_of_testBit_eq fun i => ?_
  rw [testBit_bitsN, testBit_setBitsN, Nat.testBit_mod_two_pow]
  by_cases hi : i < w
  · rw [if_pos (by omega), Nat.add_sub_cancel_left]
  · simp [hi]

/-- Another field. -/
theorem bitsN_setBitsN_other {lo w l n : Nat} (v x : Nat) (h : l + n ≤ lo ∨ lo + w ≤ l) : bitsN (setBitsN v lo w x) l n = bitsN v l n := by
  refine Nat.eq_of_testBit_eq fun i => ?_
  rw [testBit_bitsN, testBit_setBitsN, testBit_bitsN]
  by_cases hi : i < n
  · rw [if_neg (by omega)]
  · simp [hi]

/-! ### Fields of registers -/

theorem rd_wfld_same {lo w : Nat} (c : Chip) (d : Nat) (a : RegAddr) (x : Nat) (h : lo + w ≤ 32) :
    (c.wfld d a lo w x).rd d a = setBitsN (c.rd d a) lo w x :=
  (Laws.rd_wr_same ..).trans (Nat.mod_eq_of_lt (setBitsN_lt (Laws.rd_lt c d a) h))

theorem rd_wfld_ne (c : Chip) {d e : Nat} {a b : RegAddr} (lo w x : Nat) (h : bar4 e b ≠ bar4 d a) :
    (c.wfld d a lo w x).rd e b = c.rd e b := Laws.rd_wr_ne c d e a b _ h

theorem fld_wfld_same {lo w : Nat} (c : Chip) (d : Nat) (a : RegAddr) (x : Nat) (h : lo + w ≤ 32) :
    (c.wfld d a lo w x).fld d a lo w = x % 2 ^ w := by
  rw [Chip.fld, rd_wfld_same c d a x h, bitsN_setBitsN_same]

theorem fld_wfld_other {lo w l n : Nat} (c : Chip) (d : Nat) (a : RegAddr) (x : Nat) (h : lo + w ≤ 32) (hd : l + n ≤ lo ∨ lo + w ≤ l) :
    (c.wfld d a lo w x).fld d a l n = c.fld d a l n := by
  rw [Chip.fld, rd_wfld_same c d a x h, bitsN_setBitsN_other _ _ hd, Chip.fld]

theorem bit_wfld_same {lo w i : Nat} (c : Chip) (d : Nat) (a : RegAddr) (x : Nat) (h : lo + w ≤ 32) (hi : lo ≤ i ∧ i < lo + w) :
    (c.wfld d a lo w x).bit d a i = x.testBit (i - lo) := by
  rw [Chip.bit, rd_wfld_same c d a x h, bitN_eq_testBit, testBit_setBitsN, if_pos hi]

theorem bit_wfld_other {lo w i : Nat} (c : Chip) (d : Nat) (a : RegAddr) (x : Nat) (h : lo + w ≤ 32) (hi : ¬ (lo ≤ i ∧ i < lo + w)) :
    (c.wfld d a lo w x).bit d a i = c.bit d a i := by
  rw [Chip.bit, rd_wfld_same c d a x h, bitN_eq_testBit, testBit_setBitsN, if_neg hi, Chip.bit, bitN_eq_testBit]

theorem bit_of_rd {c t : Chip} {d : Nat} {a : RegAddr} (h : t.rd d a = c.rd d a) (i : Nat) : t.bit d a i = c.bit d a i := by
  rw [Chip.bit, h, Chip.bit]

theorem fld_of_rd {c t : Chip} {d : Nat} {a : RegAddr} (h : t.rd d a = c.rd d a) (lo w : Nat) : t.fld d a lo w = c.fld d a lo w := by
  rw [Chip.fld, h, Chip.fld]

/-- The stored word after a write of it. -/
theorem rdw_wr_same (c : Chip) (d : Nat) (a : RegAddr) (v : Reg32) : (c.wr d a v.toNat).rdw d a = v :=
  BitVec.eq_of_toNat_eq ((Laws.rd_wr_same c d a v.toNat).trans (Nat.mod_eq_of_lt v.isLt))

theorem rdw_of_rd {c t : Chip} {d : Nat} {a : RegAddr} (h : t.rd d a = c.rd d a) : t.rdw d a = c.rdw d a := BitVec.eq_of_toNat_eq h

/-- Registers of the dies' blocks lie apart. -/
theorem bar4_inj {d e : Nat} {a b : RegAddr} (ha : a.blk < 20) (hb : b.blk < 20) (ha' : a.off < 0x100000) (hb' : b.off < 0x100000) :
    bar4 d a = bar4 e b ↔ d = e ∧ a = b := by
  obtain ⟨ab, ao⟩ := a
  obtain ⟨bb, bo⟩ := b
  simp only [bar4, RegAddr.mk.injEq] at *
  rw [if_pos ha, if_pos hb]
  omega

/-! ### One write, bit by bit -/

/-- A master may touch bit `i` of a register with SEC bits `sec` (R528). -/
def reachesBit (m : Master) (sec i : Nat) : Bool :=
  match m with
  | .tether => true
  | .steward => !(BitVec.ofNat 32 sec).getLsbD i
  | .tenant => false

/-- The bits of a register that a master may touch. -/
def reachMask (m : Master) (sec : Nat) : Reg32 :=
  match m with
  | .tether => BitVec.ofNat 32 0xFFFFFFFF
  | .steward => ~~~ (BitVec.ofNat 32 sec)
  | .tenant => 0#32

theorem reachMask_bit (m : Master) (sec : Nat) {i : Nat} (hi : i < 32) : (reachMask m sec).getLsbD i = reachesBit m sec i := by
  cases m
  case tether => exact (BitVec.getLsbD_allOnes (v := 32)).trans (by simp [reachesBit, hi])
  case steward => simp [reachMask, reachesBit, hi]
  case tenant => simp [reachMask, reachesBit]

/-- A write violates where it would change an RWD bit that the master may touch of a block that is not disabled (R533). -/
theorem applyWrite_viol (r : RegDef) (m : Master) (disabled : Bool) (old new : Reg32) :
    (applyWrite r m disabled old new).2 = true ↔ disabled = false ∧ ∃ j, j < 32 ∧
      (BitVec.ofNat 32 r.rwd).getLsbD j = true ∧ reachesBit m r.sec j = true ∧ old.getLsbD j ≠ new.getLsbD j := by
  have hdef : (applyWrite r m disabled old new).2 = (!disabled &&
      decide (old &&& (BitVec.ofNat 32 r.rwd &&& reachMask m r.sec) ≠ new &&& (BitVec.ofNat 32 r.rwd &&& reachMask m r.sec))) := by
    cases m <;> rfl
  rw [hdef, Bool.and_eq_true, Bool.not_eq_true', decide_eq_true_iff]
  refine and_congr_right fun _ => ?_
  rw [ne_eq, BitVec.eq_of_getLsbD_eq_iff]
  push Not
  refine exists_congr fun j => and_congr_right fun hj => ?_
  simp only [BitVec.getLsbD_and, reachMask_bit m r.sec hj]
  cases (BitVec.ofNat 32 r.rwd).getLsbD j <;> cases reachesBit m r.sec j <;> simp

/-- Each bit of the new word by itself. -/
theorem applyWrite_bit (r : RegDef) (m : Master) (disabled : Bool) (old new : Reg32) {i : Nat} (hi : i < 32) :
    (applyWrite r m disabled old new).1.getLsbD i =
      (let has := fun x : Nat => (BitVec.ofNat 32 x).getLsbD i
       let reach := reachesBit m r.sec i
       let taken := reach && (has r.rw || (has r.rwd && !(applyWrite r m disabled old new).2))
       (if taken then new.getLsbD i else old.getLsbD i) && !(new.getLsbD i && has r.w1c && reach) ||
         (new.getLsbD i && has r.w1s && reach)) := by
  obtain ⟨viol, hviol⟩ : ∃ viol, (applyWrite r m disabled old new).2 = viol := ⟨_, rfl⟩
  have hdef : (applyWrite r m disabled old new).1 =
      (let b := BitVec.ofNat 32
       let mask := reachMask m r.sec
       let rw := if (applyWrite r m disabled old new).2 then b r.rw &&& mask else (b r.rw &&& mask) ||| (b r.rwd &&& mask)
       ((old &&& ~~~ rw) ||| (new &&& rw)) &&& ~~~ (new &&& b r.w1c &&& mask) ||| (new &&& b r.w1s &&& mask)) := by
    cases m <;> rfl
  rw [hdef, hviol]
  have hmask := reachMask_bit m r.sec hi
  have hsplit (x y t : Bool) : (if t = true then y else x) = (x && !t || y && t) := by cases t <;> simp
  cases viol <;> simp only [BitVec.getLsbD_or, BitVec.getLsbD_and, BitVec.getLsbD_not, hmask, hi, decide_true, Bool.true_and, hsplit,
    if_true, if_false, Bool.false_eq_true, Bool.not_true, Bool.not_false, Bool.and_true, Bool.and_false, Bool.or_false] <;>
    cases reachesBit m r.sec i <;> simp

/-- Settles O14. -/
theorem writeKinds : Obligations.WriteKinds := by
  unfold Obligations.WriteKinds
  intro r m disabled reach old new i hi hreach
  have hbit := applyWrite_bit r m disabled old new hi
  have hr : reachesBit m r.sec i = reach := by rw [hreach]; cases m <;> rfl
  simp only [hr] at hbit
  dsimp only
  refine ⟨fun h => ?_, fun h h1 h2 h3 => ?_, fun h1 h2 h3 h4 => ?_, fun h h1 h2 h3 h4 => ?_, fun h h1 h2 h3 h4 => ?_,
    fun h h1 h2 h3 h4 => ?_, ?_⟩
  case _ => simp [hbit, h]
  case _ => simp [hbit, h, h1, h2, h3]
  case _ => simp [hbit, h1, h2, h3, h4]
  case _ => cases hv : (applyWrite r m disabled old new).2 <;> simp [hbit, hv, h, h1, h2, h3, h4]
  case _ => simp [hbit, h, h1, h2, h3, h4]
  case _ => simp [hbit, h, h1, h2, h3, h4]
  case _ => 
    rw [applyWrite_viol]
    cases m <;> simp [reachesBit]

/-! ### A write to an enabled block -/

/-- What a register write stores, and the flag it may raise. -/
theorem writeStored_eq {c : Chip} {a : RegAddr} {r : RegDef} (h : findReg a.blk a.off = some r) (m : Master) (d : Nat) (v : Reg32) :
    c.writeStored m d a v =
      (let w := applyWrite r (c.writeLevel m) (c.rwdOpen d a) (c.rdw d a) v
       if w.2 then (c.wr d a w.1.toNat).flagWwe d a v else c.wr d a w.1.toNat) := by
  unfold Chip.writeStored
  rw [h]

theorem writeLevel_ne_tenant {c : Chip} {m : Master} (h : m ≠ .tenant) : c.writeLevel m ≠ .tenant := by
  unfold Chip.writeLevel
  split
  · decide
  · exact h

/-- A master other than a tenant touches each bit of a register without SEC bits. -/
theorem reachesBit_of_open {m : Master} (h : m ≠ .tenant) (i : Nat) : reachesBit m 0 i = true := by
  cases m
  case tether => rfl
  case steward => simp [reachesBit]
  case tenant => exact absurd rfl h

/-- Without SEC bits a write violates where the RWD bits differ. -/
theorem applyWrite_viol_of_open {r : RegDef} {m : Master} (hsec : r.sec = 0) (hm : m ≠ .tenant) (disabled : Bool) (old new : Reg32) :
    (applyWrite r m disabled old new).2 = true ↔
      disabled = false ∧ (BitVec.ofNat 32 r.rwd &&& old) ≠ (BitVec.ofNat 32 r.rwd &&& new) := by
  rw [applyWrite_viol, ne_eq, BitVec.eq_of_getLsbD_eq_iff]
  push Not
  refine and_congr_right fun _ => exists_congr fun j => and_congr_right fun _ => ?_
  simp only [BitVec.getLsbD_and, hsec, reachesBit_of_open hm, true_and]
  cases (BitVec.ofNat 32 r.rwd).getLsbD j <;> simp

/-- A block whose RWD fields may not be written has an enable of its own. -/
theorem blk_lt_of_rwdClosed {c : Chip} {d : Nat} {a : RegAddr} (hblk : a.blk < 20) (h : c.rwdOpen d a = false) : a.blk < 17 := by
  by_contra hge
  have hmode : a ≠ R.pkgTenantMode := by rintro rfl; exact absurd hblk (by decide)
  simp [Chip.rwdOpen, hmode, hge, show a.blk ≠ 1 by omega] at h

/-- Settles O16. -/
theorem writeWhileEnabled : Obligations.WriteWhileEnabled := by
  unfold Obligations.WriteWhileEnabled
  intro c m d a r v hfind hblk hoff hlen hsec _ _ hm
  have hlevel := writeLevel_ne_tenant (c := c) hm
  have hviol := applyWrite_viol_of_open hsec hlevel (c.rwdOpen d a) (c.rdw d a) v
  have hbit (i : Nat) (hi : i < 32) := applyWrite_bit r (c.writeLevel m) (c.rwdOpen d a) (c.rdw d a) v hi
  simp only [hsec, reachesBit_of_open hlevel] at hbit
  have ht := writeStored_eq (c := c) hfind m d v
  obtain ⟨w, hw⟩ : ∃ w, w = applyWrite r (c.writeLevel m) (c.rwdOpen d a) (c.rdw d a) v := ⟨_, rfl⟩
  simp only [← hw] at ht hviol hbit
  dsimp only
  refine ⟨fun hdiff hclosed => ?flagged, fun hquiet => ?quiet⟩
  case quiet =>
    have hnot : ¬ w.2 = true := fun h => by
      obtain ⟨hclosed, hdiff⟩ := hviol.1 h
      obtain heq | hopen := hquiet
      · exact hdiff heq
      · simp [hopen] at hclosed
    rw [ht, if_neg hnot]
    exact ⟨rfl, rfl, fun e b hne => Laws.rd_wr_ne _ _ _ _ _ _ hne⟩
  case flagged =>
    have hset : w.2 = true := hviol.2 ⟨hclosed, hdiff⟩
    have henb := blk_lt_of_rwdClosed hblk hclosed
    have hlog (b : RegAddr) (hb : b.blk < 17) (hb' : b.off < 0x100000) : bar4 d b ≠ bar4 0 R.fltLogOvf := fun h => by
      have := ((bar4_inj (by omega) (by decide) hb' (by decide)).1 h).2
      rw [this] at hb
      exact absurd hb (by decide)
    have hflag : bar4 d a ≠ bar4 d ⟨a.blk, 0⟩ := fun h =>
      hoff (congrArg RegAddr.off ((bar4_inj (b := ⟨a.blk, 0⟩) hblk hblk hlen (Nat.succ_pos _)).1 h).2)
    obtain ⟨q, hq⟩ : ∃ q, q = (c.wr d a w.1.toNat).wfld d ⟨a.blk, 0⟩ 1 1 1 := ⟨_, rfl⟩
    obtain ⟨e, he⟩ : ∃ e : Ev, e = { addr := a.off, block := a.blk, value := v.toNat } := ⟨_, rfl⟩
    have hraise : c.writeStored m d a v = q.raise Cls.writeWhileEnabled d e := by
      rw [ht, if_pos hset, hq, he, Chip.flagWwe, if_pos hblk]
    have hword : (c.writeStored m d a v).rdw d a = w.1 := by
      rw [hraise, rdw_of_rd (q.raise_rd _ d e d a (hlog a henb hlen)), hq, rdw_of_rd (rd_wfld_ne _ 1 1 1 hflag), rdw_wr_same]
    have hcls := q.raise_cls Cls.writeWhileEnabled d e fun h => absurd ((clsKey_inj (by decide) (by decide)).1 h).2 (by decide)
    refine ⟨fun i hi h1 h2 h3 h4 => ?_, fun i hi h1 h2 h3 => ?_, ?_, ?_, q.recOf Cls.writeWhileEnabled d e, ?_, rfl, rfl, rfl, ?_, ?_, ?_⟩
    · rw [hword, hbit i hi]; simp [h1, h2, h3, h4, hset]
    · rw [hword, hbit i hi]; simp [h1, h2, h3]
    · rw [hraise, bit_of_rd (q.raise_rd _ d e d _ (hlog ⟨a.blk, 0⟩ henb (Nat.succ_pos _))), hq, bit_wfld_same _ _ _ _ (by decide) (by decide)]
      rfl
    · rw [hraise]; exact (congrArg ClassRec.count hcls).trans (by rw [hq]; rfl)
    · rw [hraise]; exact congrArg ClassRec.last hcls
    all_goals rw [he]; rfl

end Sys2Proof.Proofs
end

section
/-! Accesses to register space: the order of the checks of R531, wide and malformed accesses (R530), and what a read takes (R537). -/

namespace Sys2Proof.Proofs

open Sys2Proof.Machine

/-- Two operations of the part are one. -/
theorem onChip_onChip (f g : Chip → Chip) (s : State) : (s.onChip f).onChip g = s.onChip fun c => g (f c) := rfl

/-! ### The order of the checks -/

/-- Away from TET_FUSE_CTRL a store is an access like any other. -/
theorem bar4Store_access {off : Nat} (h : off ≠ 0x20100020) (m : Master) (v : Reg32) (s : State) :
    bar4Store m off v s = (bar4Access m off (some v) s).2 := if_neg h

/-- TET_FUSE_CTRL is a register of the package's Tether block. -/
theorem namedBar4_fuseCtrl : (namedBar4 0x20100020).map (fun x => x.2.blk) = some 33 := by decide +kernel

/-- What stands in the way of an access does so in the blocks of the dies alone. -/
theorem blk_lt_of_path {c : Chip} {m : Master} {d b : Nat} (h : c.path m d b ≠ .clear) : b < 20 := by
  by_contra hge
  exact h (by simp [Chip.path, hge])

theorem off_ne_fuseCtrl {off d : Nat} {a : RegAddr} (h : namedBar4 off = some (d, a)) (hblk : a.blk < 20) : off ≠ 0x20100020 := by
  rintro rfl
  have hf := namedBar4_fuseCtrl
  rw [h] at hf
  simp only [Option.map_some, Option.some.injEq] at hf
  omega

theorem off_ne_fuseCtrl_of_unnamed {off : Nat} (h : namedBar4 off = none) : off ≠ 0x20100020 := by
  rintro rfl
  have hf := namedBar4_fuseCtrl
  rw [h] at hf
  nomatch hf

/-- The counter of accesses that no die answered, and the die of the last. -/
theorem accessFail_fields (c : Chip) (d : Nat) :
    (c.accessFail d).fld 0 R.pkgAccessFail 0 24 = satAdd 24 (c.fld 0 R.pkgAccessFail 0 24) 1 ∧
      (c.accessFail d).fld 0 R.pkgAccessFail 24 3 = d % 8 := by
  have hrd := Laws.rd_wr_same c 0 R.pkgAccessFail (satAdd 24 (bitsN (c.rd 0 R.pkgAccessFail) 0 24) 1 + d % 8 * 2 ^ 24)
  have hsat : satAdd 24 (bitsN (c.rd 0 R.pkgAccessFail) 0 24) 1 < 2 ^ 24 := by unfold satAdd; omega
  simp only [Chip.fld, Chip.accessFail, hrd]
  simp only [bitsN] at hsat ⊢
  omega

/-- Settles O11. -/
theorem accessOrder : Obligations.AccessOrder := by
  unfold Obligations.AccessOrder
  intro s m off attr v hm hok hoff hal
  have hwrite := exec_registerWrite_word hm hok hoff hal v
  have hread := exec_counterReadClear_word hm hok hoff hal attr
  refine ⟨fun hnone => ?unnamed, fun d a hnamed hblk hdies => ?absent, fun d a hnamed hpath => ?unreachable, fun d a hnamed hpath => ?gated,
    fun d a hnamed hpath hne => ?clear⟩
  case unnamed =>
    rw [hwrite, hread, bar4Store_access (off_ne_fuseCtrl_of_unnamed hnone), bar4Access_unnamed hnone, bar4Access_unnamed hnone]
    exact ⟨rfl, rfl⟩
  case absent =>
    have hclosed := Or.inl (b := s.chip.path m d a.blk = .gated) (path_absent s.chip m hblk hdies)
    rw [hwrite, hread, bar4Store_access (off_ne_fuseCtrl hnamed hblk), bar4Access_closed hnamed hclosed, bar4Access_closed hnamed hclosed]
    exact ⟨rfl, rfl⟩
  case unreachable =>
    have hblk := blk_lt_of_path (c := s.chip) (m := m) (d := d) (b := a.blk) (by simp [hpath])
    have hstore : bar4Store m off v s = s.onChip fun c => c.accessFail d := by
      rw [bar4Store_access (off_ne_fuseCtrl hnamed hblk), bar4Access_unreachable hnamed hpath]
    obtain ⟨hcount, hdie⟩ := accessFail_fields s.chip d
    refine ⟨by rw [hwrite, hstore], ?_, hcount, hdie⟩
    rw [hread, bar4Access_unreachable hnamed hpath, onChip_onChip]
  case gated =>
    have hblk := blk_lt_of_path (c := s.chip) (m := m) (d := d) (b := a.blk) (by simp [hpath])
    rw [hwrite, hread, bar4Store_access (off_ne_fuseCtrl hnamed hblk), bar4Access_closed hnamed (.inr hpath),
      bar4Access_closed hnamed (.inr hpath)]
    exact ⟨rfl, rfl⟩
  case clear =>
    rw [hwrite, hread, bar4Store_access hne, bar4Access_write hnamed hpath, bar4Access_read hnamed hpath]
    exact ⟨rfl, rfl⟩

/-! ### Wide and malformed accesses -/

theorem isWord_eight {off : Nat} : isWord 8 off = false := rfl

theorem isPair_eight {off : Nat} (h : off % 8 = 0) : isPair 8 off = true := by simp [isPair, h]

theorem isWord_false {size off : Nat} (h : size ≠ 4 ∨ off % 4 ≠ 0) : isWord size off = false := by
  simpa [isWord, Decidable.imp_iff_not_or] using h

theorem isPair_false {size off : Nat} (h : size ≠ 8 ∨ off % 8 ≠ 0) : isPair size off = false := by
  simpa [isPair, Decidable.imp_iff_not_or] using h

section
variable {s : State} {m : Master} {off : Nat} (hm : m ≠ .tenant) (hok : s.chip.masterOk m = true) (hoff : off < 0x40000000)
include hm hok hoff

/-- What a write of any size to BAR4 does. -/
theorem hostStore_bar4 (size : Nat) (v : BitVec 64) : hostStore m off size v s =
    if isWord size off then bar4Store m off (v.setWidth 32) s
    else if isPair size off then bar4Store m (off + 4) ((v >>> 32).setWidth 32) (bar4Store m off (v.setWidth 32) s)
    else s.onChip fun c => c.badAccess c.stwPort := by
  simp only [hostStore, placeOf_bar4 _ hm hoff, refusedBy_bar4 hok, hok, Bool.not_true, Bool.false_eq_true, if_false]

theorem hostLoad_bar4 (size : Nat) : hostLoad m off size s =
    if isWord size off then some (bar4Access m off none s)
    else if isPair size off then some (readPair (fun o s => bar4Access m o none s) off s)
    else some (0, s.onChip fun c => c.badAccess c.stwPort) := by
  simp only [hostLoad, placeOf_bar4 _ hm hoff, hok, Bool.not_true, Bool.false_eq_true, if_false]

theorem counterRead_of_load {x : Nat × State} {size : Nat} (h : hostLoad m off size s = some x) (attr : Nat) :
    counterRead m off size attr s = x.2.onChip fun c => c.emit (.regRead off x.1 attr) := by
  simp only [counterRead, placeOf_bar4 _ hm hoff, refusedBy_bar4 hok, h, Option.isSome_none]

end

/-- Settles O13. -/
theorem wideAndBadAccess : Obligations.WideAndBadAccess := by
  unfold Obligations.WideAndBadAccess
  intro s m off size attr v hm hok hoff
  have hstore := hostStore_bar4 hm hok hoff
  have hload := hostLoad_bar4 hm hok hoff
  refine ⟨fun hal => ⟨?widewrite, ?wideread⟩, fun hsize4 hsize8 => ⟨?badwrite, ?badread⟩⟩
  case widewrite =>
    refine congrArg Host.Outcome.next ?_
    rw [hstore, isWord_eight, isPair_eight hal, if_neg Bool.false_ne_true, if_pos rfl]
  case wideread =>
    have hpair : hostLoad m off 8 s = some (readPair (fun o s => bar4Access m o none s) off s) := by
      rw [hload, isWord_eight, isPair_eight hal, if_neg Bool.false_ne_true, if_pos rfl]
    have hread := counterRead_of_load hm hok hoff hpair attr
    rw [readPair_eq] at hread
    exact congrArg Host.Outcome.next hread
  case badwrite =>
    refine congrArg Host.Outcome.next ?_
    rw [hstore, isWord_false hsize4, isPair_false hsize8, if_neg Bool.false_ne_true, if_neg Bool.false_ne_true]
    rfl
  case badread =>
    have hbad : hostLoad m off size s = some (0, s.onChip fun c => c.badAccess c.stwPort) := by
      rw [hload, isWord_false hsize4, isPair_false hsize8, if_neg Bool.false_ne_true, if_neg Bool.false_ne_true]
    exact congrArg Host.Outcome.next (counterRead_of_load hm hok hoff hbad attr)
/-! ### What a read takes -/

section
variable {s : State} {m : Master} {d : Nat} {a : RegAddr} {r : RegDef} (h : findReg a.blk a.off = some r)
include h

theorem regRead_value : (s.regRead m d a).1 = (applyRead r m (BitVec.ofNat 32 (s.regView d a))).toNat := by
  unfold State.regRead
  rw [h]

/-- The part after a read: RC fields cleared, halves latched. -/
theorem regRead_chip : (s.regRead m d a).2.chip = Chip.readLatch
    (if r.rc = 0 ∨ m = .tenant then s.chip else s.chip.wr d a ((s.chip.rdw d a &&& ~~~ BitVec.ofNat 32 r.rc).toNat)) d a := by
  unfold State.regRead
  rw [h]
  dsimp only
  split_ifs <;> rfl

end

/-- Latching halves leaves every register and the fault block. -/
theorem readLatch_frame (c : Chip) (d : Nat) (a : RegAddr) :
    (c.readLatch d a).regs = c.regs ∧ (c.readLatch d a).faults = c.faults := by
  unfold Chip.readLatch
  dsimp only
  split_ifs <;> exact ⟨rfl, rfl⟩

theorem readLatch_rd (c : Chip) (d : Nat) (a : RegAddr) (e : Nat) (b : RegAddr) : (c.readLatch d a).rd e b = c.rd e b := by
  rw [Chip.rd, Chip.rdw, (readLatch_frame c d a).1]
  rfl

/-- A whole RC register shows the master its word. -/
theorem applyRead_of_counter {r : RegDef} {m : Master} (hm : m ≠ .tenant) (hrc : r.rc = 0xFFFFFFFF) (hsec : r.sec = 0) (v : Reg32) :
    applyRead r m v = v := by
  have hones : BitVec.ofNat 32 0xFFFFFFFF = BitVec.allOnes 32 := rfl
  have hall : BitVec.ofNat 32 (r.rw ||| r.rwd ||| r.w1c ||| r.w1s ||| r.rc ||| r.ro) = BitVec.allOnes 32 := by
    rw [BitVec.ofNat_or, BitVec.ofNat_or, hrc, hones, BitVec.or_allOnes, BitVec.allOnes_or]
  cases m
  case tether => simp only [applyRead, hall, BitVec.and_allOnes]
  case steward => simp only [applyRead, hall, hsec, BitVec.and_allOnes, BitVec.not_zero]
  case tenant => exact absurd rfl hm

/-- Settles O15. -/
theorem readsOfRegisters : Obligations.ReadsOfRegisters := by
  unfold Obligations.ReadsOfRegisters
  intro s m d a r hfind
  have hvalue := regRead_value (s := s) (m := m) (d := d) hfind
  have hchip := regRead_chip (s := s) (m := m) (d := d) hfind
  refine ⟨fun i hi hm hsec => ?hidden, fun hm => ⟨?tenantValue, ?tenantRegs⟩, fun hrc => ?noCounter, fun hm hrc hsec hview => ?counter,
    regRead_root s m d a, ?faults⟩
  case hidden =>
    subst hm
    rw [hvalue, BitVec.testBit_toNat]
    simp [applyRead, hsec]
  case tenantValue => subst hm; rw [hvalue]; rfl
  case tenantRegs => rw [hchip, if_pos (.inr hm), (readLatch_frame ..).1]
  case noCounter => rw [hchip, if_pos (.inl hrc), (readLatch_frame ..).1]
  case counter =>
    have hcleared : s.chip.rdw d a &&& ~~~ BitVec.ofNat 32 r.rc = 0 := by
      rw [hrc, show BitVec.ofNat 32 0xFFFFFFFF = BitVec.allOnes 32 from rfl, BitVec.not_allOnes, BitVec.and_zero]
      rfl
    rw [if_neg (by simp [hrc, hm]), hcleared] at hchip
    refine ⟨?_, ?_, fun e b hne => ?_⟩
    · rw [hvalue, applyRead_of_counter hm hrc hsec, hview, BitVec.toNat_ofNat, Nat.mod_eq_of_lt (Laws.rd_lt ..)]
    · rw [hchip, readLatch_rd, Laws.rd_wr_same]; rfl
    · rw [hchip, readLatch_rd, Laws.rd_wr_ne _ _ _ _ _ _ hne]
  case faults =>
    rw [hchip, (readLatch_frame ..).2]
    split_ifs <;> rfl

end Sys2Proof.Proofs
end

section
/-! Register rows with an effect of their own: gates, soft resets, the mode, the time base, selections and their snapshots. -/

namespace Sys2Proof.Proofs

open Sys2Proof.Machine

/-! ### An access that goes through -/

/-- A register row that reaches its block gives what its operation leaves. -/
theorem gives_access {i : Instr} {s : State} {m : Master} {d b : Nat} {f : Chip → Chip} {P : State → Prop} (h : s.reaches m d b)
    (hi : exec i s = .next (busAccess m d b f s)) (hP : P (s.onChip f)) : Gives i s P :=
  ⟨_, hi.trans (congrArg _ (busAccess_clear f h.1 h.2)), hP⟩

theorem exec_access {i : Instr} {s : State} {m : Master} {d b : Nat} {f : Chip → Chip} (h : s.reaches m d b)
    (hi : exec i s = .next (busAccess m d b f s)) : exec i s = .next (s.onChip f) :=
  hi.trans (congrArg _ (busAccess_clear f h.1 h.2))

/-! ### Two registers of one die -/

/-- Two registers of a die's blocks that lie apart. -/
abbrev Apart (a b : RegAddr) : Prop := a.blk < 20 ∧ b.blk < 20 ∧ a.off < 0x100000 ∧ b.off < 0x100000 ∧ a ≠ b

theorem bar4_ne_of_apart {a b : RegAddr} (h : Apart a b) (d e : Nat) : bar4 d a ≠ bar4 e b := by
  obtain ⟨ha, hb, ha', hb', hne⟩ := h
  exact fun heq => hne ((bar4_inj ha hb ha' hb').1 heq).2

theorem rd_wr_apart {a b : RegAddr} (h : Apart b a) (c : Chip) (d e v : Nat) : (c.wr d a v).rd e b = c.rd e b :=
  Laws.rd_wr_ne _ _ _ _ _ _ (bar4_ne_of_apart h e d)

theorem rd_wfld_apart {a b : RegAddr} (h : Apart b a) (c : Chip) (d e lo w x : Nat) : (c.wfld d a lo w x).rd e b = c.rd e b :=
  rd_wfld_ne c lo w x (bar4_ne_of_apart h e d)

/-! ### Steps of a write, bit by bit -/

/-- A fold over the bits of a word: `P` holds until bit `b`, the step at `b` gives `Q`, and the later steps keep it. -/
theorem foldl_range_at {α : Type} {f : α → Nat → α} {P Q : α → Prop} {n b : Nat} (hb : b < n) {x : α} (hx : P x)
    (hstep : ∀ y k, k < n → k ≠ b → P y → P (f y k)) (hat : ∀ y, P y → Q (f y b)) (hkeep : ∀ y k, k < n → k ≠ b → Q y → Q (f y k)) :
    Q ((List.range n).foldl f x) := by
  induction n with
  | zero => nomatch hb
  | succ n ih =>
    rw [List.range_succ, List.foldl_append, List.foldl_cons, List.foldl_nil]
    obtain rfl | hlt : b = n ∨ b < n := by omega
    · refine hat _ (List.foldlRecOn (motive := P) _ _ hx fun y hy k hk => ?_)
      have hkb := List.mem_range.1 hk
      exact hstep y k (by omega) (by omega) hy
    · exact hkeep _ _ (by omega) (by omega)
        (ih hlt (fun y k hk => hstep y k (by omega)) fun y k hk => hkeep y k (by omega))

theorem blockDisabled_of_rd {c t : Chip} {d b : Nat} (hen : t.rd d ⟨b, 0⟩ = c.rd d ⟨b, 0⟩)
    (hidle : t.rd d R.dreStatus = c.rd d R.dreStatus) : t.blockDisabled d b = c.blockDisabled d b := by
  simp only [Chip.blockDisabled, Chip.en, bit_of_rd hen, bit_of_rd hidle]

/-- A field of a register apart from every block's control and the engines' status leaves which blocks are disabled. -/
theorem blockDisabled_wfld {d b lo w x : Nat} {a : RegAddr} (ha : 16 < a.blk ∧ a.blk < 20 ∧ a.off < 0x100000) (hb : b < 17) (c : Chip) :
    (c.wfld d a lo w x).blockDisabled d b = c.blockDisabled d b := by
  have hne (r : RegAddr) (hr : r.blk < 17) (hr' : r.off < 0x100000) : Apart r a :=
    ⟨by omega, ha.2.1, hr', ha.2.2, fun h => by rw [h] at hr; omega⟩
  exact blockDisabled_of_rd (rd_wfld_apart (hne ⟨b, 0⟩ hb (Nat.succ_pos _)) c d d lo w x)
    (rd_wfld_apart (hne R.dreStatus (by decide) (by decide)) c d d lo w x)

/-! ### Clock gates (R478) -/

/-- What bit `b` of a write of CLK_GATE does. -/
def clkGateStep (d : Nat) (v : Reg32) (c : Chip) (b : Nat) : Chip :=
  if v.getLsbD b then c.wfld d R.clkGate b 1 1
  else if b != 3 && c.blockDisabled d b then c.wfld d R.clkGate b 1 0
  else if c.bit d R.clkGate b then c.wfld d R.clkGateFlags 1 1 1 else c

theorem clkGate_eq (d : Nat) (v : Reg32) (c : Chip) : clkGate d v c = (List.range 17).foldl (clkGateStep d v) c := rfl

theorem clkGateStep_cases (d : Nat) (v : Reg32) (c : Chip) (b : Nat) :
    (∃ x, clkGateStep d v c b = c.wfld d R.clkGate b 1 x) ∨ clkGateStep d v c b = c.wfld d R.clkGateFlags 1 1 1 ∨
      clkGateStep d v c b = c := by
  unfold clkGateStep
  split_ifs
  · exact .inl ⟨_, rfl⟩
  · exact .inl ⟨_, rfl⟩
  · exact .inr (.inl rfl)
  · exact .inr (.inr rfl)

section
variable {d k : Nat} (v : Reg32) (c : Chip)

theorem clkGateStep_blockDisabled {b : Nat} (hb : b < 17) : (clkGateStep d v c k).blockDisabled d b = c.blockDisabled d b := by
  obtain ⟨x, h⟩ | h | h := clkGateStep_cases d v c k <;> rw [h]
  · exact blockDisabled_wfld (by decide) hb c
  · exact blockDisabled_wfld (by decide) hb c

theorem clkGateStep_gate {b : Nat} (hk : k < 17) (hne : k ≠ b) : (clkGateStep d v c k).bit d R.clkGate b = c.bit d R.clkGate b := by
  obtain ⟨x, h⟩ | h | h := clkGateStep_cases d v c k <;> rw [h]
  · exact bit_wfld_other _ _ _ _ (by omega) (by omega)
  · exact bit_of_rd (rd_wfld_apart (by decide) c d d 1 1 1) b

theorem clkGateStep_flag (hflag : c.bit d R.clkGateFlags 1 = true) : (clkGateStep d v c k).bit d R.clkGateFlags 1 = true := by
  obtain ⟨x, h⟩ | h | h := clkGateStep_cases d v c k <;> rw [h]
  · rw [bit_of_rd (rd_wfld_apart (by decide) c d d k 1 x) 1, hflag]
  · rw [bit_wfld_same _ _ _ _ (by decide) (by decide)]; rfl
  · exact hflag

theorem clkGateStep_die {e : Nat} (hne : e ≠ d) : (clkGateStep d v c k).rd e R.clkGate = c.rd e R.clkGate := by
  have hdie (a : RegAddr) (ha : a.blk < 20) (ha' : a.off < 0x100000) : bar4 e R.clkGate ≠ bar4 d a := fun h =>
    hne ((bar4_inj (by decide) ha (by decide) ha').1 h).1
  obtain ⟨x, h⟩ | h | h := clkGateStep_cases d v c k <;> rw [h]
  · exact rd_wfld_ne _ _ _ _ (hdie R.clkGate (by decide) (by decide))
  · exact rd_wfld_ne _ _ _ _ (hdie R.clkGateFlags (by decide) (by decide))

end

section
variable {d b : Nat} {v : Reg32} {c : Chip} (hb : b < 17)
include hb

theorem clkGate_opens (hv : v.getLsbD b = true) : (clkGate d v c).bit d R.clkGate b = true := by
  rw [clkGate_eq]
  refine foldl_range_at (P := fun _ : Chip => True) (Q := fun y : Chip => y.bit d R.clkGate b = true) hb trivial (fun _ _ _ _ _ => trivial) (fun y _ => ?_) fun y k hk hne h => ?_
  · rw [clkGateStep, if_pos hv, bit_wfld_same _ _ _ _ (by omega) (by omega), Nat.sub_self]; rfl
  · rw [clkGateStep_gate v y hk hne, h]

theorem clkGate_closes (hv : v.getLsbD b = false) (h3 : b ≠ 3) (hdis : c.blockDisabled d b = true) :
    (clkGate d v c).bit d R.clkGate b = false := by
  rw [clkGate_eq]
  refine foldl_range_at (P := fun y : Chip => y.blockDisabled d b = true) (Q := fun y : Chip => y.bit d R.clkGate b = false) hb hdis
    (fun y k hk _ h => by rw [clkGateStep_blockDisabled v y hb, h]) (fun y h => ?_) fun y k hk hne h => ?_
  · rw [clkGateStep, if_neg (by simp [hv]), if_pos (by simp [h3, h]), bit_wfld_same _ _ _ _ (by omega) (by omega)]
    exact Nat.zero_testBit _
  · rw [clkGateStep_gate v y hk hne, h]

/-- A gate that may not close stays open, and the refusal is flagged. -/
theorem clkGate_refused (hv : v.getLsbD b = false) (hno : b = 3 ∨ c.blockDisabled d b = false) (hgate : c.bit d R.clkGate b = true) :
    (clkGate d v c).bit d R.clkGate b = true ∧ (clkGate d v c).bit d R.clkGateFlags 1 = true := by
  rw [clkGate_eq]
  refine foldl_range_at (P := fun y : Chip => (b = 3 ∨ y.blockDisabled d b = false) ∧ y.bit d R.clkGate b = true)
    (Q := fun y : Chip => y.bit d R.clkGate b = true ∧ y.bit d R.clkGateFlags 1 = true) hb ⟨hno, hgate⟩
    (fun y k hk hne h => ?_) (fun y h => ?_) fun y k hk hne h => ?_
  · rw [clkGateStep_blockDisabled v y hb, clkGateStep_gate v y hk hne]; exact h
  · obtain ⟨hno, hgate⟩ := h
    have hstep : clkGateStep d v y b = y.wfld d R.clkGateFlags 1 1 1 := by
      rw [clkGateStep, if_neg (by simp [hv]), if_neg, if_pos hgate]
      obtain rfl | h := hno
      · simp
      · simp [h]
    rw [hstep, bit_wfld_same _ _ _ _ (by decide) (by decide), bit_of_rd (rd_wfld_apart (by decide) y d d 1 1 1) b]
    exact ⟨hgate, rfl⟩
  · rw [clkGateStep_gate v y hk hne]; exact ⟨h.1, clkGateStep_flag v y h.2⟩

end

theorem clkGate_die {d e : Nat} (v : Reg32) (c : Chip) (hne : e ≠ d) : (clkGate d v c).rd e R.clkGate = c.rd e R.clkGate := by
  rw [clkGate_eq]
  exact List.foldlRecOn (motive := fun y : Chip => y.rd e R.clkGate = c.rd e R.clkGate) _ _ rfl
    fun y hy k _ => (clkGateStep_die v y hne).trans hy

/-! ### Soft resets (R494) -/

/-- What bit `b` of a write of PWR_SOFT_RST does. -/
def softRstStep (d : Nat) (v : Reg32) (c : Chip) (b : Nat) : Chip :=
  if !v.getLsbD b || b == 3 then c
  else if c.blockDisabled d b && c.gateOpen d b then c.wfld d R.pwrSoftRst b 1 1
  else c.wfld d R.pwrSoftFlags 0 1 1

theorem pwrSoftRst_eq (d : Nat) (v : Reg32) (c : Chip) : pwrSoftRst d v c = (List.range 17).foldl (softRstStep d v) c := rfl

theorem softRstStep_cases (d : Nat) (v : Reg32) (c : Chip) (b : Nat) :
    softRstStep d v c b = c.wfld d R.pwrSoftRst b 1 1 ∨ softRstStep d v c b = c.wfld d R.pwrSoftFlags 0 1 1 ∨ softRstStep d v c b = c := by
  unfold softRstStep
  split_ifs
  · exact .inr (.inr rfl)
  · exact .inl rfl
  · exact .inr (.inl rfl)

section
variable {d k : Nat} (v : Reg32) (c : Chip)

/-- A step leaves which blocks are disabled and every gate. -/
theorem softRstStep_ready {b : Nat} (hb : b < 17) :
    (softRstStep d v c k).blockDisabled d b = c.blockDisabled d b ∧ (softRstStep d v c k).gateOpen d b = c.gateOpen d b := by
  obtain h | h | h := softRstStep_cases d v c k <;> rw [h]
  · exact ⟨blockDisabled_wfld (by decide) hb c, by
      rw [Chip.gateOpen, bit_of_rd (rd_wfld_apart (by decide) c d d k 1 1) b, Chip.gateOpen]⟩
  · exact ⟨blockDisabled_wfld (by decide) hb c, by
      rw [Chip.gateOpen, bit_of_rd (rd_wfld_apart (by decide) c d d 0 1 1) b, Chip.gateOpen]⟩
  · exact ⟨rfl, rfl⟩

theorem softRstStep_bit {b : Nat} (hk : k < 17) (hne : k ≠ b) :
    (softRstStep d v c k).bit d R.pwrSoftRst b = c.bit d R.pwrSoftRst b := by
  obtain h | h | h := softRstStep_cases d v c k <;> rw [h]
  · exact bit_wfld_other _ _ _ _ (by omega) (by omega)
  · exact bit_of_rd (rd_wfld_apart (by decide) c d d 0 1 1) b

theorem softRstStep_flag (hflag : c.bit d R.pwrSoftFlags 0 = true) : (softRstStep d v c k).bit d R.pwrSoftFlags 0 = true := by
  obtain h | h | h := softRstStep_cases d v c k <;> rw [h]
  · rw [bit_of_rd (rd_wfld_apart (by decide) c d d k 1 1) 0, hflag]
  · rw [bit_wfld_same _ _ _ _ (by decide) (by decide)]; rfl
  · exact hflag

end

section
variable {d b : Nat} {v : Reg32} {c : Chip} (hb : b < 17) (h3 : b ≠ 3) (hv : v.getLsbD b = true)
include hb h3 hv

theorem pwrSoftRst_starts (hdis : c.blockDisabled d b = true) (hgate : c.gateOpen d b = true) :
    (pwrSoftRst d v c).bit d R.pwrSoftRst b = true := by
  rw [pwrSoftRst_eq]
  refine foldl_range_at (P := fun y : Chip => y.blockDisabled d b = true ∧ y.gateOpen d b = true)
    (Q := fun y : Chip => y.bit d R.pwrSoftRst b = true) hb ⟨hdis, hgate⟩
    (fun y k hk _ h => ?_) (fun y h => ?_) fun y k hk hne h => ?_
  · obtain ⟨hsame, hopen⟩ := softRstStep_ready (d := d) (k := k) v y hb
    rw [hsame, hopen]; exact h
  · rw [softRstStep, if_neg (by simp [hv, h3]), if_pos (by simp [h]), bit_wfld_same _ _ _ _ (by omega) (by omega), Nat.sub_self]; rfl
  · rw [softRstStep_bit v y hk hne, h]

/-- A soft reset of a block that is enabled or gated is refused and flagged. -/
theorem pwrSoftRst_refused (hno : c.blockDisabled d b = false ∨ c.gateOpen d b = false) :
    (pwrSoftRst d v c).bit d R.pwrSoftFlags 0 = true ∧ (pwrSoftRst d v c).bit d R.pwrSoftRst b = c.bit d R.pwrSoftRst b := by
  rw [pwrSoftRst_eq]
  refine foldl_range_at
    (P := fun y : Chip => (y.blockDisabled d b = false ∨ y.gateOpen d b = false) ∧ y.bit d R.pwrSoftRst b = c.bit d R.pwrSoftRst b)
    (Q := fun y : Chip => y.bit d R.pwrSoftFlags 0 = true ∧ y.bit d R.pwrSoftRst b = c.bit d R.pwrSoftRst b) hb ⟨hno, rfl⟩
    (fun y k hk hne h => ?_) (fun y h => ?_) fun y k hk hne h => ?_
  · obtain ⟨hsame, hopen⟩ := softRstStep_ready (d := d) (k := k) v y hb
    rw [hsame, hopen, softRstStep_bit v y hk hne]; exact h
  · obtain ⟨hno, hbit⟩ := h
    have hstep : softRstStep d v y b = y.wfld d R.pwrSoftFlags 0 1 1 := by
      rw [softRstStep, if_neg (by simp [hv, h3]), if_neg]
      obtain h | h := hno <;> simp [h]
    rw [hstep, bit_wfld_same _ _ _ _ (by decide) (by decide), bit_of_rd (rd_wfld_apart (by decide) y d d 0 1 1) b]
    exact ⟨rfl, hbit⟩
  · rw [softRstStep_bit v y hk hne]; exact ⟨softRstStep_flag v y h.1, h.2⟩

end

/-- Settles O26. -/
theorem refusedGatesAndResets : Obligations.RefusedGatesAndResets := by
  unfold Obligations.RefusedGatesAndResets
  intro s m d b v hb
  refine ⟨fun h hv hno hgate => gives_access h rfl ?gate, fun h h3 hv hno => gives_access h rfl ?soft⟩
  case gate =>
    obtain ⟨hopen, hflag⟩ := clkGate_refused hb hv hno hgate
    exact ⟨hopen, hflag, fun e _ hne _ => clkGate_die v s.chip hne⟩
  case soft => exact pwrSoftRst_refused hb h3 hv hno

/-! ### The mode and the time base -/

/-- The write of a mode that every die can run. -/
theorem pkgTenantMode_taken {c : Chip} {m : Master} {v : Reg32} {q : Chip} (hq : q = c.writeStored m 0 R.pkgTenantMode v)
    (h : c.mode = 1 ∨ q.mode ≠ 1 ∨ ∀ d ∈ q.allDies, q.en d 10 = true → q.macsecLanes d ≤ 16) :
    pkgTenantMode m v c = if (c.mode == 3) = (q.mode == 3) then q else q.flowClear := by
  have hnone : q.allDies.find? (fun d => c.mode != 1 && q.en d 10 && q.macsecOver d) = none := by
    rw [List.find?_eq_none]
    intro d hd
    obtain h | h | h := h
    · simp [h]
    · simp [Chip.macsecOver, h]
    · have hlanes := h d hd
      cases hen : q.en d 10
      · simp
      · simp [Chip.macsecOver, Nat.not_lt.2 (hlanes hen)]
  simp only [pkgTenantMode, ← hq, hnone]
  cases c.mode == 3 <;> cases q.mode == 3 <;> rfl

/-- A change to Crypt while die 0 runs MACsec on too many lanes is refused as the enable of its block is. -/
theorem pkgTenantMode_refused {c : Chip} {m : Master} {v : Reg32} {q : Chip} (hq : q = c.writeStored m 0 R.pkgTenantMode v)
    (hmode : c.mode ≠ 1) (hcrypt : q.mode = 1) (hdies : q.dies = 2) (hen : q.en 0 10 = true) (hlanes : 16 < q.macsecLanes 0) :
    pkgTenantMode m v c = c.raise Cls.cipCfgInvalid 0 { block := 10 } := by
  have hfirst : q.allDies.find? (fun d => c.mode != 1 && q.en d 10 && q.macsecOver d) = some 0 := by
    rw [Chip.allDies, hdies]
    exact List.find?_cons_of_pos (by simp [Chip.macsecOver, hmode, hcrypt, hen, hlanes])
  simp only [pkgTenantMode, ← hq, hfirst]

/-- The rate is held within what its field shows. -/
theorem rate_clkTbRate (v : Reg32) (c : Chip) : (clkTbRate v c).rate = max (-429497) (min 429497 v.toInt) := by
  have hin : -429497 ≤ max (-429497) (min 429497 v.toInt) ∧ max (-429497) (min 429497 v.toInt) ≤ 429497 := by omega
  rw [Chip.rate, clkTbRate, Laws.rd_wr_same, BitVec.toNat_ofInt, toSigned]
  generalize max (-429497) (min 429497 v.toInt) = a at hin
  obtain ⟨hlow, hhigh⟩ := hin
  omega

/-- A step of the time base moves the times that schedule state holds, and no clock or register. -/
theorem shiftTimes_clk (c : Chip) (n : Nat) : (c.shiftTimes n).clk = c.clk := rfl

theorem shiftTimes_regs (c : Chip) (n : Nat) : (c.shiftTimes n).regs = c.regs := rfl

/-- The part with its time base, and with the end of its hold on learn events, at another count. -/
def atTime (c : Chip) (tb : Nat) : Chip := { c with clk := { c.clk with tb := tb } }

def holdLearn (c : Chip) (until_ : Nat) : Chip := { c with clk := { c.clk with learnHold := until_ } }

theorem holdLearn_atTime (c : Chip) (tb until_ : Nat) : (holdLearn (atTime c tb) until_).clk.tb = tb ∧
    (holdLearn (atTime c tb) until_).clk.learnHold = until_ ∧ (holdLearn (atTime c tb) until_).steady = c.steady ∧
    (holdLearn (atTime c tb) until_).regs = c.regs := ⟨rfl, rfl, rfl, rfl⟩

theorem steady_atTime (c : Chip) (tb : Nat) : (atTime c tb).steady = c.steady := rfl

theorem steady_shiftTimes (c : Chip) (n : Nat) : (c.shiftTimes n).steady = c.steady := rfl

/-- A step that is not ignored. -/
theorem clkTbStep_taken {v : Reg32} {c : Chip} {n : Nat} (heq : n = c.clk.stepLo + v.toNat * 2 ^ 32) (hn : n ≠ 0)
    (hpos : v.getLsbD 31 = false) : ∃ q, q = atTime (c.shiftTimes (n * 65536)) ((c.shiftTimes (n * 65536)).clk.tb + n * tbPerNs) ∧
      clkTbStep v c = holdLearn q (q.steady + 4000) := by
  refine ⟨_, rfl, ?_⟩
  unfold clkTbStep
  rw [← heq]
  exact if_neg (by rw [hpos]; simpa using hn)

theorem clkTbStep_leaves {v : Reg32} {c : Chip} {n : Nat} (heq : n = c.clk.stepLo + v.toNat * 2 ^ 32) (hn : n ≠ 0)
    (hpos : v.getLsbD 31 = false) : (clkTbStep v c).clk.tb = c.clk.tb + n * tbPerNs ∧ (clkTbStep v c).clk.learnHold = c.steady + 4000 ∧
      (clkTbStep v c).steady = c.steady ∧ (clkTbStep v c).regs = c.regs := by
  obtain ⟨q, hq, hstep⟩ := clkTbStep_taken heq hn hpos
  have hsteady : q.steady = c.steady := by rw [hq, steady_atTime, steady_shiftTimes]
  obtain ⟨htb, hhold, hedges, hregs⟩ := holdLearn_atTime (c.shiftTimes (n * 65536)) ((c.shiftTimes (n * 65536)).clk.tb + n * tbPerNs)
    (q.steady + 4000)
  rw [← hq] at htb hhold hedges hregs
  rw [hstep]
  exact ⟨htb.trans (by rw [shiftTimes_clk]), hhold.trans (by rw [hsteady]), hedges.trans (steady_shiftTimes ..),
    hregs.trans (shiftTimes_regs ..)⟩

/-- Settles O54. -/
theorem registerRowsComplete : Obligations.RegisterRowsComplete := by
  unfold Obligations.RegisterRowsComplete
  intro s m d b v
  refine ⟨fun h hv hb h3 => ?enable, fun h hv hb h3 => ?disable, fun h hv => ?spill, fun q h hq hok => ?mode,
    fun q h hq hmode hcrypt hdies hen hlanes => ?refused, fun off a hok hoff hal hnamed hpath hne => ?write,
    fun off a x hok hoff hal hnamed hpath => ?read, fun h hb hv => ?opens, fun h hb hv h3 hdis => ?closes,
    fun h hb h3 hv hdis hgate => ?soft, fun h => ?rate, fun h hpos hn => ?step⟩
  case enable =>
    refine exec_access h (congrArg Host.Outcome.next ?_)
    exact if_pos (by rw [hv]; simp [hb, h3])
  case disable =>
    refine exec_access h (congrArg Host.Outcome.next ?_)
    exact if_pos (by rw [hv]; simp [hb, h3])
  case spill =>
    refine exec_access h (congrArg Host.Outcome.next ?_)
    exact if_neg (by rw [hv]; decide)
  case mode => exact (exec_access h rfl).trans (next_onChip (pkgTenantMode_taken hq hok))
  case refused => exact (exec_access h rfl).trans (next_onChip (pkgTenantMode_refused hq hmode hcrypt hdies hen hlanes))
  case write =>
    rw [exec_registerWrite_word (by decide) hok hoff hal v, bar4Store_access hne, bar4Access_write hnamed hpath]
  case read => rw [exec_counterReadClear_word (by decide) hok hoff hal x, bar4Access_read hnamed hpath]
  case opens =>
    refine gives_access h rfl ?_
    show (clkGate d v s.chip).gateOpen d b = true
    rw [Chip.gateOpen, clkGate_opens hb hv, Bool.or_true]
  case closes => exact gives_access h rfl (clkGate_closes hb hv h3 hdis)
  case soft => exact gives_access h rfl (pwrSoftRst_starts hb h3 hv hdis hgate)
  case rate => exact gives_access h rfl ⟨rate_clkTbRate v s.chip, rfl⟩
  case step =>
    refine gives_access h rfl ?_
    simp only [State.onChip_chip]
    exact clkTbStep_leaves rfl hn hpos

end Sys2Proof.Proofs
end

section
/-! Selections and their snapshots (R537): what a write of a selection register stores, clears and leaves. -/

namespace Sys2Proof.Proofs

open Sys2Proof.Machine

/-! ### Stored snapshots -/

/-- `t` is `c` but for the words of the register offsets `l`. -/
def Stored (l : List Nat) (c t : Chip) : Prop :=
  ∃ regs, t = { c with regs := regs } ∧ ∀ x, x ∉ l → tget 0#32 regs x = tget 0#32 c.regs x

theorem stored_refl (c : Chip) : Stored [] c c := ⟨c.regs, rfl, fun _ _ => rfl⟩

theorem Stored.wr {l : List Nat} {c t : Chip} (h : Stored l c t) (d : Nat) (a : RegAddr) (v : Nat) : Stored (l ++ [bar4 d a]) c (t.wr d a v) := by
  obtain ⟨regs, rfl, hw⟩ := h
  refine ⟨_, rfl, fun x hx => ?_⟩
  rw [List.mem_append, not_or, List.mem_singleton] at hx
  exact (tget_tput_ne _ _ _ hx.2).trans (hw x hx.1)

theorem Stored.snap64 {l : List Nat} {c t : Chip} (h : Stored l c t) (d : Nat) (a : RegAddr) (v : Nat) :
    Stored (l ++ [bar4 d a] ++ [bar4 d ⟨a.blk, a.off + 4⟩]) c (t.snap64 d a v) := (h.wr ..).wr ..

theorem Stored.foldl_wr {l : List Nat} {c t : Chip} (h : Stored l c t) (d : Nat) (a : Nat → RegAddr) (v : Nat → Nat) (n : Nat) :
    Stored (l ++ (List.range n).map fun w => bar4 d (a w)) c ((List.range n).foldl (fun c w => c.wr d (a w) (v w)) t) := by
  induction n with
  | zero => simpa using h
  | succ n ih =>
    rw [List.range_succ, List.foldl_append, List.foldl_cons, List.foldl_nil, List.map_append, ← List.append_assoc]
    exact ih.wr ..

theorem bitN_toNat (v : Reg32) (i : Nat) : bitN v.toNat i = v.getLsbD i := by rw [bitN_eq_testBit, BitVec.testBit_toNat]

/-! ### What a selection leaves -/

/-- Part `q` is `c` but for what selection `i` with value `v` shows and clears on die `d`, and for the report of a codeword in error
where there is one. -/
structure SelFrame (i : Instr) (d : Nat) (v : Reg32) (err : Prop) (c q : Chip) : Prop where
  shape : q = { c with
      regs := q.regs, fns := q.fns, faults := { q.faults with held := c.faults.held }, out := q.out
      qs := { c.qs with policers := q.qs.policers }, cp := { c.cp with keyCtr := q.cp.keyCtr }
      tb := { c.tb with ctrs := q.tb.ctrs, hits := q.tb.hits, badCtrs := q.tb.badCtrs, drops := q.tb.drops, macCtr := q.tb.macCtr } } := by rfl
  aer : c.aerOnly q.fns := by exact fun _ => rfl
  words : ∀ x, x ∉ i.snapshots → ¬ (err ∧ x = bar4 0 R.fltLogOvf) → q.word x = c.word x
  ctrs : ∀ n, ¬ (v.getLsbD 30 = true ∧ i.selected = some (.pair, n)) → tget (0, 0) q.tb.ctrs n = tget (0, 0) c.tb.ctrs n := by
    exact fun _ _ => rfl
  hits : ∀ n, ¬ (v.getLsbD 30 = true ∧ i.selected = some (.hit, n)) → tget 0 q.tb.hits n = tget 0 c.tb.hits n := by exact fun _ _ => rfl
  bad : ∀ n, i.selected ≠ some (.pair, n) → (n ∈ q.tb.badCtrs ↔ n ∈ c.tb.badCtrs) := by exact fun _ _ => .rfl
  drops : ∀ n, ¬ (v.getLsbD 30 = true ∧ i.selected = some (.drop, n)) → tget 0 q.tb.drops n = tget 0 c.tb.drops n := by exact fun _ _ => rfl
  macs : ∀ n, ¬ (v.getLsbD 30 = true ∧ i.selected = some (.mac, n)) → tget 0 q.tb.macCtr n = tget 0 c.tb.macCtr n := by exact fun _ _ => rfl
  keys : ∀ n, ¬ (v.getLsbD 30 = true ∧ i.selected = some (.key, n)) → tget (0, 0) q.cp.keyCtr n = tget (0, 0) c.cp.keyCtr n := by
    exact fun _ _ => rfl
  policers : ∀ n, ¬ (v.getLsbD 30 = true ∧ i.selected = some (.policer, n)) →
    tget Policer.none q.qs.policers n = tget Policer.none c.qs.policers n := by exact fun _ _ => rfl
  buckets : ∀ n, { tget Policer.none q.qs.policers n with green := 0, yellow := 0, red := 0 } =
      { tget Policer.none c.qs.policers n with green := 0, yellow := 0, red := 0 } := by exact fun _ => rfl
  classes : ∀ n, ¬ (v.getLsbD 30 = true ∧ i.selected = some (.cls, n)) → ¬ (err ∧ n ∈ [clsKey d 3, clsKey d 4, clsKey 0 0x66]) →
      tget ClassRec.none q.faults.classes n = tget ClassRec.none c.faults.classes n := by exact fun _ _ _ => rfl
  quiet : ¬ err → q.fns = c.fns ∧ q.out = c.out ∧ q.faults = { c.faults with classes := q.faults.classes } := by
    exact fun _ => ⟨rfl, rfl, rfl⟩

/-- Clearing the counter that a selection names leaves every other of its kind. -/
theorem tget_cleared {α : Type} [DecidableEq α] {z y : α} {tab : Tab α} {i : Instr} {v : Reg32} {kind : CtrKind} {k n : Nat}
    (hsel : i.selected = some (kind, k)) (hclear : v.getLsbD 30 = true) (hn : ¬ (v.getLsbD 30 = true ∧ i.selected = some (kind, n))) :
    tget z (tput z tab k y) n = tget z tab n :=
  tget_tput_ne _ _ _ fun h => hn ⟨hclear, h ▸ hsel⟩

section
variable (d : Nat) (v : Reg32) (c : Chip) (m : Master)

theorem bufOccSel_frame : SelFrame (.bufOccSel m d v) d v False c (bufOccSel d v c) := by
  obtain ⟨regs, hq, hw⟩ := ((stored_refl c).wr d R.bufOccSnapTotal (c.poolUsed d (ofDest (v.getLsbD 12) (bitsN v.toNat 0 12)))).wr d
    R.bufOccSnapOndie (c.poolUsed d fun q => isTenant q && ofDest (v.getLsbD 12) (bitsN v.toNat 0 12) q)
  have hsel : bufOccSel d v c = { c with regs := regs } := hq
  rw [hsel]
  exact { words := fun x hx _ => hw x hx }

theorem bufDropSel_frame : SelFrame (.bufDropSel m d v) d v False c (bufDropSel d v c) := by
  obtain ⟨k, hk⟩ : ∃ k, k = ((d * 256 + bitsN v.toNat 0 8) * 2 + bitsN v.toNat 20 1) * 4096 + bitsN v.toNat 8 12 := ⟨_, rfl⟩
  have hsel : (Instr.bufDropSel m d v).selected = some (.drop, k) := by rw [hk]; rfl
  obtain ⟨regs, hq, hw⟩ := (stored_refl c).wr d R.bufDropSnap (tget 0 c.tb.drops k)
  simp only [bufDropSel, bitN_toNat, ← hk, hq]
  split_ifs with hclear
  · exact { words := fun x hx _ => hw x hx, drops := fun n hn => tget_cleared (z := 0) (y := 0) (tab := c.tb.drops) hsel hclear hn }
  · exact { words := fun x hx _ => hw x hx }

theorem schShpSel_frame : SelFrame (.schShpSel m d v) d v False c (schShpSel d v c) := by
  obtain ⟨x, hx⟩ : ∃ x, x = c.shaper (d * 131072 + bitsN v.toNat 0 17) := ⟨_, rfl⟩
  obtain ⟨regs, hq, hw⟩ := (((stored_refl c).wr d R.schShpSnapRate x.rate).wr d R.schShpSnapBurst
    (x.burst % 2 ^ 24 + x.overhead % 64 * 2 ^ 24)).wr d R.schShpSnapCredit (sat32 (x.credit / (creditByte : Int)))
  simp only [schShpSel, ← hx, hq]
  exact { words := fun x hx _ => hw x hx }

theorem weiCntSel_frame : SelFrame (.weiCntSel m d v) d v False c (weiCntSel d v c) := by
  obtain ⟨k, hk⟩ : ∃ k, k = d * 131072 + bitsN v.toNat 0 17 := ⟨_, rfl⟩
  have hsel : (Instr.weiCntSel m d v).selected = some (.policer, k) := by rw [hk]; rfl
  obtain ⟨x, hx⟩ : ∃ x, x = tget Policer.none c.qs.policers k := ⟨_, rfl⟩
  obtain ⟨regs, hq, hw⟩ := (((stored_refl c).snap64 d R.weiCntGreenLo x.green).snap64 d R.weiCntYellowLo x.yellow).snap64 d R.weiCntRedLo x.red
  simp only [weiCntSel, ← hk, ← hx, hq]
  split_ifs with hclear
  · refine { words := fun x hx _ => hw x hx, policers := fun n hn => tget_cleared hsel hclear hn, buckets := fun n => ?_ }
    by_cases h : n = k
    · rw [h, ← hx]
      exact congrArg (fun p : Policer => { p with green := 0, yellow := 0, red := 0 }) (tget_tput_same ..)
    · exact congrArg (fun p : Policer => { p with green := 0, yellow := 0, red := 0 }) (tget_tput_ne _ _ _ h)
  · exact { words := fun x hx _ => hw x hx }

theorem macCntSel_frame : SelFrame (.macCntSel m d v) d v False c (macCntSel d v c) := by
  obtain ⟨k, hk⟩ : ∃ k, k = (d * 64 + bitsN v.toNat 0 6) * 32 + bitsN v.toNat 8 5 := ⟨_, rfl⟩
  have hsel : (Instr.macCntSel m d v).selected = some (.mac, k) := by rw [hk]; rfl
  obtain ⟨regs, hq, hw⟩ := (stored_refl c).snap64 d R.macCntSnapLo (tget 0 c.tb.macCtr k)
  simp only [macCntSel, bitN_toNat, ← hk, hq]
  split_ifs with hclear
  · exact { words := fun x hx _ => hw x hx, macs := fun n hn => tget_cleared (z := 0) (y := 0) (tab := c.tb.macCtr) hsel hclear hn }
  · exact { words := fun x hx _ => hw x hx }

theorem cipSlotSel_frame : SelFrame (.cipSlotSel m d v) d v False c (cipSlotSel d v c) := by
  obtain ⟨k, hk⟩ : ∃ k, k = d * 65536 + bitsN v.toNat 0 16 := ⟨_, rfl⟩
  have hsel : (Instr.cipSlotSel m d v).selected = some (.key, k) := by rw [hk]; rfl
  obtain ⟨regs, hq, hw⟩ := ((stored_refl c).wr d R.cipSlotAuthfail (tget (0, 0) c.cp.keyCtr k).1).wr d R.cipSlotReplay
    (tget (0, 0) c.cp.keyCtr k).2
  simp only [cipSlotSel, ← hk, hq]
  split_ifs with hclear
  · exact { words := fun x hx _ => hw x hx, keys := fun n hn => tget_cleared (z := (0, 0)) (y := (0, 0)) (tab := c.cp.keyCtr) hsel hclear hn }
  · exact { words := fun x hx _ => hw x hx }

theorem dreCtxSel_frame : SelFrame (.dreCtxSel m d v) d v False c (dreCtxSel d v c) := by
  unfold dreCtxSel
  split
  · obtain ⟨regs, hq, hw⟩ := ((stored_refl c).wr d R.dreCtxSnapState 0).wr d R.dreCtxSnapWords 0
    rw [hq]
    exact { words := fun x hx _ => hw x hx }
  · rename_i k _
    obtain ⟨regs, hq, hw⟩ := ((stored_refl c).wr d R.dreCtxSnapState (c.ctxCode k + b2n k.job * 8 + k.pc % 2 ^ 15 * 16)).wr d R.dreCtxSnapWords
      (min k.words (2 ^ 32 - 1))
    rw [hq]
    exact { words := fun x hx _ => hw x hx }

theorem fltClassSel_frame : SelFrame (.fltClassSel m d v) d v False c (fltClassSel d v c) := by
  obtain ⟨cls, hcls⟩ : ∃ cls, cls = bitsN v.toNat 0 8 := ⟨_, rfl⟩
  have hsel : (Instr.fltClassSel m d v).selected = some (.cls, clsKey d cls) := by rw [hcls]; rfl
  obtain ⟨bytesOf, hbytes⟩ : ∃ bytesOf : Option ErrRec → Bytes, bytesOf =
    fun r => match r with | some r => r.bytes | none => List.replicate 32 0 := ⟨_, rfl⟩
  obtain ⟨regs, hq, hw⟩ := ((stored_refl c).wr d R.fltSnapCount (c.cls d cls).count).foldl_wr d R.fltSnapFirst
      (fun w => leAt (bytesOf (c.cls d cls).first) (4 * w) 4) 8 |>.foldl_wr d R.fltSnapLast
      (fun w => leAt (bytesOf (c.cls d cls).last) (4 * w) 4) 8
  have hsplit : fltClassSel d v c = if v.getLsbD 30 then Chip.setCls { c with regs := regs } d cls
      { c.cls d cls with count := 0, first := none, last := none } else { c with regs := regs } := by
    rw [← hq, hbytes, hcls]; rfl
  rw [hsplit]
  split_ifs with hclear
  · exact { words := fun x hx _ => hw x hx, classes := fun n hn _ => tget_cleared hsel hclear hn }
  · exact { words := fun x hx _ => hw x hx }

end

/-! ### Counter pairs, whose codeword may be in error -/

/-- The read of a counter pair's codeword by CLS_CNT_SEL (R502, R506). -/
def pairRead (d i k : Nat) (e : ScrubOutcome) (c : Chip) : Chip :=
  if c.tb.badCtrs.contains k then c
  else (c.setTb fun t => if e == .uncorrectable then { t with badCtrs := t.badCtrs ++ [k] } else t).readCheck d false e
    { block := 2, addr := i * 16 }

/-- Everything the read of a pair's codeword can do. -/
structure PairRead (d k : Nat) (e : ScrubOutcome) (c q : Chip) : Prop where
  shape : q = { c with
    regs := q.regs, fns := q.fns, faults := { q.faults with held := c.faults.held }, out := q.out, tb := { c.tb with badCtrs := q.tb.badCtrs } }
  aer : c.aerOnly q.fns
  words : ∀ x, ¬ (e ≠ .clean ∧ x = bar4 0 R.fltLogOvf) → q.word x = c.word x
  classes : ∀ n, ¬ (e ≠ .clean ∧ n ∈ [clsKey d 3, clsKey d 4, clsKey 0 0x66]) → tget ClassRec.none q.faults.classes n =
    tget ClassRec.none c.faults.classes n
  bad : ∀ n, n ≠ k → (n ∈ q.tb.badCtrs ↔ n ∈ c.tb.badCtrs)
  quiet : e = .clean → q.fns = c.fns ∧ q.out = c.out ∧ q.faults = c.faults

theorem pairRead_refl (d k : Nat) (e : ScrubOutcome) (c : Chip) : PairRead d k e c c :=
  ⟨rfl, fun _ => rfl, fun _ _ => rfl, fun _ _ => rfl, fun _ _ => .rfl, fun _ => ⟨rfl, rfl, rfl⟩⟩

/-- A class kept under any key other than the raised class's and LOG_OVERFLOW's. -/
theorem classes_raise (c : Chip) (cls die : Nat) (e : Ev) {n : Nat} (h : n ≠ clsKey die cls) (h' : n ≠ clsKey 0 Cls.logOverflow) :
    tget ClassRec.none (c.raise cls die e).faults.classes n = tget ClassRec.none c.faults.classes n := by
  have hn : clsKey (n / 256) (n % 256) = n := Nat.div_add_mod' n 256
  have hkept := c.raise_cls_ne cls die (n / 256) (n % 256) e (by rw [hn]; exact h) (by rw [hn]; exact h')
  simp only [Chip.cls, hn] at hkept
  exact hkept

/-- The part with another list of pairs that are lost. -/
def withBad (c : Chip) (bad : List Nat) : Chip := c.setTb fun t => { t with badCtrs := bad }

/-- A read in error raises one class and may add the pair to those that are lost. -/
theorem pairRead_raise {d k cls : Nat} {e : ScrubOutcome} (he : e ≠ .clean) (hcls : cls = 3 ∨ cls = 4) (c : Chip)
    {bad : List Nat} (hbad : ∀ n, n ≠ k → (n ∈ bad ↔ n ∈ c.tb.badCtrs)) (ev : Ev) :
    PairRead d k e c ((withBad c bad).raise cls d ev) := by
  have hclasses (n : Nat) (hn : ¬ (e ≠ .clean ∧ n ∈ [clsKey d 3, clsKey d 4, clsKey 0 0x66])) := by
    simp only [he, List.mem_cons, List.not_mem_nil, or_false, ne_eq, not_false_eq_true, true_and, not_or] at hn
    obtain ⟨h3, h4, hovf⟩ := hn
    exact classes_raise (withBad c bad) cls d ev (n := n) (by obtain rfl | rfl := hcls; exact h3; exact h4) hovf
  have hwords (x : Nat) (hx : x ≠ bar4 0 R.fltLogOvf) := raise_word (withBad c bad) cls d ev hx
  obtain ⟨regs, fns, faults, out, hq, hheld, haer⟩ := Chip.raise_reports (withBad c bad) cls d ev
  rw [hq] at hclasses hwords ⊢
  have hheld : faults.held = c.faults.held := hheld
  exact ⟨by rw [← hheld]; rfl, haer, fun x hx => hwords x fun h => hx ⟨he, h⟩, hclasses, hbad, fun h => absurd h he⟩

theorem pairRead_spec (d i k : Nat) (e : ScrubOutcome) (c : Chip) : PairRead d k e c (pairRead d i k e c) := by
  unfold pairRead
  split
  · exact pairRead_refl d k e c
  · cases e with
    | clean => exact pairRead_refl d k .clean c
    | corrected n => exact pairRead_raise (bad := c.tb.badCtrs) ScrubOutcome.noConfusion (.inl rfl) c (fun _ _ => .rfl) _
    | uncorrectable =>
      exact pairRead_raise (bad := c.tb.badCtrs ++ [k]) ScrubOutcome.noConfusion (.inr rfl) c (fun n hn => by simp [hn]) _

/-- The snapshot of a pair, and its clear bit. -/
def pairShow (d k : Nat) (clear : Bool) (c : Chip) : Chip :=
  let x := if c.tb.badCtrs.contains k then (2 ^ 64 - 1, 2 ^ 64 - 1) else tget (0, 0) c.tb.ctrs k
  let c := (c.snap64 d R.clsCntSnapPktsLo x.1).snap64 d R.clsCntSnapBytesLo x.2
  if clear then c.setTb fun t => { t with ctrs := tput (0, 0) t.ctrs k (0, 0), badCtrs := t.badCtrs.filter (· != k) } else c

theorem clsCntSel_pair {d : Nat} {v : Reg32} {e : ScrubOutcome} {c : Chip} (h : v.getLsbD 31 = false) :
    clsCntSel d v e c = pairShow d (d * 2 ^ 20 + bitsN v.toNat 0 20) (v.getLsbD 30)
      (pairRead d (bitsN v.toNat 0 20) (d * 2 ^ 20 + bitsN v.toNat 0 20) e c) := by
  simp only [clsCntSel, bitN_toNat, h, Bool.false_eq_true, if_false]
  rfl

/-- Showing a pair after its codeword was read, in error or not. -/
theorem pairShow_frame {d k : Nat} {v : Reg32} {e : ScrubOutcome} {c q : Chip} {m : Master}
    (hsel : (Instr.clsCntSel m d v e).selected = some (.pair, k)) (h : PairRead d k e c q) :
    SelFrame (.clsCntSel m d v e) d v (e ≠ .clean) c (pairShow d k (v.getLsbD 30) q) := by
  obtain ⟨x, hx⟩ : ∃ x, x = if q.tb.badCtrs.contains k then (2 ^ 64 - 1, 2 ^ 64 - 1) else tget (0, 0) q.tb.ctrs k := ⟨_, rfl⟩
  obtain ⟨regs, hst, hw⟩ := ((stored_refl q).snap64 d R.clsCntSnapPktsLo x.1).snap64 d R.clsCntSnapBytesLo x.2
  have hshow : pairShow d k (v.getLsbD 30) q = if v.getLsbD 30 then Chip.setTb { q with regs := regs } fun t =>
      { t with ctrs := tput (0, 0) t.ctrs k (0, 0), badCtrs := t.badCtrs.filter (· != k) } else { q with regs := regs } := by
    rw [← hst, hx]; rfl
  rw [hshow]
  obtain ⟨hshape, haer, hwords, hclasses, hbad, hquiet⟩ := h
  have hword (y : Nat) (hy : y ∉ (Instr.clsCntSel m d v e).snapshots) (hno : ¬ (e ≠ .clean ∧ y = bar4 0 R.fltLogOvf)) :
      tget 0#32 regs y = c.word y := (hw y hy).trans (hwords y hno)
  obtain ⟨r, fns, faults, out, bad, hq⟩ : ∃ (r : Tab Reg32) (fns : Tab PciFn) (faults : Faults) (out : List Out) (bad : List Nat), q = { c with
    regs := r, fns := fns, faults := { faults with held := c.faults.held }, out := out, tb := { c.tb with badCtrs := bad } } :=
    ⟨_, _, _, _, _, hshape⟩
  clear hshow hshape hst
  subst hq
  have hother (n : Nat) (hn : (Instr.clsCntSel m d v e).selected ≠ some (.pair, n)) : n ≠ k := fun h => hn (h ▸ hsel)
  have hkept : ¬ e ≠ .clean → fns = c.fns ∧ out = c.out ∧ ({ faults with held := c.faults.held } : Faults) =
      { c.faults with classes := faults.classes } := fun h => by
    obtain ⟨hfns, hout, hfaults⟩ := hquiet (not_not.1 h)
    exact ⟨hfns, hout, hfaults.trans (by rw [← hfaults])⟩
  split_ifs with hclear
  · exact { aer := haer, words := hword, classes := fun n _ => hclasses n, quiet := hkept
            ctrs := fun n hn => tget_cleared (z := (0, 0)) (y := (0, 0)) (tab := c.tb.ctrs) hsel hclear hn
            bad := fun n hn => (by simp [Chip.setTb, hother n hn] : _ ↔ n ∈ bad).trans (hbad n (hother n hn)) }
  · exact { aer := haer, words := hword, classes := fun n _ => hclasses n, quiet := hkept, bad := fun n hn => hbad n (hother n hn) }

theorem clsCntSel_frame (d : Nat) (v : Reg32) (e : ScrubOutcome) (c : Chip) (m : Master) :
    SelFrame (.clsCntSel m d v e) d v (e ≠ .clean) c (clsCntSel d v e c) := by
  obtain hbit | hbit := Bool.eq_false_or_eq_true (v.getLsbD 31)
  · obtain ⟨k, hk⟩ : ∃ k, k = d * 2 ^ 17 + bitsN v.toNat 0 20 := ⟨_, rfl⟩
    have hsel : (Instr.clsCntSel m d v e).selected = some (.hit, k) := by simp only [Instr.selected, hbit, if_true, hk]
    obtain ⟨x, hx⟩ : ∃ x, x = if bitsN v.toNat 0 20 < 2 ^ 17 then tget 0 c.tb.hits k else 0 := ⟨_, rfl⟩
    obtain ⟨regs, hq, hw⟩ := ((stored_refl c).snap64 d R.clsCntSnapPktsLo x).snap64 d R.clsCntSnapBytesLo 0
    simp only [clsCntSel, bitN_toNat, hbit, if_true, ← hk, ← hx, hq]
    split_ifs with hclear
    · have hv : v.getLsbD 30 = true := (Bool.and_eq_true _ _ ▸ hclear).1
      exact { words := fun x hx _ => hw x hx, hits := fun n hn => tget_cleared (z := 0) (y := 0) (tab := c.tb.hits) hsel hv hn }
    · exact { words := fun x hx _ => hw x hx }
  · obtain ⟨k, hk⟩ : ∃ k, k = d * 2 ^ 20 + bitsN v.toNat 0 20 := ⟨_, rfl⟩
    have hsel : (Instr.clsCntSel m d v e).selected = some (.pair, k) := by
      simp only [Instr.selected, hbit, Bool.false_eq_true, if_false, hk]
    rw [clsCntSel_pair hbit, ← hk]
    exact pairShow_frame hsel (pairRead_spec d (bitsN v.toNat 0 20) k e c)

/-- Settles O17. -/
theorem selectionFrame : Obligations.SelectionFrame := by
  unfold Obligations.SelectionFrame
  intro s t m d v e i hi hreach ht
  have hframe : ∃ q, t = s.onChip (fun _ => q) ∧ SelFrame i d v ((∃ x y z w, i = .clsCntSel x y z w) ∧ e ≠ .clean) s.chip q := by
    have hgo {f : Chip → Chip} {b : Nat} (hsel : i.selects = some b) (hexec : exec i s = .next (busAccess m d b f s))
        (hf : SelFrame i d v ((∃ x y z w, i = .clsCntSel x y z w) ∧ e ≠ .clean) s.chip (f s.chip)) :
        ∃ q, t = s.onChip (fun _ => q) ∧ SelFrame i d v ((∃ x y z w, i = .clsCntSel x y z w) ∧ e ≠ .clean) s.chip q := by
      obtain ⟨b', hb', hr⟩ := hreach
      obtain rfl : b' = b := Option.some.inj (hb'.symm.trans hsel)
      rw [exec_access hr hexec] at ht
      cases ht
      exact ⟨_, rfl, hf⟩
    have hquiet {q : Chip} (hno : ∀ x y z w, i ≠ .clsCntSel x y z w) (hq : SelFrame i d v False s.chip q) :
        SelFrame i d v ((∃ x y z w, i = .clsCntSel x y z w) ∧ e ≠ .clean) s.chip q := by
      have herr : ((∃ x y z w, i = .clsCntSel x y z w) ∧ e ≠ .clean) = False :=
        eq_false fun ⟨⟨x, y, z, w, h⟩, _⟩ => hno x y z w h
      rwa [herr]
    simp only [List.mem_cons, List.not_mem_nil, or_false] at hi
    obtain rfl | rfl | rfl | rfl | rfl | rfl | rfl | rfl | rfl := hi
    · refine hgo rfl rfl ?_
      have herr : ((∃ x y z w, Instr.clsCntSel m d v e = .clsCntSel x y z w) ∧ e ≠ .clean) = (e ≠ .clean) :=
        propext ⟨And.right, fun h => ⟨⟨_, _, _, _, rfl⟩, h⟩⟩
      rw [herr]
      exact clsCntSel_frame ..
    · exact hgo rfl rfl (hquiet (fun _ _ _ _ h => nomatch h) (bufOccSel_frame ..))
    · exact hgo rfl rfl (hquiet (fun _ _ _ _ h => nomatch h) (bufDropSel_frame ..))
    · exact hgo rfl rfl (hquiet (fun _ _ _ _ h => nomatch h) (schShpSel_frame ..))
    · exact hgo rfl rfl (hquiet (fun _ _ _ _ h => nomatch h) (weiCntSel_frame ..))
    · exact hgo rfl rfl (hquiet (fun _ _ _ _ h => nomatch h) (macCntSel_frame ..))
    · exact hgo rfl rfl (hquiet (fun _ _ _ _ h => nomatch h) (cipSlotSel_frame ..))
    · exact hgo rfl rfl (hquiet (fun _ _ _ _ h => nomatch h) (dreCtxSel_frame ..))
    · exact hgo rfl rfl (hquiet (fun _ _ _ _ h => nomatch h) (fltClassSel_frame ..))
  obtain ⟨q, rfl, hq⟩ := hframe
  exact ⟨rfl, rfl, hq.shape, hq.aer, hq.words, hq.ctrs, hq.hits, hq.bad, hq.drops, hq.macs, hq.keys, hq.policers, hq.buckets, hq.classes,
    hq.quiet⟩

/-! ### What the snapshots show -/

theorem rd_snap64_apart {a b : RegAddr} (h : Apart b a ∧ Apart b ⟨a.blk, a.off + 4⟩) (c : Chip) (d v : Nat) :
    (c.snap64 d a v).rd d b = c.rd d b := by
  rw [Chip.snap64, rd_wr_apart h.2, rd_wr_apart h.1]

theorem rd_snap64 {a : RegAddr} (h : Apart a ⟨a.blk, a.off + 4⟩) (c : Chip) (d v : Nat) :
    (c.snap64 d a v).rd d a = v % 2 ^ 32 ∧ (c.snap64 d a v).rd d ⟨a.blk, a.off + 4⟩ = v / 2 ^ 32 % 2 ^ 32 := by
  refine ⟨?_, Laws.rd_wr_same ..⟩
  rw [Chip.snap64, rd_wr_apart h, Laws.rd_wr_same, Nat.mod_mod]

section
variable (d : Nat) (v : Reg32) (c : Chip)

theorem clsCntSel_shows {i : Nat} (h31 : v.getLsbD 31 = false) (h30 : v.getLsbD 30 = true) (hi : bitsN v.toNat 0 20 = i)
    (hbad : (d * 2 ^ 20 + i) ∉ c.tb.badCtrs) :
    (clsCntSel d v .clean c).rd d R.clsCntSnapPktsLo = (tget (0, 0) c.tb.ctrs (d * 2 ^ 20 + i)).1 % 2 ^ 32 ∧
      (clsCntSel d v .clean c).rd d R.clsCntSnapBytesLo = (tget (0, 0) c.tb.ctrs (d * 2 ^ 20 + i)).2 % 2 ^ 32 ∧
      (clsCntSel d v .clean c).tb.ctrs = tput (0, 0) c.tb.ctrs (d * 2 ^ 20 + i) (0, 0) := by
  have hnot : c.tb.badCtrs.contains (d * 2 ^ 20 + i) = false := by simpa using hbad
  have hread : pairRead d i (d * 2 ^ 20 + i) .clean c = c := by
    rw [pairRead, if_neg (by simp only [hnot]; decide)]; rfl
  rw [clsCntSel_pair h31, h30, hi, hread]
  generalize d * 2 ^ 20 + i = k at hnot
  have hshow : pairShow d k true c = ((c.snap64 d R.clsCntSnapPktsLo (tget (0, 0) c.tb.ctrs k).1).snap64 d R.clsCntSnapBytesLo
      (tget (0, 0) c.tb.ctrs k).2).setTb fun t => { t with ctrs := tput (0, 0) t.ctrs k (0, 0), badCtrs := t.badCtrs.filter (· != k) } := by
    simp only [pairShow, hnot, Bool.false_eq_true, if_false, if_true]
  rw [hshow]
  refine ⟨?_, ?_, rfl⟩
  · exact (rd_snap64_apart (by decide) _ _ _).trans (rd_snap64 (by decide) ..).1
  · exact (rd_snap64 (by decide) ..).1

theorem bufDropSel_shows {k : Nat} (hk : k = ((d * 256 + bitsN v.toNat 0 8) * 2 + bitsN v.toNat 20 1) * 4096 + bitsN v.toNat 8 12) :
    (bufDropSel d v c).rd d R.bufDropSnap = tget 0 c.tb.drops k % 2 ^ 32 ∧
      (bufDropSel d v c).tb = if bitN v.toNat 30 then { c.tb with drops := tput 0 c.tb.drops k 0 } else c.tb := by
  simp only [bufDropSel, ← hk]
  split_ifs
  · exact ⟨Laws.rd_wr_same c d R.bufDropSnap _, rfl⟩
  · exact ⟨Laws.rd_wr_same c d R.bufDropSnap _, rfl⟩

theorem schShpSel_shows {x : Shaper} (hx : x = c.shaper (d * 131072 + bitsN v.toNat 0 17)) :
    (schShpSel d v c).rd d R.schShpSnapRate = x.rate % 2 ^ 32 ∧
      (schShpSel d v c).rd d R.schShpSnapCredit = sat32 (x.credit / (creditByte : Int)) := by
  simp only [schShpSel, ← hx]
  refine ⟨?_, (Laws.rd_wr_same ..).trans (Nat.mod_eq_of_lt (BitVec.isLt _))⟩
  rw [rd_wr_apart (by decide), rd_wr_apart (by decide), Laws.rd_wr_same]

theorem weiCntSel_shows {k : Nat} (hk : k = d * 131072 + bitsN v.toNat 0 17) (h30 : v.getLsbD 30 = true) :
    (weiCntSel d v c).rd d R.weiCntGreenLo = (tget Policer.none c.qs.policers k).green % 2 ^ 32 ∧
      tget Policer.none (weiCntSel d v c).qs.policers k = { tget Policer.none c.qs.policers k with green := 0, yellow := 0, red := 0 } := by
  simp only [weiCntSel, ← hk, h30, if_true]
  refine ⟨?_, tget_tput_same ..⟩
  exact (rd_snap64_apart (by decide) _ _ _).trans ((rd_snap64_apart (by decide) _ _ _).trans (rd_snap64 (by decide) ..).1)

theorem macCntSel_shows {n : Nat} (h30 : bitN v.toNat 30 = true) (hn : n = c.mac (d * 64 + bitsN v.toNat 0 6) (bitsN v.toNat 8 5)) :
    (macCntSel d v c).rd d R.macCntSnapLo = n % 2 ^ 32 ∧
      (macCntSel d v c).rd d ⟨R.macCntSnapLo.blk, R.macCntSnapLo.off + 4⟩ = n / 2 ^ 32 % 2 ^ 32 ∧
      (macCntSel d v c).mac (d * 64 + bitsN v.toNat 0 6) (bitsN v.toNat 8 5) = 0 := by
  simp only [macCntSel, h30, if_true]
  unfold Chip.mac at hn ⊢
  rw [← hn]
  obtain ⟨hlo, hhi⟩ := rd_snap64 (a := R.macCntSnapLo) (by decide) c d n
  exact ⟨hlo, hhi, tget_tput_same 0 c.tb.macCtr _ 0⟩

theorem cipSlotSel_shows {k : Nat} (hk : k = d * 65536 + bitsN v.toNat 0 16) (h30 : v.getLsbD 30 = true) :
    (cipSlotSel d v c).rd d R.cipSlotAuthfail = (tget (0, 0) c.cp.keyCtr k).1 % 2 ^ 32 ∧
      (cipSlotSel d v c).rd d R.cipSlotReplay = (tget (0, 0) c.cp.keyCtr k).2 % 2 ^ 32 ∧
      tget (0, 0) (cipSlotSel d v c).cp.keyCtr k = (0, 0) := by
  simp only [cipSlotSel, ← hk, h30, if_true]
  exact ⟨(rd_wr_apart (by decide) ..).trans (Laws.rd_wr_same ..), Laws.rd_wr_same .., tget_tput_same (0, 0) c.cp.keyCtr k (0, 0)⟩

end

/-- Settles O53. -/
theorem snapshotsTaken : Obligations.SnapshotsTaken := by
  unfold Obligations.SnapshotsTaken
  intro s m d v
  refine ⟨fun i h h31 h30 hi hbad => gives_access h rfl ?pair, fun h => gives_access h rfl ?occ,
    fun k h h30 hk => gives_access h rfl ?drop, fun k h h30 hk => gives_access h rfl ?dropClear, fun h => gives_access h rfl ?shaper,
    fun h h30 => gives_access h rfl ?policer, fun n h h30 hn => gives_access h rfl ?mac, fun h h30 => gives_access h rfl ?key,
    fun h hnone => gives_access h rfl ?noCtx, fun k h hk => gives_access h rfl ?ctx⟩
  all_goals simp only [State.onChip_chip]
  case pair =>
    obtain ⟨hpkts, hbytes, hctrs⟩ := clsCntSel_shows d v s.chip h31 h30 hi hbad
    rw [hctrs]
    exact ⟨hpkts, hbytes, tget_tput_same .., fun j hj => tget_tput_ne _ _ _ hj⟩
  case occ => exact ⟨(rd_wr_apart (by decide) ..).trans (Laws.rd_wr_same ..), Laws.rd_wr_same ..⟩
  case drop =>
    obtain ⟨hrd, htb⟩ := bufDropSel_shows d v s.chip hk
    exact ⟨hrd, htb.trans (if_neg (by simp [h30]))⟩
  case dropClear =>
    obtain ⟨hrd, htb⟩ := bufDropSel_shows d v s.chip hk
    rw [htb, if_pos h30]
    exact ⟨hrd, tget_tput_same 0 s.chip.tb.drops k 0⟩
  case shaper => exact schShpSel_shows d v s.chip rfl
  case policer => exact weiCntSel_shows d v s.chip rfl h30
  case mac => exact macCntSel_shows d v s.chip h30 hn
  case key => exact cipSlotSel_shows d v s.chip rfl h30
  case noCtx =>
    simp only [dreCtxSel, hnone]
    exact ⟨(rd_wr_apart (by decide) ..).trans (Laws.rd_wr_same ..), Laws.rd_wr_same ..⟩
  case ctx =>
    simp only [dreCtxSel, hk]
    exact ⟨(Laws.rd_wr_same ..).trans (Nat.mod_eq_of_lt (by omega)), rfl⟩

end Sys2Proof.Proofs
end

section
/-! Doorbells and mappings: the work of one function's rings leaves every other function (R369, R385–R387, R402, R413). -/

namespace Sys2Proof.Proofs

open Sys2Proof.Machine

/-! ### The work of one function -/

/-- `t` is `c` but for what the rings of function `f` may change: `f`'s own channel, instance and transfers, and no packet, rule, table
or association. -/
structure OwnRing (f : Nat) (c t : Chip) : Prop where
  chan : ∀ g, g ≠ f → t.chan g = c.chan g
  inst : ∀ g, g ≠ f → t.inst g = c.inst g
  dp : t.dp = c.dp
  cp : t.cp = c.cp
  rl : t.rl = c.rl
  tb : t.tb = c.tb
  xfers : ∀ d, ((t.dma d).xfers.filter fun x => x.2.fn != f) = (c.dma d).xfers.filter fun x => x.2.fn != f

section
variable {f : Nat}

theorem OwnRing.refl (c : Chip) : OwnRing f c c := ⟨fun _ _ => rfl, fun _ _ => rfl, rfl, rfl, rfl, rfl, fun _ => rfl⟩

theorem OwnRing.trans {a b c : Chip} (h : OwnRing f a b) (k : OwnRing f b c) : OwnRing f a c :=
  ⟨fun g hg => (k.chan g hg).trans (h.chan g hg), fun g hg => (k.inst g hg).trans (h.inst g hg), k.dp.trans h.dp, k.cp.trans h.cp,
    k.rl.trans h.rl, k.tb.trans h.tb, fun d => (k.xfers d).trans (h.xfers d)⟩

theorem OwnRing.foldl {α : Type} {g : Chip → α → Chip} (h : ∀ c x, OwnRing f c (g c x)) (l : List α) (c : Chip) :
    OwnRing f c (l.foldl g c) :=
  List.foldlRecOn (motive := fun q => OwnRing f c q) _ _ (.refl c) fun q hq x _ => hq.trans (h q x)

/-- Whatever leaves channels, instances, engines, packets, rules, tables and associations. -/
theorem ownRing_of_parts {c t : Chip} (hfns : (t.chans, t.insts, t.dmas) = (c.chans, c.insts, c.dmas))
    (hdata : (t.dp, t.cp) = (c.dp, c.cp)) (htables : (t.rl, t.tb) = (c.rl, c.tb)) : OwnRing f c t := by
  simp only [Prod.mk.injEq] at hfns hdata htables
  obtain ⟨hchans, hinsts, hdmas⟩ := hfns
  exact ⟨fun g _ => congrArg (tget Chan.none · g) hchans, fun g _ => congrArg (tget Inst.none · g) hinsts, hdata.1, hdata.2, htables.1,
    htables.2, fun d => congrArg (fun m : Tab DieDma => (tget DieDma.none m d).xfers.filter fun x => x.2.fn != f) hdmas⟩

theorem ownRing_of_reports {c t : Chip} (h : c.ReportsOf t) : OwnRing f c t := by
  obtain ⟨regs, fns, faults, out, rfl, -, -⟩ := h
  exact ownRing_of_parts rfl rfl rfl

theorem setChan_own (c : Chip) (x : Chan) : OwnRing f c (c.setChan f x) :=
  ⟨fun _ hg => tget_tput_ne _ _ _ hg, fun _ _ => rfl, rfl, rfl, rfl, rfl, fun _ => rfl⟩

theorem setInst_own (c : Chip) (x : Inst) : OwnRing f c (c.setInst f x) :=
  ⟨fun _ _ => rfl, fun _ hg => tget_tput_ne _ _ _ hg, rfl, rfl, rfl, rfl, fun _ => rfl⟩

theorem setDma_own (c : Chip) (d : Nat) {x : DieDma} (h : (x.xfers.filter fun x => x.2.fn != f) = (c.dma d).xfers.filter fun x => x.2.fn != f) :
    OwnRing f c (c.setDma d x) := by
  refine ⟨fun _ _ => rfl, fun _ _ => rfl, rfl, rfl, rfl, rfl, fun e => ?_⟩
  by_cases hed : e = d
  · subst hed
    rw [← h]
    exact congrArg (fun m : DieDma => m.xfers.filter fun x => x.2.fn != f) (tget_tput_same ..)
  · exact congrArg (fun m : DieDma => m.xfers.filter fun x => x.2.fn != f) (tget_tput_ne _ _ _ hed)

theorem count_own (c : Chip) (d : Nat) (a : RegAddr) (n : Nat) : OwnRing f c (c.count d a n) := ownRing_of_reports (c.count_reports ..)

theorem raise_own (c : Chip) (cls d : Nat) (e : Ev) : OwnRing f c (c.raise cls d e) := ownRing_of_reports (c.raise_reports ..)

theorem emit_own (c : Chip) (o : Out) : OwnRing f c (c.emit o) := ownRing_of_reports (c.emit_reports ..)

theorem msix_own (c : Chip) (k v : Nat) : OwnRing f c (c.msix k v) := by
  unfold Chip.msix Chip.msixSend
  dsimp only
  split
  · exact ownRing_of_parts rfl rfl rfl
  · split
    · exact .refl c
    · exact ownRing_of_parts rfl rfl rfl

theorem signal_own (c : Chip) (g v : Nat) : OwnRing f c (c.signal g v) := by
  unfold Chip.signal
  split
  · exact msix_own ..
  · exact .refl c

theorem unsupported_own (c : Chip) (k off : Nat) : OwnRing f c (c.unsupported k off) := by
  obtain ⟨fns, out, hlog, -⟩ := c.aerLog_logs (pfOfKey k) 20 "Unsupported Request" [0, 0, off % 2 ^ 32, 0] false
  unfold Chip.unsupported
  rw [hlog]
  exact ownRing_of_parts rfl rfl rfl

theorem draw_own (c : Chip) : OwnRing f c c.draw := ownRing_of_parts rfl rfl rfl

/-! ### Halts and messages -/

/-- A channel whose rings halt with a code, those that `ds` and `cq` name. -/
def haltChan (h : Chan) (code : Nat) (ds cq : Bool) : Chan :=
  { (if ds then h.discard [] else h) with
    dsHalt := if ds then code else h.dsHalt, cqHalt := if cq then code else h.cqHalt, shadowDirty := true }

/-- A halt of a tenant's ring that runs: the channel halts, the halt is counted, reported where its code is, and signalled. -/
theorem haltRings_eq (hf : f ≠ stewardFn) (c : Chip) (code : Nat) (ds cq : Bool) (ring index : Nat) :
    c.haltRings f code ds cq ring index =
      (let ds := ds && (c.chan f).dsHalt == 0
       let cq := cq && (c.chan f).cqHalt == 0
       let q := (c.setChan f (haltChan (c.chan f) code ds cq)).count (c.fnDie f) (R.chnHaltCnt code)
       let q := if [0x02, 0x03, 0x05, 0x06, 0x07].contains code then
           q.raise Cls.chnHalt (c.fnDie f) { block := 14, unit := fnUnit f, cause := code, addr := 12 * ring, value := index }
         else q
       if !ds && !cq then c else if code = Halt.notStarted ∨ code = Halt.reset then q else q.signal f 0) := by
  have hstw (x : Bool) : (x && f == stewardFn) = false := by simp [hf]
  unfold Chip.haltRings
  simp only [hstw, Bool.false_eq_true, if_false]
  rfl

theorem haltRings_own (hf : f ≠ stewardFn) (c : Chip) (code : Nat) (ds cq : Bool) (ring index : Nat) :
    OwnRing f c (c.haltRings f code ds cq ring index) := by
  rw [haltRings_eq hf]
  dsimp only
  have hcount (h : Chan) : OwnRing f c ((c.setChan f h).count (c.fnDie f) (R.chnHaltCnt code)) := (setChan_own c h).trans (count_own ..)
  split
  · exact .refl c
  · split <;> split
    · exact (hcount _).trans (raise_own ..)
    · exact hcount _
    · exact ((hcount _).trans (raise_own ..)).trans (signal_own ..)
    · exact (hcount _).trans (signal_own ..)

theorem modSend_own (c : Chip) : OwnRing f c (c.modSend f) := (setChan_own ..).trans (signal_own ..)

theorem modCheck_own (c : Chip) : OwnRing f c (c.modCheck f) := by
  unfold Chip.modCheck
  dsimp only
  split
  · exact modSend_own c
  · exact .refl c

theorem modRecord_own (c : Chip) : OwnRing f c (c.modRecord f) := (setChan_own ..).trans (modCheck_own ..)

/-! ### Translations and records -/

theorem cacheXlate_own (c : Chip) (d i page size : Nat) (mapped : Bool) : OwnRing f c (c.cacheXlate d i page size mapped) := by
  unfold Chip.cacheXlate
  dsimp only
  split
  · exact count_own ..
  · split
    · exact count_own ..
    · split
      · exact (count_own ..).trans (setDma_own _ _ (by unfold Chip.count; split <;> rfl))
      · exact ((count_own ..).trans (draw_own _)).trans (setDma_own _ _ (by unfold Chip.count Chip.draw; split <;> rfl))

theorem translate_own (c : Chip) (iova : Nat) (write : Bool) : OwnRing f c (c.translate f iova write).2 := by
  unfold Chip.translate
  dsimp only
  split
  · exact .refl c
  · have hlook (leaf : Option (Nat × Leaf)) : OwnRing f c (match leaf with
        | some (p, l) => c.cacheXlate (f / 512) f p l.size true
        | none => c.cacheXlate (f / 512) f (iova % 2 ^ 48 / 4096 * 4096) 0 false) := by
      split <;> exact cacheXlate_own ..
    split
    · split
      · exact (hlook _).trans (setInst_own ..)
      · exact hlook _
    · exact ((hlook _).trans (count_own ..)).trans (raise_own ..)

theorem writeRec_own (hf : f ≠ stewardFn) (c : Chip) (r : Bytes) : OwnRing f c (c.writeRec f r) := by
  have htr := translate_own (f := f) c ((c.chan f).cqBase + 32 * ((c.chan f).cqP % 2 ^ (c.chan f).cqK)) true
  unfold Chip.writeRec
  dsimp only
  generalize c.translate f ((c.chan f).cqBase + 32 * ((c.chan f).cqP % 2 ^ (c.chan f).cqK)) true = x at htr
  obtain ⟨a | a, q⟩ := x
  · exact (htr.trans (count_own ..)).trans (haltRings_own hf ..)
  · have hput (o : Out) (h : Chan) (d : Nat) : OwnRing f c (((q.emit o).setChan f h).count d (R.dmaEvtCnt 0)) :=
      ((htr.trans (emit_own ..)).trans (setChan_own ..)).trans (count_own ..)
    dsimp only
    split
    · exact (hput ..).trans (modRecord_own _)
    · exact hput ..

theorem placeRec_own (hf : f ≠ stewardFn) (c : Chip) (r : Bytes) : OwnRing f c (c.placeRec f r) := by
  unfold Chip.placeRec
  dsimp only
  split
  · exact (count_own ..).trans (setInst_own ..)
  · split
    · exact setChan_own ..
    · split
      · exact writeRec_own hf c r
      · have hput (h : Chan) : OwnRing f c ((c.count (c.fnDie f) (R.dmaEvtCnt 1)).setChan f h) := (count_own ..).trans (setChan_own ..)
        split
        · exact ((hput _).trans (count_own ..)).trans (raise_own ..)
        · exact hput _

theorem drainStash_own (hf : f ≠ stewardFn) (n : Nat) (c : Chip) : OwnRing f c (Chip.drainStash f n c) := by
  induction n generalizing c with
  | zero => exact .refl c
  | succ n ih =>
    unfold Chip.drainStash
    dsimp only
    split
    · exact (setChan_own ..).trans (.foldl (fun q r => placeRec_own hf q r) _ _)
    · split
      · exact ((setChan_own ..).trans (writeRec_own hf ..)).trans (ih _)
      · exact .refl c

theorem flushStarted_own (hf : f ≠ stewardFn) (n : Nat) (c : Chip) : OwnRing f c (Chip.flushStarted f n c) := by
  induction n generalizing c with
  | zero => exact .refl c
  | succ n ih =>
    unfold Chip.flushStarted
    dsimp only
    split
    · exact .refl c
    · split
      · exact .refl c
      · have hstamps (x : Chan) (l : List Bytes) : OwnRing f c (l.foldl (fun q r => q.placeRec f r) (c.setChan f x)) :=
          (setChan_own ..).trans (.foldl (fun q r => placeRec_own hf q r) _ _)
        split
        · exact hstamps ..
        · split
          · exact hstamps ..
          · exact ((hstamps ..).trans ((setChan_own ..).trans (.foldl (fun q r => placeRec_own hf q r) _ _))).trans (ih _)

theorem drain_own (hf : f ≠ stewardFn) (c : Chip) : OwnRing f c (c.drain f) := (drainStash_own hf ..).trans (flushStarted_own hf ..)

theorem endEntry_own (hf : f ≠ stewardFn) (c : Chip) (seq : Nat) (recs : List Bytes) : OwnRing f c (c.endEntry f seq recs) :=
  (setChan_own ..).trans (flushStarted_own hf ..)

theorem stopUnrun_own (hf : f ≠ stewardFn) (c : Chip) (status : Nat) (all signal : Bool) : OwnRing f c (c.stopUnrun f status all signal) :=
  .foldl (fun _ _ => (setChan_own ..).trans (endEntry_own hf ..)) _ _

/-! ### Doorbells -/

/-- An abort leaves which function a transfer is for. -/
theorem abort_fn (x : Xfer) : x.abort.fn = x.fn := by
  unfold Xfer.abort Xfer.stop
  split
  · split_ifs <;> rfl
  · split_ifs <;> rfl
  · split_ifs <;> rfl
  · rfl

theorem abortXfers_others (l : List (Nat × Xfer)) :
    ((l.map fun e => (e.1, if e.2.fn == f then e.2.abort else e.2)).filter fun x => x.2.fn != f) = l.filter fun x => x.2.fn != f := by
  induction l with
  | nil => rfl
  | cons e l ih =>
    rw [List.map_cons, List.filter_cons, List.filter_cons, ih]
    by_cases h : e.2.fn = f
    · simp [h, abort_fn]
    · simp [h]

section
variable (hf : f ≠ stewardFn) (v : Reg32) (c : Chip)
include hf

theorem chnDsProd_own : OwnRing f c (chnDsProd f v c) := by
  unfold chnDsProd
  dsimp only
  split
  · exact .refl c
  · split
    · exact haltRings_own hf ..
    · exact setChan_own ..

theorem chnCqCons_own : OwnRing f c (chnCqCons f v c) := by
  unfold chnCqCons
  dsimp only
  split
  · exact .refl c
  · split
    · exact haltRings_own hf ..
    · exact (setChan_own ..).trans (drain_own hf _)

theorem restartRing_own (ds : Bool) (n : Nat) : OwnRing f c (restartRing f ds n c) := by
  have hstw : (f == stewardFn) = false := by simpa using hf
  have hset (x : Chan) : OwnRing f c ((c.setChan f x).setInst f { (c.setChan f x).inst f with fresh := false }) :=
    (setChan_own ..).trans (setInst_own ..)
  unfold restartRing
  cases ds
  · simp only [hstw, if_neg hf, Bool.false_and, Bool.false_eq_true, if_false]
    split
    · exact .refl c
    · exact (hset _).trans (drain_own hf _)
  · simp only [hstw, if_neg hf, Bool.false_and, Bool.false_eq_true, if_false, if_true]
    split
    · exact .refl c
    · exact hset _

omit hf in
theorem chnInvalidate_own : OwnRing f c (chnInvalidate f v c) := by
  unfold chnInvalidate
  dsimp only
  split
  · exact setChan_own ..
  · exact .refl c

theorem chnAbort_own : OwnRing f c (chnAbort f v c) := by
  unfold chnAbort
  dsimp only
  split
  · exact .refl c
  · exact (setDma_own _ _ (abortXfers_others _)).trans (stopUnrun_own hf ..)

omit hf in
theorem dmaModArm_own : OwnRing f c (dmaModArm f v c) := by
  unfold dmaModArm
  dsimp only
  split
  · split
    · exact (setChan_own ..).trans (modSend_own _)
    · exact setChan_own ..
  · exact .refl c

omit hf in
theorem doorbell_own {g : Chip → Chip} (hg : OwnRing f c (g c)) (off : Nat) : OwnRing f c (doorbell f off g c) := by
  unfold doorbell
  split
  · exact unsupported_own ..
  · exact hg

end

end

/-! ### Mappings -/

/-- The oldest entry that names an instance at work runs. -/
theorem instEntry_runs {c : Chip} {typ i : Nat} {e : Started} {g : Started → Nat → Chip → Chip} (hrun : c.toRun stewardFn typ e)
    (hi : leAt e.bytes 8 2 = i) (hdie : i < 512 * c.dies) (hst : (c.inst i).st = .active) :
    instEntry typ g c = g e i (c.markRun stewardFn e.seq) := by
  obtain ⟨halive, hnext⟩ := hrun
  have hmark : (c.markRun stewardFn e.seq).inst i = c.inst i := rfl
  simp only [instEntry, runEntry, halive, if_true, hnext, hi, hmark, hst]
  exact if_neg (by show ¬ 512 * c.dies ≤ i; omega)

/-- A new table comes into force on the instance named, and nowhere else. -/
theorem remap_insts (c : Chip) (i : Nat) (l : Tab Leaf) (m : MapArgs) :
    (c.remap i l m).inst i = { c.inst i with leaves := l } ∧ ∀ j, j ≠ i → (c.remap i l m).inst j = c.inst j :=
  ⟨tget_tput_same .., fun _ hj => tget_tput_ne _ _ _ hj⟩

theorem mapClear_runs {c : Chip} {i : Nat} {e : Started} (hrun : c.toRun stewardFn 0x54 e) (hi : leAt e.bytes 8 2 = i)
    (hdie : i < 512 * c.dies) (hst : (c.inst i).st = .active) (hok : mapFails (c.inst i).leaves (mapArgs e.bytes) false = none) :
    mapClear c = (c.markRun stewardFn e.seq).remap i (replaceRange (c.inst i).leaves [] (mapArgs e.bytes).first (mapArgs e.bytes).stop)
      (mapArgs e.bytes) := by
  have hmark : (c.markRun stewardFn e.seq).inst i = c.inst i := rfl
  rw [mapClear, instEntry_runs hrun hi hdie hst]
  simp only [hmark, hok]

theorem mapSet_runs {c : Chip} {i : Nat} {e : Started} {new : Tab Leaf} (hrun : c.toRun stewardFn 0x53 e) (hi : leAt e.bytes 8 2 = i)
    (hdie : i < 512 * c.dies) (hst : (c.inst i).st = .active) (hok : mapFails (c.inst i).leaves (mapArgs e.bytes) true = none)
    (hnew : new = replaceRange (c.inst i).leaves (rangeLeaves (mapArgs e.bytes).size (mapArgs e.bytes).first (mapArgs e.bytes).count
        (mapArgs e.bytes).bus (bitN (byteAt e.bytes 11) 0) (bitN (byteAt e.bytes 11) 1)) (mapArgs e.bytes).first (mapArgs e.bytes).stop)
    (hroom : tablePages new ≤ (c.inst i).quota) : mapSet c = (c.markRun stewardFn e.seq).remap i new (mapArgs e.bytes) := by
  have hmark : (c.markRun stewardFn e.seq).inst i = c.inst i := rfl
  rw [mapSet, instEntry_runs hrun hi hdie hst]
  simp only [hmark, hok, ← hnew]
  exact if_neg (by omega)

/-- Settles O30. -/
theorem instancesApart : Obligations.InstancesApart := by
  unfold Obligations.InstancesApart
  intro s f g v hg hf
  refine ⟨fun i hi => ?bells, fun e i hrun hi hdie hst hok => ?clear, fun e i new hrun hi hdie hst hok hnew hroom => ?set⟩
  case bells =>
    have hgo {h : Chip → Chip} {off : Nat} (hi : exec i s = .next (s.onChip (doorbell f off h))) (hown : OwnRing f s.chip (h s.chip)) :
        Gives i s fun t => t.chip.chan g = s.chip.chan g ∧ t.chip.inst g = s.chip.inst g ∧ t.chip.dp = s.chip.dp ∧ t.chip.cp = s.chip.cp ∧
          t.chip.rl = s.chip.rl ∧ t.chip.tb = s.chip.tb ∧
          ∀ d, ((t.chip.dma d).xfers.filter fun x => x.2.fn != f) = (s.chip.dma d).xfers.filter fun x => x.2.fn != f := by
      have h := doorbell_own s.chip hown off
      exact gives_onChip hi ⟨h.chan g hg, h.inst g hg, h.dp, h.cp, h.rl, h.tb, h.xfers⟩
    simp only [List.mem_cons, List.not_mem_nil, or_false] at hi
    obtain rfl | rfl | rfl | rfl | rfl | rfl | rfl := hi
    · exact hgo rfl (chnDsProd_own hf v s.chip)
    · exact hgo rfl (chnCqCons_own hf v s.chip)
    · exact hgo rfl (restartRing_own hf s.chip true v.toNat)
    · exact hgo rfl (restartRing_own hf s.chip false v.toNat)
    · exact hgo rfl (chnInvalidate_own v s.chip)
    · exact hgo rfl (chnAbort_own hf v s.chip)
    · exact hgo rfl (dmaModArm_own v s.chip)
  case clear =>
    refine gives_onChip (f := mapClear) rfl ?_
    rw [State.onChip_chip, mapClear_runs hrun hi hdie hst hok]
    exact remap_insts ..
  case set =>
    refine gives_onChip (f := mapSet) rfl ?_
    rw [State.onChip_chip, mapSet_runs hrun hi hdie hst hok hnew hroom]
    exact remap_insts ..

/-! ### Doorbells of a lapped, resetting or running channel -/

/-- What reports and messages leave: the channels. -/
theorem signal_chan (c : Chip) (f v g : Nat) : (c.signal f v).chan g = c.chan g := by
  have h := signal_own (f := g + 1) c f v
  exact h.chan g (by omega)

theorem raise_chan (c : Chip) (cls d : Nat) (e : Ev) (g : Nat) : (c.raise cls d e).chan g = c.chan g :=
  (raise_own (f := g + 1) c cls d e).chan g (by omega)

theorem count_chan (c : Chip) (d : Nat) (a : RegAddr) (n g : Nat) : (c.count d a n).chan g = c.chan g :=
  (count_own (f := g + 1) c d a n).chan g (by omega)

theorem chan_setChan (c : Chip) (f : Nat) (h : Chan) : (c.setChan f h).chan f = h := tget_tput_same ..

/-- A halt of both rings of a tenant's channel, both running. -/
theorem haltRings_chan {f : Nat} (hf : f ≠ stewardFn) {c : Chip} (hds : (c.chan f).dsHalt = 0) (hcq : (c.chan f).cqHalt = 0)
    (code ring index : Nat) : (c.haltRings f code true true ring index).chan f = haltChan (c.chan f) code true true := by
  rw [haltRings_eq hf]
  simp only [hds, hcq, BEq.rfl, Bool.and_self, Bool.not_true, Bool.false_eq_true, if_false]
  split <;> split <;> simp only [signal_chan, raise_chan, count_chan, chan_setChan]

theorem bellRefused_of_bellOk {c : Chip} {f : Nat} (h : c.bellOk f = true) : c.bellRefused f = none := by
  have hpage : c.pageOk f = true := by
    simp only [Chip.bellOk, Bool.and_eq_true] at h
    exact h.1.1
  simp only [Chip.bellRefused, hpage, if_true]

/-- While an instance is Resetting its doorbells are not applied. -/
theorem bellOk_resetting {c : Chip} {f : Nat} (hf : f ≠ stewardFn) (h : (c.inst f).st = .resetting) : c.bellOk f = false := by
  simp [Chip.bellOk, hf, h]

theorem doorbell_taken {c : Chip} {f off : Nat} {g : Chip → Chip} (h : c.bellRefused f = none) : doorbell f off g c = g c := by
  simp only [doorbell, h]

theorem doorbell_refused {c : Chip} {f off k : Nat} {g : Chip → Chip} (h : c.bellRefused f = some k) :
    doorbell f off g c = c.unsupported k off := by
  simp only [doorbell, h]

/-- Doorbells that are not applied change nothing. -/
theorem bells_ignored {c : Chip} {f : Nat} (h : c.bellOk f = false) (v : Reg32) : chnDsProd f v c = c ∧ chnCqCons f v c = c ∧
    chnDsRestart f v c = c ∧ chnCqRestart f v c = c ∧ chnInvalidate f v c = c ∧ chnAbort f v c = c ∧ dmaModArm f v c = c := by
  refine ⟨?_, ?_, ?_, ?_, ?_, ?_, ?_⟩
  · simp [chnDsProd, h]
  · simp [chnCqCons, h]
  · simp [chnDsRestart, restartRing, h]
  · simp [chnCqRestart, restartRing, h]
  · simp [chnInvalidate, h]
  · simp [chnAbort, h]
  · simp [dmaModArm, h]

/-- A command that leaves the part leaves the state. -/
theorem next_onChip_self {s : State} {f : Chip → Chip} (h : f s.chip = s.chip) : (Host.Outcome.next (s.onChip f) : Outcome) = .next s :=
  congrArg (fun c => Host.Outcome.next { s with chip := c }) h

/-- Settles O22. -/
theorem doorbellRules : Obligations.DoorbellRules := by
  unfold Obligations.DoorbellRules
  intro s f v hf
  refine ⟨fun hok hds hcq hlap => ?prod, fun hok hds hcq hlap => ?cons, fun hpage hst x hx => ?resetting, fun k hk x hx => ?refused,
    fun hpage hds => ?dsRestart, fun hpage hcq => ?cqRestart⟩
  case prod =>
    have hhalt : chnDsProd f v s.chip = s.chip.haltRings f Halt.lap true true 0 v.toNat := by
      unfold chnDsProd
      dsimp only
      rw [if_neg (by simp [hok, hds]), if_pos hlap]
    refine gives_onChip (f := doorbell f 0x00 (chnDsProd f v)) rfl ?_
    rw [State.onChip_chip, doorbell_taken (bellRefused_of_bellOk hok), hhalt, haltRings_chan hf hds hcq]
    exact ⟨rfl, rfl, rfl, rfl, rfl⟩
  case cons =>
    have hhalt : chnCqCons f v s.chip = s.chip.haltRings f Halt.lap true true 1 v.toNat := by
      unfold chnCqCons
      dsimp only
      rw [if_neg (by simp [hok, hcq]), if_pos hlap]
    refine gives_onChip (f := doorbell f 0x0C (chnCqCons f v)) rfl ?_
    rw [State.onChip_chip, doorbell_taken (bellRefused_of_bellOk hok), hhalt, haltRings_chan hf hds hcq]
    exact ⟨rfl, rfl, rfl, rfl⟩
  case resetting =>
    obtain ⟨hprod, hcons, hdsr, hcqr, hinv, habort, harm⟩ := bells_ignored (bellOk_resetting hf hst) v
    simp only [List.mem_cons, List.not_mem_nil, or_false] at hx
    obtain rfl | rfl | rfl | rfl | rfl | rfl | rfl := hx
    · exact next_onChip_self ((doorbell_taken hpage).trans hprod)
    · exact next_onChip_self ((doorbell_taken hpage).trans hcons)
    · exact next_onChip_self ((doorbell_taken hpage).trans hdsr)
    · exact next_onChip_self ((doorbell_taken hpage).trans hcqr)
    · exact next_onChip_self ((doorbell_taken hpage).trans hinv)
    · exact next_onChip_self ((doorbell_taken hpage).trans habort)
    · exact next_onChip_self ((doorbell_taken hpage).trans harm)
  case refused =>
    simp only [List.mem_cons, List.not_mem_nil, or_false] at hx
    obtain rfl | rfl | rfl | rfl | rfl | rfl | rfl := hx <;> exact next_onChip (doorbell_refused hk)
  case dsRestart => exact next_onChip_self ((doorbell_taken hpage).trans (by simp [chnDsRestart, restartRing, hds]))
  case cqRestart => exact next_onChip_self ((doorbell_taken hpage).trans (by simp [chnCqRestart, restartRing, hcq]))

end Sys2Proof.Proofs
end

section
/-! PROOF. Settles O27, O28, O29: a learn notice, engine state, and the packet a context holds (spec/06 Learning, spec/10 Ports). -/

namespace Sys2Proof.Proofs
open Sys2Proof.Machine

/-! ### Operations of a context -/

/-- An operation that waits on a port runs. -/
theorem withOp_waits {c : Chip} {d e x code : Nat} {port : EnginePort} {k : Ctx} {o : PortOp} (g : Ctx → PortOp → Chip → Chip)
    (h : c.waitsOp d e x port code k o) : withOp port code d e x g c = g k o c := by
  obtain ⟨hal, hk, ho, hc, hr, hs⟩ := h
  simp [withOp, hal, hk, ho, hc, hr, hs]

/-- An observation that neither an operation's own effect nor the state it starts from changes is kept by the row. -/
theorem withOp_keeps {β : Sort*} (f : Chip → β) {c : Chip} {d e x code : Nat} {port : EnginePort} {g : Ctx → PortOp → Chip → Chip}
    (h : ∀ k o, f (g k o c) = f c) : f (withOp port code d e x g c) = f c := by
  unfold withOp
  split
  · rfl
  · split
    · rfl
    · split
      · exact h _ _
      · rfl

@[simp] theorem setCtx_estate (c : Chip) (d e x : Nat) (k : Option Ctx) : (c.setCtx d e x k).dre.estate = c.dre.estate := rfl

@[simp] theorem opDone_estate (c : Chip) (d e x : Nat) (port : EnginePort) (st : Nat) (w : List (Nat × Nat)) :
    (c.opDone d e x port st w).dre.estate = c.dre.estate := by
  unfold Chip.opDone
  split <;> rfl

@[simp] theorem opDone_dp (c : Chip) (d e x : Nat) (port : EnginePort) (st : Nat) (w : List (Nat × Nat)) :
    (c.opDone d e x port st w).dp = c.dp := by
  unfold Chip.opDone
  split <;> rfl

/-- The check of an ordinary read keeps what no report touches. -/
theorem readCheck_frame {β : Type} (c : Chip) (die : Nat) (hbm : Bool) (found : ScrubOutcome) (e : Ev) (f : Chip → β)
    (hf : ∀ (c : Chip) regs fns faults out, f { c with regs := regs, fns := fns, faults := faults, out := out } = f c) :
    f (c.readCheck die hbm found e) = f c := by
  cases found with
  | clean => rfl
  | corrected n => exact raise_frame _ _ _ _ f fun _ _ _ _ => hf _ _ _ _ _
  | uncorrectable => exact raise_frame _ _ _ _ f fun _ _ _ _ => hf _ _ _ _ _

@[simp] theorem readCheck_dre (c : Chip) (die : Nat) (hbm : Bool) (found : ScrubOutcome) (e : Ev) :
    (c.readCheck die hbm found e).dre = c.dre :=
  readCheck_frame c die hbm found e Chip.dre fun _ _ _ _ _ => rfl

/-! ### Engine state -/

theorem leNat_cons (b : Byte) (l : Bytes) : leNat (b :: l) = b.toNat + 256 * leNat l := rfl

/-- The little-endian bytes of a number give it back, modulo their width. -/
theorem leNat_toLE (n v : Nat) : leNat (toLE n v) = v % 256 ^ n := by
  induction n generalizing v with
  | zero => simp [toLE, leNat, Nat.mod_one]
  | succ n ih =>
    have htail : toLE (n + 1) v = BitVec.ofNat 8 v :: toLE n (v / 256) := by
      simp [toLE, List.range_succ_eq_map, Nat.pow_succ', Nat.div_div_eq_div_mul]
    rw [htail, leNat_cons, ih, BitVec.toNat_ofNat, Nat.pow_succ' (n := n), Nat.mod_mul]

@[simp] theorem toLE_length (n v : Nat) : (toLE n v).length = n := by simp [toLE]

theorem treadN_length {α : Type} (d : α) (t : Tab α) (a n : Nat) : (treadN d t a n).length = n := by
  induction n generalizing a with
  | zero => rfl
  | succ n ih => simp [treadN, ih]

theorem treadN_getElem {α : Type} (d : α) (t : Tab α) (a n i : Nat) (h : i < (treadN d t a n).length) :
    (treadN d t a n)[i] = tget d t (a + i) := by
  induction n generalizing a i with
  | zero => simp [treadN] at h
  | succ n ih =>
    cases i with
    | zero => rfl
    | succ i => simp [treadN, ih, Nat.add_assoc, Nat.add_comm 1]

/-- A block read returns the block written at its place. -/
theorem treadN_twriteN {α : Type} [DecidableEq α] (d : α) (t : Tab α) (a : Nat) (vs : List α) :
    treadN d (twriteN d t a vs) a vs.length = vs := by
  refine List.ext_getElem (treadN_length _ _ _ _) fun i _ h => ?_
  rw [treadN_getElem, tget_twriteN, dif_pos ⟨by omega, by omega⟩]
  simp

/-- A state write is read back at its offset. -/
theorem stateRead_of_estate {c t : Chip} {d a n : Nat} {b : Bytes} (h : t.dre.estate = (c.stateWrite d a b).dre.estate)
    (hn : b.length = n) : t.stateRead d a n = b := by
  subst hn
  rw [Chip.stateRead, h]
  exact treadN_twriteN _ _ _ _

/-- A state write leaves every byte of every die outside its own. -/
theorem estate_out {c t : Chip} {d a n : Nat} {b : Bytes} (h : t.dre.estate = (c.stateWrite d a b).dre.estate) (hn : b.length = n)
    (j : Nat) (hj : j < d * 2 ^ 33 + a ∨ d * 2 ^ 33 + a + n ≤ j) : tget 0#8 t.dre.estate j = tget 0#8 c.dre.estate j := by
  subst hn
  rw [h]
  exact tget_twriteN_out _ _ _ _ _ hj

/-- An engine-state row that only answers keeps engine state. -/
theorem stateOp_keeps {c : Chip} {code d e x : Nat} {found : ScrubOutcome} {zeros : PortOp → List (Nat × Nat)}
    {g : PortOp → Chip → Chip} (h : found ≠ .uncorrectable → ∀ o c, (g o c).dre.estate = c.dre.estate) :
    (stateOp code d e x found zeros g c).dre.estate = c.dre.estate :=
  withOp_keeps (fun c => c.dre.estate) fun k o => by
    dsimp only
    split
    · rfl
    · split
      · simp
      · next hu => simp [h (by simpa using hu)]

/-- An engine-state row whose operation's turn it is and whose read succeeds runs on the state as it is. -/
theorem stateOp_runs {c : Chip} {code d e x : Nat} {found : ScrubOutcome} {zeros : PortOp → List (Nat × Nat)} {k : Ctx} {o : PortOp}
    (g : PortOp → Chip → Chip) (hw : c.waitsOp d e x .hb code k o) (hl : k.linesDone .hb = true) (hf : found ≠ .uncorrectable) :
    stateOp code d e x found zeros g c = g o (c.readCheck d true found { block := 11, addr := o.a }) := by
  rw [stateOp, withOp_waits _ hw]
  simp [hl, hf]

/-- Settles O28: the row's block write is read back at its place and leaves every other key. -/
theorem engineStateFrame : Obligations.EngineStateFrame := by
  intro s d e x k o
  refine ⟨fun hw hl hlen => ?write, fun found hw hl hf => ?add, ?addError, fun found => ?read⟩
  case write =>
    have hst : (hbStateWrite d e x s.chip).dre.estate = (s.chip.stateWrite d o.a o.data).dre.estate := by
      rw [hbStateWrite, stateOp_runs _ hw hl (by simp)]
      simp [Chip.readCheck]
    exact gives_onChip rfl ⟨stateRead_of_estate hst hlen, estate_out hst hlen⟩
  case add =>
    have hst : (hbAtomicAdd d e x found s.chip).dre.estate =
        (s.chip.stateWrite d o.a (toLE 8 (leNat (s.chip.stateRead d o.a 8) + leAt o.data 0 8))).dre.estate := by
      rw [hbAtomicAdd, stateOp_runs _ hw hl hf]
      simp [Chip.stateRead, Chip.stateWrite]
    refine gives_onChip rfl ⟨?_, estate_out hst (toLE_length _ _)⟩
    rw [State.onChip_chip, stateRead_of_estate hst (toLE_length _ _), leNat_toLE, show 256 ^ 8 = 2 ^ 64 by norm_num]
  case addError => exact gives_onChip rfl (stateOp_keeps fun h => absurd rfl h)
  case read => exact gives_onChip rfl (stateOp_keeps fun _ o c => opDone_estate _ _ _ _ _ _ _)

/-! ### The packet of a context -/

theorem setBuf_buf (p : Pkt) (b : Bytes) : (p.setBuf b).buf = b := List.take_append_drop _ _

theorem len_eq_buf (p : Pkt) : p.len = p.buf.length := by simp [Pkt.len, Pkt.buf]

theorem setBuf_len (p : Pkt) (b : Bytes) : (p.setBuf b).len = b.length := by rw [len_eq_buf, setBuf_buf]

theorem slice_length (b : Bytes) (i n : Nat) : (slice b i n).length = n := by simp [slice]

theorem splice_length (b : Bytes) (i : Nat) (x : Bytes) : (splice b i x).length = i + x.length + (b.length - (i + x.length)) := by
  simp [splice, slice_length, Nat.add_assoc]

/-- A byte of a string into which another was spliced at or before its end. -/
theorem splice_getD (b x : Bytes) (i j : Nat) (hi : i ≤ b.length) :
    (splice b i x).getD j 0 = if i ≤ j ∧ j < i + x.length then x.getD (j - i) 0 else b.getD j 0 := by
  have hs : slice b 0 i = b.take i := by simp [slice, hi]
  simp only [splice, hs, List.getD_eq_getElem?_getD, List.getElem?_append, List.length_append, List.length_take,
    List.getElem?_take, List.getElem?_drop, Nat.min_eq_left hi]
  by_cases h1 : j < i
  · simp [h1, show j < i + x.length by omega, show ¬ i ≤ j by omega]
  · by_cases h2 : j < i + x.length
    · simp [h1, h2, show i ≤ j by omega]
    · have hj : i + x.length + (j - (i + x.length)) = j := by omega
      simp [h2, hj]

@[simp] theorem write_id (p : Pkt) (off : Nat) (b : Bytes) : (p.write off b).id = p.id := by
  unfold Pkt.write
  split <;> rfl

/-- A packet as a write leaves it: its bytes within its length are those spliced in. -/
theorem write_buf (p : Pkt) (off : Nat) (b : Bytes) (h : off < p.len) : (p.write off b).buf = (splice p.buf off b).take p.len := by
  rw [Pkt.write, if_neg (by omega), setBuf_buf]

@[simp] theorem write_len (p : Pkt) (off : Nat) (b : Bytes) : (p.write off b).len = p.len := by
  by_cases h : off < p.len
  · rw [len_eq_buf, write_buf _ _ _ h, List.length_take, splice_length, ← len_eq_buf]
    omega
  · rw [Pkt.write, if_pos (by omega)]

/-- A byte of a packet after a write. -/
theorem write_byteAt (p : Pkt) (off j : Nat) (b : Bytes) (hj : j < p.len) :
    byteAt (p.write off b).buf j = if off ≤ j ∧ j < off + b.length then byteAt b (j - off) else byteAt p.buf j := by
  by_cases h : off < p.len
  · have ht : ((splice p.buf off b).take p.len).getD j 0 = (splice p.buf off b).getD j 0 := by
      simp [List.getD_eq_getElem?_getD, hj]
    unfold byteAt
    rw [write_buf _ _ _ h, ht, splice_getD _ _ _ _ (by rw [← len_eq_buf]; omega)]
    split <;> rfl
  · rw [Pkt.write, if_pos (by omega), if_neg (by omega)]

/-- A packet that is found is found under its own number. -/
theorem pkt_self {c : Chip} {id : Nat} {p : Pkt} (h : c.pkt id = some p) : c.pkt p.id = some p := by
  have hid : p.id = id := by simpa using List.find?_some h
  rwa [hid]

/-- A packet stored under the number of one that is there is found. -/
theorem pkt_setPkt_same {c : Chip} {p q : Pkt} (hp : c.pkt p.id = some p) (hq : q.id = p.id) : (c.setPkt q).pkt p.id = some q := by
  have hf : ∀ l : List Pkt, l.find? (fun r => r.id == p.id) = some p →
      (l.map fun r => if r.id = q.id then q else r).find? (fun r => r.id == p.id) = some q := by
    intro l
    induction l with
    | nil => simp
    | cons r l ih =>
      intro h
      by_cases hr : r.id = p.id
      · simp [hr, hq]
      · have hr' : (r.id == p.id) = false := by simpa using hr
        rw [List.find?_cons, hr'] at h
        rw [List.map_cons, if_neg (by rw [hq]; exact hr), List.find?_cons, hr']
        exact ih h
  exact hf _ hp

/-- A packet-buffer row whose operation waits runs on the context's packet. -/
theorem packetOp_runs {c : Chip} {code d e x : Nat} {k : Ctx} {o : PortOp} {p : Pkt} (g : PortOp → Pkt → Chip → Chip)
    (hw : c.waitsOp d e x .pb code k o) (hp : k.pkt.bind c.pkt = some p) : packetOp code d e x g c = g o p c := by
  rw [packetOp, withOp_waits _ hw]
  simp [hp]

/-- Settles O29: the row stores the written packet under the number of the old one. -/
theorem packetWriteFrame : Obligations.PacketWriteFrame := by
  intro s d e x k o p hw hp
  have hself : s.chip.pkt p.id = some p := by
    obtain ⟨id, -, hid⟩ := Option.bind_eq_some_iff.mp hp
    exact pkt_self hid
  have hdp : (pbWrite d e x s.chip).dp = (s.chip.setPkt (p.write o.a o.data)).dp := by
    rw [pbWrite, packetOp_runs _ hw hp, opDone_dp]
  refine gives_onChip rfl ?_
  simp only [State.onChip_chip, Chip.pkt, hdp]
  refine ⟨fun q hq hne => ?others, ?count, p.write o.a o.data, pkt_setPkt_same hself (write_id _ _ _), write_len _ _ _,
    fun j hj hout => ?outside, fun j hj hlen => ?inside⟩
  case others => exact List.mem_map.mpr ⟨q, hq, if_neg (by rwa [write_id])⟩
  case count => exact List.length_map _
  case outside => rw [write_byteAt _ _ _ _ hj, if_neg (by omega)]
  case inside => rw [write_byteAt _ _ _ _ hlen, if_pos (by omega), Nat.add_sub_cancel_left]

/-! ### Learn notices -/

/-- The row of a learn notice, once the notice is taken from its queue. -/
theorem learnNotice_taken {c c' : Chip} {d : Nat} {n : Notice} (hal : c.alive = true) (hd : c.hasDie d = true)
    (ht : c.takeNotice .learn d = some (n, c')) :
    learnNotice d c =
      let q := c'.count d (R.tblEvtCnt 8)
      if !q.takesLearn d n.key n.time n.src then q
      else match q.macLearn d n.key n.locInst n.loc n.time with
        | some q => q
        | none => (q.count d (R.tblEvtCnt 2)).notify ⟨.fail, n.src, d, n.key, n.locInst, n.loc, n.time⟩ := by
  unfold learnNotice
  rw [hal, hd, ht]
  rfl

theorem takesLearn_of_learned {c : Chip} {d key t src k : Nat} {e : MacE} (h : c.learned d key = some (k, e)) :
    c.takesLearn d key t src = newer t src e := by
  simp [Chip.takesLearn, h]

theorem macTab_locAdd (c : Chip) (d : Nat) (i : Bool) (l : Nat) (up : Bool) (b : Nat) : (c.locAdd d i l up).macTab b = c.macTab b := by
  unfold Chip.locAdd
  split <;> rfl

theorem macTab_setMacTab_same (c : Chip) (d : Nat) (t : Tab (Option MacE)) : (c.setMacTab d t).macTab d = t :=
  tget_tput_same _ _ _ _

/-- Learning a key that has an entry stores the entry at its new location in its old place. -/
theorem macLearn_learned {c : Chip} {d key loc time k : Nat} {i : Bool} {e : MacE} (h : c.learned d key = some (k, e)) :
    ∃ q, c.macLearn d key i loc time = some q ∧ ∃ e', tget none (q.macTab d) k = some e' ∧
      e'.key = e.key ∧ e'.locInst = i ∧ e'.loc = loc ∧ e'.time = time := by
  unfold Chip.macLearn
  rw [h]
  refine ⟨_, rfl, ?_⟩
  rw [macTab_locAdd, macTab_setMacTab_same, tget_tput_same]
  exact ⟨_, rfl, rfl, rfl, rfl, rfl⟩

/-- Settles O27: an older notice ends at the count, a newer one rewrites the entry in its place. -/
theorem learnNoticeOrder : Obligations.LearnNoticeOrder := by
  intro s d k n c' e hal hd ht hl
  refine ⟨fun h => ?ignored, fun h => ?taken⟩
  case ignored =>
    have hold : newer n.time n.src e = false := by
      simp only [newer, Bool.or_eq_false_iff, Bool.and_eq_false_imp, decide_eq_false_iff_not, beq_iff_eq]
      omega
    refine congrArg (fun c => Host.Outcome.next { s with chip := c }) ?_
    rw [learnNotice_taken hal hd ht]
    simp [takesLearn_of_learned hl, hold]
  case taken =>
    have hnew : newer n.time n.src e = true := by
      simp only [newer, Bool.or_eq_true, Bool.and_eq_true, decide_eq_true_eq, beq_iff_eq]
      omega
    obtain ⟨q, hq, hq'⟩ := macLearn_learned (i := n.locInst) (loc := n.loc) (time := n.time) hl
    refine gives_onChip rfl ?_
    rw [State.onChip_chip, learnNotice_taken hal hd ht]
    simpa [takesLearn_of_learned hl, hnew, hq] using hq'

end Sys2Proof.Proofs
end

section
/-! PROOF. Settles O19 and O21: how a faulty frame ends (spec/08 Receive errors and stomping) and what a drop counts (spec/07 Drop
reasons). -/

namespace Sys2Proof.Proofs
open Sys2Proof.Machine

/-! ### The end of a faulty frame -/

/-- How a received frame `r` proves faulty at its end: its MAC counter `k` and the code of its drop. -/
def FaultyEnd (c : Chip) (lane : Nat) (r : Rx) (fcs reasm : Bool) (unc k reason : Nat) : Prop :=
  (reasm = true ∧ k = 6 ∧ reason = Dr.rxAborted) ∨
  (reasm = false ∧ r.bytes.length + 4 < 64 ∧ k = 2 ∧ reason = Dr.runt) ∨
  (reasm = false ∧ 64 ≤ r.bytes.length + 4 ∧ c.maxFrame lane < r.bytes.length + 4 ∧ k = 3 ∧ reason = Dr.oversize) ∨
  (reasm = false ∧ 64 ≤ r.bytes.length + 4 ∧ r.bytes.length + 4 ≤ c.maxFrame lane ∧ (fcs = false ∨ unc ≠ 0) ∧ k = 4 ∧
    reason = Dr.fcsError)

/-- The part once a frame's end has reported what the line code found and the frame has left the reception. -/
def afterLine (c : Chip) (lane n unc : Nat) (l : List Rx) : Chip := ((c.macCount lane 7 n).macCount lane 8 unc).setRx lane l

theorem afterLine_pkts (c : Chip) (lane n unc : Nat) (l : List Rx) : (afterLine c lane n unc l).dp.pkts = c.dp.pkts := by
  simp [afterLine]

/-- A packet is found by its number among the packets alone. -/
theorem pkt_congr {c t : Chip} (h : t.dp.pkts = c.dp.pkts) : t.pkt = c.pkt := by
  funext id
  unfold Chip.pkt
  rw [h]

@[simp] theorem afterLine_count_tx (c : Chip) (lane n unc k : Nat) (l : List Rx) :
    ((afterLine c lane n unc l).macCount lane k).dp.tx = c.dp.tx := by
  simp [afterLine, Chip.setRx]

@[simp] theorem afterLine_count_clk (c : Chip) (lane n unc k : Nat) (l : List Rx) :
    ((afterLine c lane n unc l).macCount lane k).clk = c.clk := by
  simp [afterLine, Chip.setRx]

@[simp] theorem afterLine_count_regs (c : Chip) (lane n unc k : Nat) (l : List Rx) :
    ((afterLine c lane n unc l).macCount lane k).regs = c.regs := by
  simp [afterLine, Chip.setRx]

theorem afterLine_rd (c : Chip) (lane n unc : Nat) (l : List Rx) (d : Nat) (a : RegAddr) :
    (afterLine c lane n unc l).rd d a = c.rd d a := by
  have hregs : (afterLine c lane n unc l).regs = c.regs := by simp [afterLine, Chip.setRx]
  unfold Chip.rd Chip.rdw
  rw [hregs]

theorem afterLine_gateOpen (c : Chip) (lane n unc : Nat) (l : List Rx) (d b : Nat) :
    (afterLine c lane n unc l).gateOpen d b = c.gateOpen d b := by
  unfold Chip.gateOpen Chip.bit
  rw [afterLine_rd]

theorem afterLine_maxFrame (c : Chip) (lane n unc : Nat) (l : List Rx) : (afterLine c lane n unc l).maxFrame lane = c.maxFrame lane := by
  unfold Chip.maxFrame Chip.fld
  rw [afterLine_rd]

/-- The end of a faulty frame closes it with its counter and code. -/
theorem frameEnd_faulty {c : Chip} {lane n unc k reason : Nat} {fcs reasm : Bool} {r : Rx} {l : List Rx} (hal : c.alive = true)
    (hr : r.ended = false) (hlast : reasm = true → c.rxOf lane = l ++ [r]) (hhead : reasm = false → c.rxOf lane = r :: l)
    (h : FaultyEnd c lane r fcs reasm unc k reason) :
    frameEnd lane fcs reasm n unc c = (afterLine c lane n unc l).closeRx r lane k reason r.bytes.length := by
  have hM : (((c.macCount lane 7 n).macCount lane 8 unc).setRx lane l).maxFrame lane = c.maxFrame lane :=
    afterLine_maxFrame c lane n unc l
  rcases h with ⟨rfl, rfl, rfl⟩ | ⟨rfl, hn, rfl, rfl⟩ | ⟨rfl, hn, hm, rfl, rfl⟩ | ⟨rfl, hn, hm, hf, rfl, rfl⟩
  · simp [frameEnd, hlast rfl, hal, hr, afterLine]
  · unfold frameEnd
    simp only [hhead rfl, hal, hr, Bool.not_true, Bool.false_eq_true, if_false, List.head?_cons, List.tail_cons]
    rw [if_pos hn]
    rfl
  · unfold frameEnd
    simp only [hhead rfl, hal, hr, Bool.not_true, Bool.false_eq_true, if_false, List.head?_cons, List.tail_cons]
    rw [if_neg (by omega), hM, if_pos hm]
    rfl
  · have hbad : (!fcs || unc != 0) = true := by simpa using hf
    unfold frameEnd
    simp only [hhead rfl, hal, hr, Bool.not_true, Bool.false_eq_true, if_false, List.head?_cons, List.tail_cons]
    rw [if_neg (by omega), hM, if_neg (Nat.not_lt.mpr hm), if_pos hbad]
    rfl

/-- Whether a frame's first bit has left is read from the lines and the clock alone. -/
theorem begun_congr {c t : Chip} (hdp : t.dp.tx = c.dp.tx) (hclk : t.clk = c.clk) (p : Pkt) : t.begun p = c.begun p := by
  unfold Chip.begun Chip.txFor Chip.txOf Chip.now
  rw [hdp, hclk]

/-- How much of a frame has left is read from the lines, the clock and the registers alone. -/
theorem sentSoFar_congr {c t : Chip} (hdp : t.dp.tx = c.dp.tx) (hclk : t.clk = c.clk) (hregs : t.regs = c.regs) (p : Pkt) :
    t.sentSoFar p = c.sentSoFar p := by
  have hw : t.portWidth p.dst = c.portWidth p.dst := by
    unfold Chip.portWidth Chip.fld Chip.rd Chip.rdw
    rw [hregs]
  unfold Chip.sentSoFar Chip.txFor Chip.txOf Chip.now
  rw [hdp, hclk, hw]

/-- The close of a frame that has a packet turns on whether its first bit has left. -/
theorem closeRx_packet {c : Chip} {r : Rx} {p : Pkt} (h : r.pkt.bind c.pkt = some p) (lane k reason limit : Nat) :
    c.closeRx r lane k reason limit = (c.macCount lane k).faulty p reason limit := by
  unfold Chip.closeRx
  dsimp only
  rw [show r.pkt.bind (c.macCount lane k).pkt = some p from h]

theorem countDrop_macCtr (c : Chip) (d reason : Nat) (srcInst : Bool) (src : Nat) :
    (c.countDrop d reason srcInst src none).tb.macCtr = c.tb.macCtr := by
  unfold Chip.countDrop
  split
  · rfl
  · simp

theorem countDrop_total {c : Chip} {d : Nat} (h : c.gateOpen d 5 = true) (reason : Nat) (srcInst : Bool) (src : Nat) :
    (c.countDrop d reason srcInst src none).rd d (R.bufDropTotal reason) = satAdd 32 (c.rd d (R.bufDropTotal reason)) 1 := by
  unfold Chip.countDrop
  rw [h]
  exact Laws.rd_count_same c d (R.bufDropTotal reason) 1 h

/-- A frame without a packet, once closed: its MAC counter has counted, and the rest of the port's state stands. -/
theorem closeRx_unpacketed {c : Chip} {r : Rx} (h : r.pkt.bind c.pkt = none) (lane k reason limit : Nat) :
    (c.closeRx r lane k reason limit).dp = c.dp ∧
    (c.closeRx r lane k reason limit).tb.macCtr = (c.macCount lane k).tb.macCtr ∧
    (r.ctl = true → c.gateOpen (lane / 64) 5 = true →
      c.counted (c.closeRx r lane k reason limit) (lane / 64) (R.bufDropTotal reason)) := by
  have hclose : c.closeRx r lane k reason limit =
      if r.ctl then (c.macCount lane k).countDrop (lane / 64) reason false lane none else c.macCount lane k := by
    unfold Chip.closeRx
    dsimp only
    rw [show r.pkt.bind (c.macCount lane k).pkt = none from h]
  rw [hclose]
  cases r.ctl with
  | false => exact ⟨rfl, rfl, nofun⟩
  | true => exact ⟨by simp, countDrop_macCtr _ _ _ _ _, fun _ hg => countDrop_total (c := c.macCount lane k) hg _ _ _⟩

/-- Settles O19: every fault closes the frame with its counter and code; what follows turns on whether the frame has a packet, and
whether its first bit has left. -/
theorem faultyFrames : Obligations.FaultyFrames := by
  intro s lane n fcs reasm unc k reason r l hal hr hlast hhead hfault
  have hend : frameEnd lane fcs reasm n unc s.chip = (afterLine s.chip lane n unc l).closeRx r lane k reason r.bytes.length :=
    frameEnd_faulty hal hr hlast hhead hfault
  have hk : k ≠ 0 ∧ k ≠ 1 ∧ k ≠ 7 ∧ k ≠ 8 := by
    rcases hfault with ⟨-, rfl, -⟩ | ⟨-, -, rfl, -⟩ | ⟨-, -, -, rfl, -⟩ | ⟨-, -, -, -, rfl, -⟩ <;> decide
  obtain ⟨hk0, hk1, hk7, hk8⟩ := hk
  have hfound (p : Pkt) (hp : r.pkt.bind s.chip.pkt = some p) : r.pkt.bind (afterLine s.chip lane n unc l).pkt = some p := by
    rw [pkt_congr (afterLine_pkts ..), hp]
  refine ⟨fun hp => ?unpacketed, fun p hp hb => ?dropped, fun p hp hb => ?stomped⟩
  case unpacketed =>
    obtain ⟨hdp, hctr, hcnt⟩ := closeRx_unpacketed (c := afterLine s.chip lane n unc l)
      (by rw [pkt_congr (afterLine_pkts ..), hp]) lane k reason r.bytes.length
    refine gives_onChip rfl ?_
    rw [State.onChip_chip, hend]
    have hmac : ∀ j, ((afterLine s.chip lane n unc l).closeRx r lane k reason r.bytes.length).mac lane j =
        (((s.chip.macCount lane 7 n).macCount lane 8 unc).macCount lane k).mac lane j := fun j => by
      unfold Chip.mac
      rw [hctr]
      rfl
    refine ⟨?_, ?_, ?_, by rw [hdp, afterLine_pkts], ?_, fun hc hg => ?_⟩
    · rw [hmac, mac_macCount_same, mac_macCount_ne _ _ _ hk8, mac_macCount_ne _ _ _ hk7]
    · rw [hmac, mac_macCount_ne _ _ _ hk0.symm, mac_macCount_ne _ _ _ (by decide), mac_macCount_ne _ _ _ (by decide)]
    · rw [hmac, mac_macCount_ne _ _ _ hk1.symm, mac_macCount_ne _ _ _ (by decide), mac_macCount_ne _ _ _ (by decide)]
    · unfold Chip.rxOf
      rw [hdp]
      exact tget_tput_same _ _ _ _
    · have hcounted := hcnt hc (by rw [afterLine_gateOpen, hg])
      unfold Chip.counted at hcounted ⊢
      rw [hcounted, afterLine_rd]
  case dropped =>
    have hbegun : ((afterLine s.chip lane n unc l).macCount lane k).begun p = false := by
      rw [begun_congr (afterLine_count_tx ..) (afterLine_count_clk ..), hb]
    refine next_onChip ?_
    rw [hend, closeRx_packet (hfound p hp), Chip.faulty, hbegun]
    rfl
  case stomped =>
    have hbegun : ((afterLine s.chip lane n unc l).macCount lane k).begun p = true := by
      rw [begun_congr (afterLine_count_tx ..) (afterLine_count_clk ..), hb]
    have hsent : ((afterLine s.chip lane n unc l).macCount lane k).sentSoFar p = s.chip.sentSoFar p :=
      sentSoFar_congr (afterLine_count_tx ..) (afterLine_count_clk ..) (afterLine_count_regs ..) p
    refine next_onChip ?_
    rw [hend, closeRx_packet (hfound p hp), Chip.faulty, if_pos hbegun, hsent]
    rfl

/-! ### A drop that lets an own frame be dropped -/

/-- The part of `unsecuredOwn` whose port 0 generates PAUSE and has sent XOFF: XON is due, and the own HSP frame waits behind it. -/
def xonBehind : Chip :=
  { unsecuredOwn.chip with dp := { unsecuredOwn.chip.dp with xoff := [8] } }.wr 0 (R.macPortFc 0) 0x10000

/-- A packet of port 0 on die 1. -/
def plainPkt : Pkt := { Pkt.blank with die := 1, id := 7 }

/-- Refutes O21: a drop regenerates the flow control of the packet's port (R236), the XON that leaves lets the port's own HSP frame
come up, and that frame, which cannot be secured, is counted on its own die under another code. -/
theorem not_dropCountedOnce : ¬ Obligations.DropCountedOnce := by
  intro h
  obtain ⟨-, hother, -⟩ := h xonBehind plainPkt Dr.fcsError false rfl rfl (by decide) (by decide) (.inr rfl) (by decide)
  have hcounts : (xonBehind.dropPkt plainPkt Dr.fcsError).rd 0 (R.bufDropTotal 8) ≠ xonBehind.rd 0 (R.bufDropTotal 8) := by
    decide +kernel
  exact hcounts (hother 0 8 (by decide) (by decide) (.inl (by decide)))

end Sys2Proof.Proofs
end

section
/-! PROOF. Settles O33: events of a port (spec/08 Lanes, ports and breakouts, PAUSE and PFC, Frame preemption). -/

namespace Sys2Proof.Proofs
open Sys2Proof.Machine

/-! ### A port's link -/

/-- The status that a port's link writes: link_changed stays. -/
theorem status_lt (w : Nat) (a b c d : Bool) : (w &&& 2) ||| (b2n a + 4 * b2n b + 8 * b2n c + 16 * b2n d) < 2 ^ 32 := by
  refine Nat.or_lt_two_pow ((Nat.and_le_right).trans_lt (by norm_num)) ?_
  have h : ∀ x : Bool, b2n x ≤ 1 := by decide
  have ha := h a
  have hb := h b
  have hc := h c
  have hd := h d
  omega

/-- A link that stays as it was: its status is written and nothing follows. -/
theorem setLink_same {c : Chip} {lane : Nat} {up : Bool} (h : c.bit (lane / 64) (R.macPortStatus (lane % 64)) 0 = up)
    (lf rf an : Bool) (reason : Nat) :
    c.setLink lane up lf rf an reason = c.wr (lane / 64) (R.macPortStatus (lane % 64))
      ((c.rd (lane / 64) (R.macPortStatus (lane % 64)) &&& 2) ||| (b2n up + 4 * b2n lf + 8 * b2n rf + 16 * b2n an)) := by
  unfold Chip.setLink
  simp [h]

/-- The parts of a port that is up. -/
theorem portUp_iff (c : Chip) (lane : Nat) :
    c.portUp lane = true ↔ c.isPort lane = true ∧ c.on (lane / 64) 8 = true ∧
      c.bit (lane / 64) (R.macPortStatus (lane % 64)) 0 = true := by
  simp [Chip.portUp, and_assoc]

theorem apart_status_cfg (p q : Nat) (hp : p < 64) (hq : q < 64) : Apart (R.macPortCfg p) (R.macPortStatus q) := by
  simp only [Apart, R.macPortCfg, R.macPortStatus, ne_eq, RegAddr.mk.injEq]
  omega

theorem apart_status_low (q : Nat) (hq : q < 64) {a : RegAddr} (ha : a.blk < 20) (ho : a.off < 0x1000) : Apart a (R.macPortStatus q) := by
  obtain ⟨b, o⟩ := a
  simp only [Apart, R.macPortStatus, ne_eq, RegAddr.mk.injEq] at *
  omega

/-- The status of a port says nothing of whether it is a port and its block runs. -/
theorem on_wr_status (c : Chip) (d e b p w : Nat) (hp : p < 64) (hb : b < 20) :
    (c.wr d (R.macPortStatus p) w).on e b = c.on e b := by
  unfold Chip.on Chip.en Chip.gateOpen Chip.bit
  rw [rd_wr_apart (apart_status_low p hp (a := R.clkGate) (by decide) (by decide)),
    rd_wr_apart (apart_status_low p hp (a := ⟨b, 0⟩) hb (Nat.succ_pos _))]
  rfl

theorem isPort_wr_status (c : Chip) (d p w lane : Nat) (hp : p < 64) :
    (c.wr d (R.macPortStatus p) w).isPort lane = c.isPort lane := by
  unfold Chip.isPort Chip.bit
  rw [rd_wr_apart (apart_status_cfg _ p (Nat.mod_lt _ (by decide)) hp)]
  rfl

/-- What a port's status says of its link after the status is written. -/
theorem portUp_wr_status {c : Chip} {lane w : Nat} (hw : w < 2 ^ 32) (hp : c.isPort lane = true) (hon : c.on (lane / 64) 8 = true) :
    (c.wr (lane / 64) (R.macPortStatus (lane % 64)) w).portUp lane = bitN w 0 := by
  have hlt : lane % 64 < 64 := Nat.mod_lt _ (by decide)
  unfold Chip.portUp Chip.bit
  rw [isPort_wr_status _ _ _ _ _ hlt, on_wr_status _ _ _ _ _ _ hlt (by decide), hp, hon, Laws.rd_wr_same, Nat.mod_eq_of_lt hw]
  rfl

/-- A link that is up and finds nothing wrong stays up: its status is written, and its neighbour stays. -/
theorem linkStateChangeSpan_up {c : Chip} {lane : Nat} {an : Bool} (hb : c.booted = true) (hp : c.isPort lane = true)
    (hon : c.on (lane / 64) 8 = true) (hup : c.bit (lane / 64) (R.macPortStatus (lane % 64)) 0 = true)
    (han : c.negotiates lane = true → an = true) :
    linkStateChangeSpan lane true false false an c = c.wr (lane / 64) (R.macPortStatus (lane % 64))
      ((c.rd (lane / 64) (R.macPortStatus (lane % 64)) &&& 2) ||| (b2n true + 4 * b2n false + 8 * b2n false +
        16 * b2n (c.negotiates lane && an))) := by
  have hfine : (true && !false && !false && ((c.negotiates lane && an) || !c.negotiates lane)) = true := by
    cases hn : c.negotiates lane with
    | false => rfl
    | true => rw [han hn]; rfl
  have hrow : linkStateChange lane true false false an c = c.setLink lane true false false (c.negotiates lane && an) Dr.linkDown := by
    unfold linkStateChange
    rw [hb, hp, hon]
    dsimp only
    rw [hfine]
    rfl
  have hbit : bitN ((c.rd (lane / 64) (R.macPortStatus (lane % 64)) &&& 2) ||| (b2n true + 4 * b2n false + 8 * b2n false +
      16 * b2n (c.negotiates lane && an))) 0 = true := by
    rw [bitN_eq_testBit, Nat.testBit_or, Nat.testBit_and]
    cases (c.negotiates lane && an) <;> simp [b2n]
  unfold linkStateChangeSpan
  rw [hrow, setLink_same hup]
  dsimp only
  rw [portUp_wr_status (status_lt _ true false false _) hp hon, hbit, Bool.or_true]
  rfl

/-- The pause of a list that is in force and stays so. -/
def pastPause (c : Chip) (l : List PauseIv) : List PauseIv :=
  match (l.filter fun i => decide (i.from_ ≤ c.now)).getLast? with
  | some i => if c.due i.until_ then [] else [i]
  | none => []

/-- The row of PAUSE_EXPIRY on a part that runs. -/
theorem pauseExpiry_alive {c : Chip} (h : c.alive = true) (lane : Nat) (q : Option Nat) :
    pauseExpiry lane q c = c.setDp fun d => { d with
      pauses := tput [] d.pauses (lane * 16 + q.getD 8)
        (pastPause c (c.pausesOf lane (q.getD 8)) ++ (c.pausesOf lane (q.getD 8)).filter fun i => decide (c.now < i.from_)) } := by
  unfold pauseExpiry
  rw [h]
  rfl

/-- Settles O33. -/
theorem portEventsComplete : Obligations.PortEventsComplete := by
  intro s lane
  refine ⟨fun b hup he hop hfc => ?honoured, fun b hup he hop hfc => ?ignored, fun q hal hpast => ?expiry, fun hup hx hn => ?resend,
    fun hup hen hst => ?verified, fun hal hst => ?timeout, fun an hb hp hon hup han => ?link⟩
  case honoured =>
    refine next_onChip ?_
    simp only [Chip.bit] at hfc
    simp [pauseReceived, hup, he, hop, hfc]
  case ignored =>
    refine next_onChip ?_
    simp only [Chip.bit] at hfc
    simp [pauseReceived, hup, he, hop, hfc]
  case expiry =>
    refine next_onChip ?_
    have hnone : pastPause s.chip (s.chip.pausesOf lane (q.getD 8)) = [] := by
      unfold pastPause
      cases hl : ((s.chip.pausesOf lane (q.getD 8)).filter fun i => decide (i.from_ ≤ s.chip.now)).getLast? with
      | none => rfl
      | some i =>
        obtain ⟨hi, hfrom⟩ := List.mem_filter.mp (List.mem_of_getLast? hl)
        simp [hpast i hi (of_decide_eq_true hfrom)]
    rw [pauseExpiry_alive hal, hnone]
    rfl
  case resend =>
    refine next_onChip ?_
    unfold pauseResend
    dsimp only [Option.getD_none]
    rw [hup, hx, if_neg (by decide), if_pos hn]
  case verified =>
    refine next_onChip ?_
    simp [preemptVerify, hup, hen, hst]
  case timeout =>
    refine next_onChip ?_
    simp [verifyTimeout, hal, hst]
  case link =>
    obtain ⟨-, -, hbit⟩ := (portUp_iff _ _).1 hup
    refine gives_onChip rfl ?_
    rw [State.onChip_chip, linkStateChangeSpan_up hb hp hon hbit han]
    rw [Laws.rd_wr_same, Nat.mod_eq_of_lt (status_lt _ true false false _)]
    simp [b2n]

end Sys2Proof.Proofs
end

section
/-! PROOF. Settles O34: packets at a Headgate and on their owner die (spec/01, spec/03, spec/05, spec/06). -/

namespace Sys2Proof.Proofs
open Sys2Proof.Machine

/-- What a row of the part leaves, named. -/
theorem next_chip {s : State} {f : Chip → Chip} {c : Chip} (h : f s.chip = c) :
    (Host.Outcome.next (s.onChip f) : Outcome) = .next { s with chip := c } :=
  congrArg (fun c => Host.Outcome.next { s with chip := c }) h

/-- Cells that read well mark nothing. -/
theorem readPkt_good (c : Chip) (p : Pkt) (hbm : Bool) : c.readPkt p hbm .good = (p, c) := rfl

@[simp] theorem passFlits_culUp (c : Chip) (p q : Pkt) (d k e j : Nat) :
    ((c.passFlits p d k).setPkt q).culUp e j = c.culUp e j := rfl

@[simp] theorem passFlits_en (c : Chip) (p q : Pkt) (d k e b : Nat) : ((c.passFlits p d k).setPkt q).en e b = c.en e b := rfl

/-- Settles O34. -/
theorem packetStagesComplete : Obligations.PacketStagesComplete := by
  intro s id p hal hp
  refine ⟨fun m q hst hw hslot hb hfirst => ?walk, fun m q hst hw hslot hb hfirst => ?walkDropped, fun bad hst hfirst errs => ?ingress,
    fun hst hfirst => ?scan, fun read bad hst hb => ?reread, fun g read bad hst hb => ?lookup, fun e hst hup hen hturn => ?dest,
    fun e hst hup hen hturn => ?owner, fun e hst hup hen hturn => ?through⟩
  case walk =>
    have hw' : (decide (p.len < 516) && !p.whole) = false := by
      by_cases h : p.len < 516 <;> simp [h, hw]
    exact next_chip (by simp [walkBegin, hp, hst, hal, hw', hfirst, hslot, hb])
  case walkDropped =>
    have hw' : (decide (p.len < 516) && !p.whole) = false := by
      by_cases h : p.len < 516 <;> simp [h, hw]
    exact next_chip (by simp [walkBegin, hp, hst, hal, hw', hfirst, hslot, hb])
  case ingress => exact next_onChip (by simp [ingressStage, hp, hst, hal, hfirst])
  case scan => exact next_onChip (by simp [scanResultReady, hp, hst, hal, hfirst, Chip.readCheck])
  case reread => exact next_onChip (by simp [flowRereadResult, hp, hst, hal, hb])
  case lookup => exact next_onChip (by simp [flowLookupResult, hp, hst, hal, hb])
  case dest => exact next_onChip (by simp [culvertArrival, hp, hst, hal, hturn, culReplays, readPkt_good, hup, hen])
  case owner => exact next_onChip (by simp [culvertArrival, hp, hst, hal, hturn, culReplays, readPkt_good, hup, hen])
  case through => exact next_onChip (by simp [culvertArrival, hp, hst, hal, hturn, culReplays, readPkt_good, hup, hen])

end Sys2Proof.Proofs
end

section
/-! PROOF. Settles O35: queues, shapers and egress (spec/07, spec/08, spec/14 Receive delivery). -/

namespace Sys2Proof.Proofs
open Sys2Proof.Machine

/-! ### Shapers -/

theorem shaper_setShaper_same (c : Chip) (k : Nat) (x : Shaper) : (c.setShaper k x).shaper k = x := tget_tput_same _ _ _ _

/-- A shaper that enters the wheel keeps all but its slot. -/
theorem enter_cases (x : Shaper) (now : Nat) : ∃ slot level, x.enter now = { x with slot := slot, level := level } := by
  unfold Shaper.enter
  split
  · exact ⟨none, x.level, rfl⟩
  · exact ⟨_, _, rfl⟩

theorem enter_credit (x : Shaper) (now : Nat) : (x.enter now).credit = x.credit := by
  obtain ⟨slot, level, h⟩ := enter_cases x now
  rw [h]

theorem enter_last (x : Shaper) (now : Nat) : (x.enter now).last = x.last := by
  obtain ⟨slot, level, h⟩ := enter_cases x now
  rw [h]

/-- A refill of a shaper that has waiting packets and no staged change adds its rate up to its burst. -/
theorem shaperRefill_busy {c : Chip} {die idx t : Nat} (hal : c.alive = true) (hslot : (c.shaper (die * 131072 + idx)).slot = some t)
    (hdue : c.due t = true) (hch : (c.shaper (die * 131072 + idx)).change = none)
    (hbusy : c.shaperBusy (die * 131072 + idx) = true) :
    ((shaperRefill die idx false c).shaper (die * 131072 + idx)).credit = min ((c.shaper (die * 131072 + idx)).credit +
        ((c.shaper (die * 131072 + idx)).rate * (t - (c.shaper (die * 131072 + idx)).last) : Nat))
        ((c.shaper (die * 131072 + idx)).burst * creditByte : Nat) ∧
      ((shaperRefill die idx false c).shaper (die * 131072 + idx)).last = t := by
  generalize hk : die * 131072 + idx = k at *
  unfold shaperRefill
  simp only [hk, hslot, hal, hdue, hch, hbusy, Bool.not_true, Bool.or_false, Bool.false_eq_true, if_false, and_false]
  split
  · rw [shaper_setShaper_same, enter_credit, enter_last]
    exact ⟨rfl, rfl⟩
  · rw [shaper_setShaper_same]
    exact ⟨rfl, rfl⟩

/-- A staged shaper of a rate, applied: its settings stand, and no change is left of what waited. -/
theorem applyQos_shaper {c : Chip} {d t n r b o : Nat} (hr : 0 < r) :
    (c.applyQos d t (.shaper n r b o)).qs.qosPend = c.qs.qosPend ∧ ((c.applyQos d t (.shaper n r b o)).shaper n).rate = r ∧
      ((c.applyQos d t (.shaper n r b o)).shaper n).burst = b ∧ ((c.applyQos d t (.shaper n r b o)).shaper n).overhead = o ∧
      ((c.applyQos d t (.shaper n r b o)).shaper n).change = none := by
  have hstored : ∃ x : Shaper, c.applyQos d t (.shaper n r b o) = c.setShaper n x ∧ x.rate = r ∧ x.burst = b ∧ x.overhead = o ∧
      x.change = none := by
    unfold Chip.applyQos
    dsimp only
    rw [if_neg (by omega)]
    split
    · split
      · exact ⟨_, rfl, rfl, rfl, rfl, rfl⟩
      · refine ⟨_, rfl, ?_⟩
        split
        · exact ⟨rfl, rfl, rfl, rfl⟩
        · obtain ⟨slot, level, h⟩ := enter_cases
            { c.shaper n with rate := r, burst := b, overhead := o, change := none, last := t, slot := none } t
          rw [h]
          exact ⟨rfl, rfl, rfl, rfl⟩
    · exact ⟨_, rfl, rfl, rfl, rfl, rfl⟩
  obtain ⟨x, hx, h⟩ := hstored
  rw [hx, shaper_setShaper_same]
  exact ⟨rfl, h⟩

/-! ### Departures -/

/-- No earlier departure of a port is left before one at `d` of a packet. -/
theorem no_departure_before {c : Chip} {p : Pkt} {d : Nat} (h : ∀ q ∈ c.heldFor p.dst, d ≤ q.1 ∧ (q.1 = d → p.src ≤ q.2.src)) :
    ((c.heldFor p.dst).any fun q => decide (q.1 < d) || (q.1 == d && decide (q.2.src < p.src))) = false := by
  rw [List.any_eq_false]
  intro q hq
  obtain ⟨hd, hsrc⟩ := h q hq
  simp only [Bool.or_eq_true, Bool.and_eq_true, decide_eq_true_eq, beq_iff_eq, not_or, not_and]
  exact ⟨by omega, fun he => by have := hsrc he; omega⟩

theorem ownFlush_of_none {c : Chip} {lane : Nat} (h : tget [] c.dp.own lane = []) : c.ownFlush lane = c := by
  unfold Chip.ownFlush
  rw [h]
  rfl

/-- Settles O35. -/
theorem egressCompletes : Obligations.EgressCompletes := by
  intro s
  refine ⟨fun dest tc o p drr hon hport hopen hpick hfits => ?grantPort, fun dest tc o p drr e hon hopen hpick he hq => ?grantInst,
    fun lane x p b c₀ q c₁ hal hp hcan hown hdue hsec hlen hline hfin => ?tenant,
    fun id x p d r hal hp hst hdue hbefore hcan cells => ?undeparted,
    fun id x p d b c₀ start line cut q c₁ hal hp hst hdue hbefore hcan hsec hstart hwait hgo hlen hfin => ?departed,
    fun lane x p hal hx hp hwhole hbad hlen hauth => ?sent, fun lane x p hal hx hp hbad => ?stomped,
    fun id p hal hp hst hspill hen hctrl => ?spill, fun die idx t hal hslot hdue hch hbusy => ?refill,
    fun d n r b o hal hdue hpend hr => ?qos, fun id p hp hst hinst hon hbefore => ?delivery⟩
  case grantPort => exact next_onChip (by simp [grant, hon, hport, hopen, hpick])
  case grantInst => exact next_onChip (by simp [grant, hon, hopen, hpick, he, hq])
  case tenant =>
    refine next_onChip ?_
    simp [tenantFrameStart, hp, hal, hcan, ownFlush_of_none hown, hdue, hsec, Nat.not_lt.mpr hlen, hline, readPkt_good, hfin]
  case undeparted =>
    exact next_onChip (by simp only [throughDeparture, hp, hst, hal, hdue, no_departure_before hbefore, hcan]; rfl)
  case departed =>
    refine next_onChip ?_
    have hnot : ¬ (s.chip.fld (p.dst / 64) (R.schFlumeMaxwait (p.dst % 64)) 0 16 ≠ 0 ∧
        s.chip.fld (p.dst / 64) (R.schFlumeMaxwait (p.dst % 64)) 0 16 * 65536 < start - d) := by omega
    have hgo' : (!s.chip.due start && line == s.chip.txOf p.dst) = false := by
      rcases hgo with h | h
      · simp [h]
      · simp [h]
    unfold throughDeparture
    rw [hp]
    dsimp only
    split
    case h_2 hne => exact absurd hst (hne d)
    case h_1 d' hst' =>
      obtain rfl : d' = d := PStage.held.inj (hst'.symm.trans hst)
      rw [hal, hdue, no_departure_before hbefore, hcan, if_neg (by decide)]
      dsimp only
      rw [hsec]
      dsimp only
      rw [hstart]
      dsimp only
      rw [if_neg hnot, if_neg (ne_true_of_eq_false hgo'), if_neg fun h => Nat.not_lt.mpr hlen h.1, readPkt_good]
      dsimp only
      rw [hfin]
  case sent =>
    refine next_onChip ?_
    simp [transmitComplete, hx, hp, hal, hwhole, hbad, hauth, Nat.not_lt.mpr hlen]
  case stomped =>
    refine next_onChip ?_
    have hbad' : (p.badAt.isSome || decide (s.chip.maxFrame lane < p.len)) = true := by simpa using hbad
    simp only [transmitComplete, hx, hp, hal, hbad', Chip.oversized]
    cases p.srcInst <;> simp
  case spill =>
    intro same hfirst hback hfree
    refine next_onChip ?_
    have hstop : (p.stage != .queued || !(p.holds.any fun h => isSpill h.pool) || !s.chip.alive || !s.chip.en p.die 5 ||
        !s.chip.bit p.die R.bufCtrl 2 || !s.chip.first p (fun q => same q && q.holds.any fun h => isSpill h.pool) ||
        decide (64 < ((s.chip.dp.pkts.filter fun q => same q && q.readBack).map Pkt.cells).sum + p.cells) ||
        decide (s.chip.poolFree p.die < p.cells)) = false := by
      rw [hspill, hal, hen, hctrl, hfirst, hst, decide_eq_false (Nat.not_lt.mpr hback), decide_eq_false (Nat.not_lt.mpr hfree)]
      rfl
    unfold spillwayReadback
    rw [hp]
    dsimp only
    rw [if_neg (ne_true_of_eq_false hstop), readPkt_good]
  case refill => exact gives_onChip rfl (shaperRefill_busy hal hslot hdue hch hbusy)
  case qos =>
    refine gives_onChip rfl ?_
    have hrow : qosApply d s.chip = (s.chip.setQs fun q => { q with qosPend := [] }).applyQos d (nextSlot fineSlot s.chip.commit.tsw)
        (.shaper n r b o) := by
      simp [qosApply, hal, hdue, hpend]
      simp [Chip.setQs, hpend]
    rw [State.onChip_chip, hrow]
    exact applyQos_shaper hr
  case delivery =>
    refine next_onChip ?_
    have hnone : (s.chip.dp.pkts.any fun q => q.dstInst && q.dst == p.dst && decide (q.granted < p.granted) &&
        (q.stage == .window || q.stage == .crossDest (p.dst / 512))) = false := by
      rw [List.any_eq_false]
      intro q hq h
      simp only [Bool.and_eq_true, Bool.or_eq_true, beq_iff_eq, decide_eq_true_eq] at h
      obtain ⟨⟨⟨hi, hd⟩, hg⟩, hs⟩ := h
      obtain ⟨h1, h2⟩ := hbefore q hq hi hd hg
      exact hs.elim h1 h2
    simp [rxDelivery, hp, hst, hinst, hon, hnone, readPkt_good]

end Sys2Proof.Proofs
end

section
/-! PROOF. Settles O36: learning and ageing (spec/06 Learning, Ageing). -/

namespace Sys2Proof.Proofs
open Sys2Proof.Machine

/-- The places of a bucket are visited in order. -/
theorem foldl_bucket {α : Type} (f : α → Nat → α) (b : Nat) (a : α) :
    ((List.range 4).map fun i => 4 * b + i).foldl f a = f (f (f (f a (4 * b)) (4 * b + 1)) (4 * b + 2)) (4 * b + 3) := rfl

/-- A place of a die's replica rewritten: it holds the new entry, and every other place what it held. -/
theorem setMacTab_place (c : Chip) (d k : Nat) (e : Option MacE) :
    tget none ((c.setMacTab d (tput none (c.macTab d) k e)).macTab d) k = e ∧
      ∀ j, j ≠ k → tget none ((c.setMacTab d (tput none (c.macTab d) k e)).macTab d) j = tget none (c.macTab d) j := by
  rw [macTab_setMacTab_same]
  exact ⟨tget_tput_same _ _ _ _, fun j hj => tget_tput_ne _ _ _ hj⟩

theorem removeTimed_match {c : Chip} {d key time k : Nat} {e : MacE} (h : c.learned d key = some (k, e)) (ht : e.time = time) :
    c.removeTimed d key time = c.macErase d k e := by
  simp [Chip.removeTimed, h, ht]

/-- Settles O36. -/
theorem learningCompletes : Obligations.LearningCompletes := by
  intro s d hon hal hd
  refine ⟨fun ev q hq hhold => ?originate, fun n c' c'' ht hl hi => ?insert, fun n c' ht => ?fail, fun n c' k e ht hl htime => ?withdrawal,
    fun n c' k e ht hl htime => ?removal, fun n c' k e ht hl => ?hit, fun n c' k e ht hl => ?clear, fun b hdue => ?sweepMac,
    fun b hdue => ?sweepFlow⟩
  case originate => exact next_onChip (by simp [learnOriginate, hq, hon, Nat.not_lt.mpr hhold])
  case insert =>
    refine next_chip ?_
    rw [learnNotice_taken hal hd ht]
    simp [Chip.takesLearn, hl, hi]
  case fail => exact next_onChip (by simp [learnReplicaFail, hal, hd, ht])
  case withdrawal => exact next_chip (by simp [learnWithdrawal, hal, hd, ht, removeTimed_match hl htime])
  case removal => exact next_chip (by simp [macRemoval, hal, hd, ht, removeTimed_match hl htime])
  case hit =>
    have hrow : hitNotice d s.chip =
        c'.setMacTab d (tput none (c'.macTab d) k (some { e with hit := true, remote := setBitN e.remote n.src true })) := by
      simp [hitNotice, hal, hd, ht, hl]
    refine gives_onChip rfl ?_
    rw [State.onChip_chip, hrow]
    exact setMacTab_place _ _ _ _
  case clear =>
    have hrow : clearNotice d s.chip = c'.setMacTab d (tput none (c'.macTab d) k (some { e with hit := false })) := by
      simp [clearNotice, hal, hd, ht, hl]
    refine gives_onChip rfl ?_
    rw [State.onChip_chip, hrow]
    exact setMacTab_place _ _ _ _
  case sweepMac =>
    refine next_onChip ?_
    simp only [sweeperVisit, hon, hdue, foldl_bucket]
    rfl
  case sweepFlow =>
    refine next_onChip ?_
    simp only [sweeperVisit, hon, hdue, foldl_bucket]
    rfl

end Sys2Proof.Proofs
end

section
/-! PROOF. Settles O37: management entries of the tables, groups and associations (spec/05, spec/06 Management entries, spec/09
Associations). -/

namespace Sys2Proof.Proofs
open Sys2Proof.Machine

/-- An entry that is to run runs. -/
theorem runEntry_toRun {c : Chip} {f typ : Nat} {e : Started} (g : Started → Chip → Chip) (h : c.toRun f typ e) :
    runEntry f typ g c = g e (c.markRun f e.seq) := by
  obtain ⟨hal, hrun⟩ := h
  simp [runEntry, hal, hrun]

/-- The row of a steward's entry finds it. -/
theorem stwEntry_toRun {c : Chip} {typ : Nat} {e : Started} (h : c.toRun stewardFn typ e) : c.stwEntry typ = some e := by
  obtain ⟨hal, hrun⟩ := h
  simp [Chip.stwEntry, hal, hrun]

theorem flowRead_clean (c : Chip) (d : Nat) (kb : Bytes) : c.flowRead d kb .clean = c := rfl

/-- An association that ASSOC_WRITE takes replaces what it displaces. -/
theorem assocWrite_runs {c : Chip} {e : Started} {a : Nat} {x : Assoc} (hrun : c.toRun stewardFn 0x48 e) (ha : a = leAt e.bytes 8 4)
    (hx : x = Assoc.ofBytes (slice e.bytes 16 128)) (hlt : a < 65536 * c.dies) (hf1 : 1 ≤ x.framing) (hf4 : x.framing ≤ 4)
    (hport : x.framing = 3 → x.port < 64 * c.dies) (hflags : x.flags < 32) (han : x.an ≤ 3)
    (hwin : x.windowLog2 = 0 ∨ 5 ≤ x.windowLog2 ∧ x.windowLog2 ≤ 9) (hsuite : x.suite ∈ framingSuites x.framing) :
    assocWrite c = (((c.markRun stewardFn e.seq).setCp fun p => { p with assocs := tput none (p.assocs.map fun y =>
      if y.1 / 65536 = a / 65536 then (y.1, y.2.map fun z => z.displaced x) else y) a (some x) }).softCheck a x).endWith
        stewardFn e St.ok := by
  have hin : ¬ (65536 * c.dies ≤ a ∨ (x.framing = 3 ∧ 64 * c.dies ≤ x.port)) := by
    rintro (h | ⟨h3, h⟩)
    · omega
    · exact Nat.not_lt.mpr h (hport h3)
  have hform : ¬ (x.framing = 0 ∨ 4 < x.framing ∨ 32 ≤ x.flags ∨ 3 < x.an ∨
      !(x.windowLog2 == 0 || (decide (5 ≤ x.windowLog2) && decide (x.windowLog2 ≤ 9)))) := by
    simp only [Bool.not_eq_true', Bool.or_eq_false_iff, beq_eq_false_iff_ne, Bool.and_eq_false_imp, decide_eq_true_eq,
      decide_eq_false_iff_not]
    omega
  have hkind : (!(framingSuites x.framing).contains x.suite) = false := by simpa using hsuite
  subst ha hx
  rw [assocWrite, runEntry_toRun _ hrun]
  dsimp only
  rw [Chip.markRun_dies, if_neg hin, if_neg hform, if_neg (ne_true_of_eq_false hkind)]
  rfl

/-- Settles O37. -/
theorem tableEntriesComplete : Obligations.TableEntriesComplete := by
  intro s e
  refine ⟨fun d c' hrun hbad hd hreach hins => ?flowWrite, fun d c' hrun hok hd hreach hdel => ?flowDelete, fun hrun hsel => ?flush,
    fun hrun hok => ?group, fun k l q hal hnew hq => ?confirmed,
    fun a x hrun ha hx hlt h1 h4 hp hfl han hwin hsuite => next_onChip (assocWrite_runs hrun ha hx hlt h1 h4 hp hfl han hwin hsuite)⟩
  case flowWrite =>
    refine next_chip ?_
    have hwait : ((s.chip.nextRun stewardFn 0x45).any fun e => !flowWriteBad e.bytes && !s.chip.reach s.chip.stwDie
        (s.chip.ownerDie 0 (s.chip.keyHash 0 (Flow.kind (slice e.bytes 16 64)) (slice e.bytes 16 64)))) = false := by
      rw [hrun.2, Option.any_some, ← hd, hreach, Bool.not_true, Bool.and_false]
    unfold flowWrite
    rw [if_neg (ne_true_of_eq_false hwait), runEntry_toRun _ hrun]
    dsimp only
    rw [if_neg (ne_true_of_eq_false hbad), flowRead_clean, ← hd, hins]
  case flowDelete =>
    refine next_chip ?_
    have hwait : ((s.chip.nextRun stewardFn 0x46).any fun e => kindOk (byteAt e.bytes 8) && !s.chip.reach s.chip.stwDie
        (s.chip.ownerDie 0 (s.chip.keyHash 0 (byteAt e.bytes 8) (slice e.bytes 9 40)))) = false := by
      rw [hrun.2, Option.any_some, ← hd, hreach, Bool.not_true, Bool.and_false]
    unfold flowDelete
    rw [if_neg (ne_true_of_eq_false hwait), runEntry_toRun _ hrun]
    dsimp only
    rw [hok, flowRead_clean, ← hd, hdel]
    rfl
  case flush =>
    refine next_onChip ?_
    rw [macFlush, runEntry_toRun _ hrun]
    simp [hsel]
  case group => exact next_onChip (by simp [groupUpdate, stwEntry_toRun hrun, hok])
  case confirmed => exact next_chip (by simp [groupUpdateConfirmed, hnew, hal, hq])

end Sys2Proof.Proofs
end

section
/-! PROOF. Settles O38: commits and epochs (spec/04 Rule epochs). -/

namespace Sys2Proof.Proofs
open Sys2Proof.Machine

/-! ### What a change of marks and the word to the dies leave -/

theorem foldl_keeps {α β γ : Type} (f : α → γ) {g : α → β → α} (h : ∀ a b, f (g a b) = f a) (l : List β) (a : α) :
    f (l.foldl g a) = f a :=
  List.foldlRecOn (motive := fun x => f x = f a) l g rfl fun x hx b _ => (h x b).trans hx

@[simp] theorem setMacTab_commit (c : Chip) (d : Nat) (t : Tab (Option MacE)) : (c.setMacTab d t).commit = c.commit := rfl

@[simp] theorem setMacTab_slots (c : Chip) (d : Nat) (t : Tab (Option MacE)) : (c.setMacTab d t).rl = c.rl := rfl

@[simp] theorem setMacTab_qs (c : Chip) (d : Nat) (t : Tab (Option MacE)) : (c.setMacTab d t).qs = c.qs := rfl

@[simp] theorem remark_commit (c : Chip) (f : Marks → Option Marks) : (c.remark f).commit = c.commit := by
  unfold Chip.remark
  exact foldl_keeps Chip.commit (by exact fun _ _ => rfl) _ _

@[simp] theorem remark_slots (c : Chip) (f : Marks → Option Marks) : (c.remark f).rl.slots = c.rl.slots := by
  unfold Chip.remark
  exact foldl_keeps (fun c : Chip => c.rl.slots) (by exact fun _ _ => rfl) _ _

theorem setQs_setSlot_commit (c : Chip) (sl : Nat) (x : Slot) (f : Sched → Sched) : ((c.setSlot sl x).setQs f).commit = c.commit := rfl

theorem setSlot_qs (c : Chip) (sl : Nat) (x : Slot) : (c.setSlot sl x).qs = c.qs := rfl

/-- The word to the dies changes only what their ports have passed. -/
theorem tellDies_commit {c q : Chip} (h : c.tellDies = some q) : q.commit = c.commit := by
  unfold Chip.tellDies at h
  dsimp only at h
  split at h
  · simp at h
  · rw [← Option.some.inj h]
    exact foldl_keeps Chip.commit (by exact fun _ _ => rfl) _ _

/-- The end of a commit takes with it what a barrier commit held. -/
def freed (c : Chip) (barrier : Bool) : Chip :=
  if barrier then c.setBarrier fun b => { b with using_ := none, early := none, ready := none, stalled := false } else c

theorem closeCommit_eq (c : Chip) : c.closeCommit = (freed c c.commit.barrier).setCommit fun k => { Commit.none with tsw := k.tsw } := rfl

/-- Settles O38. -/
theorem epochRowsComplete : Obligations.EpochRowsComplete := by
  intro s hal
  refine ⟨fun e sl hrun hph hbar hfree => ?open_, fun e c' hrun hph hfail hok hstage => ?change,
    fun e hrun hph hfail hcnt hreach hearly => ?close, fun e hrun hph => ?abort, fun q hph hq => ?confirmed, fun hph => ?timeout,
    fun hph hends => ?undone, fun hph hdue hqos => ?switch, fun sl hsl hnone => ?retire, fun sl hsl hlt hlen => ?swept,
    fun sl ms hst hstalled hlim hms => ?stall⟩
  case open_ =>
    refine next_onChip ?_
    unfold commitOpen
    rw [stwEntry_toRun hrun]
    simp [hph, hbar, hfree, Commit.none]
  case change =>
    refine next_chip ?_
    simp [ruleChange, stwEntry_toRun hrun, hph, hfail, hok, hstage]
  case close =>
    refine next_onChip ?_
    have hreach' : (s.chip.markRun stewardFn e.seq).someUnreachable = false := hreach
    unfold commitClose
    rw [stwEntry_toRun hrun]
    simp only [Chip.markRun_commit, hph, hfail, hcnt, hreach', Chip.markRun_sp]
    rcases hearly with h | h
    · simp [h]
    · cases s.chip.sp.barrier.early <;> simp [h]
  case abort => exact next_onChip (by simp [commitAbort, stwEntry_toRun hrun, hph])
  case confirmed =>
    refine next_chip ?_
    simp [changesConfirmedWave, changesConfirmed, hal, hph, hq, tellDies_commit hq]
  case timeout => exact next_onChip (by simp [dieConfirmTimeout, hal, hph])
  case undone =>
    refine next_onChip ?_
    have hrow : commitUndoDone s.chip = ((((s.chip.remark fun k => k.undo s.chip.commit.slot).setSlot s.chip.commit.slot
        ⟨0, .free, false⟩).setQs fun q => { q with qosStaged := [] }).closeCommit).endStw 0x42 St.aborted s.chip.commit.tag [] := by
      simp [commitUndoDone, hal, hph, hends, St.aborted, St.commitRejected]
    rw [commitUndoDoneWave, hrow, closeCommit_eq, setQs_setSlot_commit, remark_commit]
    rfl
  case switch =>
    refine next_onChip ?_
    have hgo : (!s.chip.alive || s.chip.commit.phase != .switching || !s.chip.due s.chip.commit.tsw) = false := by simp [hal, hph, hdue]
    unfold epochSwitch
    rw [if_neg (ne_true_of_eq_false hgo)]
    dsimp only
    rw [setSlot_qs, setSlot_qs, hqos, closeCommit_eq]
    rfl
  case retire =>
    refine next_onChip ?_
    have hany : (s.chip.allDies.any fun d => s.chip.inflight d sl != 0) = false := by
      rw [List.any_eq_false]
      intro d hd
      simp [hnone d hd]
    simp [epochRetire, hsl, hal, hany]
  case swept =>
    refine gives_onChip rfl ?_
    have hrow : ∃ q : Chip, retirementSweepDone s.chip = q.setSlot sl ⟨(q.slot sl).epoch, .free, false⟩ ∧ q.rl.slots = s.chip.rl.slots := by
      unfold retirementSweepDone
      rw [hsl, hal]
      dsimp only
      refine ⟨_, rfl, ?_⟩
      split
      · exact remark_slots _ _
      · rfl
    obtain ⟨q, hq, hslots⟩ := hrow
    rw [State.onChip_chip, hq, slot_setSlot_same _ (by rw [hslots, hlen]; exact hlt)]
  case stall => exact next_onChip (by simp [epochStall, hal, hst, hstalled, hlim, Nat.not_le.mpr hms])

end Sys2Proof.Proofs
end

section
/-! PROOF. Settles O39: associations, keys, cipher jobs and the units of the cipher pool (spec/09). -/

namespace Sys2Proof.Proofs
open Sys2Proof.Machine

/-- An association without a soft limit reports none. -/
theorem softCheck_of_zero {c : Chip} {a : Nat} {x : Assoc} (h : x.softLimit = 0) : c.softCheck a x = c := by
  simp [Chip.softCheck, h]

/-- A key slot that reads well is as it was. -/
theorem slotRead_clean (c : Chip) (n : Nat) : c.slotRead n .clean = c := rfl

/-- No running unit that stands before a unit of the pool belongs to its order. -/
theorem no_unit_before {l : List CUnit} {u : CUnit} {id : Nat}
    (h : ∀ v ∈ l.takeWhile (fun v => v.id != id), v.running = true → sameOrder u v = false) :
    ((l.takeWhile fun v => v.id != id).any fun v => v.running && sameOrder u v) = false := by
  rw [List.any_eq_false]
  intro v hv hrun
  rw [Bool.and_eq_true] at hrun
  exact absurd hrun.2 (ne_true_of_eq_false (h v hv hrun.1))

/-- Settles O39. -/
theorem cipherRowsComplete : Obligations.CipherRowsComplete := by
  intro s f e die u
  refine ⟨fun hrun => ?assoc, fun hrun hok => ?load, fun hrun hok => ?clear, fun hal hfind => ?settled, fun head hrun hhead => ?query,
    fun hrun hen hmode hlen htotal hpos => ?job, fun t f i part j key hnext hon hkind hcores hroom hjob hkey => ?dispatch,
    fun f i part k hfind hal hrun hbefore hkey hkind => ?jobUnit, fun id k p x hfind hal hrun hbefore hkey hkind hp hx => ?espUnit⟩
  case assoc =>
    intro a x hlt hf1 hf4 hport hflags han hwin hsoft hsuite
    refine next_onChip ?_
    rw [assocWrite_runs hrun rfl rfl hlt hf1 hf4 hport hflags han (.inl hwin) hsuite, softCheck_of_zero hsoft]
  case load =>
    refine next_onChip ?_
    rw [keyLoad, runEntry_toRun _ hrun]
    dsimp only
    rw [hok]
    cases (s.chip.markRun f e.seq).unwrap s.root.fuses.kekSeed f (slice e.bytes 16 184) <;> rfl
  case clear =>
    refine next_onChip ?_
    rw [keyClear, runEntry_toRun _ hrun]
    dsimp only
    rw [hok]
    rfl
  case settled => exact next_onChip (by simp only [keySlotSettled, hfind, hal, if_true])
  case query =>
    refine next_onChip ?_
    rw [kekQuery, runEntry_toRun _ hrun, hhead]
    rfl
  case job =>
    refine next_onChip ?_
    have hen' : (!s.chip.en (s.chip.fnDie f) 9) = false := by rw [hen]; rfl
    unfold cipherJob
    rw [if_neg (ne_true_of_eq_false hen'), runEntry_toRun _ hrun]
    dsimp only
    rw [if_neg (Nat.not_le.mpr hmode), if_neg (ne_true_of_eq_false hlen), if_neg fun h => hpos.ne' h.2, if_neg htotal.ne']
    rfl
  case dispatch =>
    refine next_onChip ?_
    obtain ⟨q, hq⟩ : ∃ q, q = s.chip.setCp fun p => { p with turns := tput (0, 0) p.turns die t } := ⟨_, rfl⟩
    have hread : q.unitRead die u .good = q := by simp [Chip.unitRead, Chip.unitPkt, hkind]
    have hjob' : (q.cp.jobs.find? fun j => j.fn == f && j.index == i) = some j := by rw [hq]; exact hjob
    have hkey' : q.jobKey f j.ent = some key := by rw [hq]; exact hkey
    have hslot : (if u.slot / 65536 = die then q.slotRead u.slot .clean else q) = q := by simp [slotRead_clean]
    have hgo : (u.id != u.id || !s.chip.on die 9 ||
        decide (s.chip.fld die R.cipCores 20 10 ≤ ((tget [] s.chip.cp.units die).filter CUnit.running).length) ||
        decide (8192 < (((tget [] s.chip.cp.units die).filter CUnit.running).map CUnit.entries).sum + s.chip.unitEntries u)) = false := by
      simp [hon, hcores, hroom]
    unfold cipherUnitDispatch
    rw [hnext]
    dsimp only
    rw [if_neg (ne_true_of_eq_false hgo), ← hq, hread]
    simp only [hkind]
    rw [hslot, hjob']
    dsimp only
    rw [hkey']
  case jobUnit =>
    refine next_onChip ?_
    simp only [cipherUnitComplete, hfind, hal, hrun, no_unit_before hbefore, hkey, hkind]
    rfl
  case espUnit =>
    refine next_onChip ?_
    simp only [cipherUnitComplete, hfind, hal, hrun, no_unit_before hbefore, hkey, hkind, hp, hx]
    rfl

end Sys2Proof.Proofs
end

section
/-! PROOF. Settles O40: contexts of the engines (spec/10 Starting a context, The microword, Ending a context, Context faults). -/

namespace Sys2Proof.Proofs
open Sys2Proof.Machine

/-- Data that has crossed between dies leaves the rule epochs. -/
theorem crossData_rl {c q : Chip} {d e hash n : Nat} (h : c.crossData d e hash n = some q) : q.rl = c.rl := by
  unfold Chip.crossData at h
  dsimp only at h
  split at h
  · rw [← Option.some.inj h]
  · split at h
    · rw [← Option.some.inj h]
      rfl
    · simp at h

/-- The current epoch, read with any default of number 0. -/
theorem curEpoch_eq (c : Chip) : (c.rl.slots.getD c.curSlot ⟨0, .current, false⟩).epoch = c.curEpoch := by
  simp only [Chip.curEpoch, Chip.slot, List.getD_eq_getElem?_getD]
  cases c.rl.slots[c.curSlot]? <;> rfl

/-- Register writes leave a context's operations and state. -/
theorem setG_foldl_ops (w : List (Nat × Nat)) (k : Ctx) :
    (w.foldl (fun k v => k.setG v.1 v.2) k).ops = k.ops ∧ (w.foldl (fun k v => k.setG v.1 v.2) k).st = k.st :=
  List.foldlRecOn (motive := fun q : Ctx => q.ops = k.ops ∧ q.st = k.st) w _ ⟨rfl, rfl⟩ fun _ hq _ _ => hq

theorem isEmpty_of_ne_nil {α : Type} {l : List α} (h : l ≠ []) : l.isEmpty = false := by
  cases l with
  | nil => exact absurd rfl h
  | cons a l => rfl

/-- A context as a port's result leaves it. -/
def Ctx.resulted (k : Ctx) (port : EnginePort) (st : Nat) (w : List (Nat × Nat)) : Ctx :=
  let k' := w.foldl (fun k v => k.setG v.1 v.2) { k with ops := k.ops.filter fun q => q.port != port }
  match statusSlot port with
  | some i => { k' with status := k'.status.set i st }
  | none => k'

theorem resulted_ops (k : Ctx) (port : EnginePort) (st : Nat) (w : List (Nat × Nat)) :
    (Ctx.resulted k port st w).ops = k.ops.filter (fun q => q.port != port) ∧ (Ctx.resulted k port st w).st = k.st := by
  have h := setG_foldl_ops w { k with ops := k.ops.filter fun q => q.port != port }
  unfold Ctx.resulted
  dsimp only
  split
  · exact h
  · exact h

theorem readCheck_clean (c : Chip) (d : Nat) (hbm : Bool) (e : Ev) : c.readCheck d hbm .clean e = c := rfl

/-- A result that leaves other operations outstanding reaches its ready context. -/
theorem portOpComplete_ready {c : Chip} {d e x st : Nat} {k : Ctx} {port : EnginePort} {o : PortOp} {w : List (Nat × Nat)}
    (hal : c.alive = true) (hk : c.ctx d e x = some k) (hst : k.st = .ready) (ho : k.op port = some o) (hr : o.result = some (st, w))
    (hne : k.ops.filter (fun q => q.port != port) ≠ []) :
    portOpComplete d e x port c = c.setCtx d e x (some (Ctx.resulted k port st w)) := by
  obtain ⟨hops, -⟩ := resulted_ops k port st w
  have hempty : (Ctx.resulted k port st w).ops.isEmpty = false := by rw [hops]; exact isEmpty_of_ne_nil hne
  have hrow : portOpComplete d e x port c =
      let k' := if (Ctx.resulted k port st w).ops.isEmpty then { Ctx.resulted k port st w with yielding := false } else Ctx.resulted k port st w
      c.setCtx d e x (if k'.ops.isEmpty && k'.st == .draining then none else some k') := by
    cases k
    cases hst
    unfold portOpComplete
    rw [hk]
    dsimp only
    rw [ho]
    dsimp only
    rw [hr, hal]
    rfl
  rw [hrow, if_neg (ne_true_of_eq_false hempty)]
  dsimp only
  rw [hempty]
  rfl

/-- Settles O40. -/
theorem contextRowsComplete : Obligations.ContextRowsComplete := by
  intro s d e x
  refine ⟨fun p hon he hpair hfree hp => ?packet, fun f j q hon he hpair hfree hj hwait hq => ?job,
    fun k pc stack hon hk hturn hill hnext hpc hrange => ?issue,
    fun k port o st w hal hk hst ho hr hne => next_onChip (portOpComplete_ready hal hk hst ho hr hne),
    fun k port o r hal hk hst ho hr hnil => ?last, fun k t hal hk hst hdue => ?pause, fun m v k hreach he hx hv hk hst => ?kill,
    fun hal hd hen hnone => ?idle⟩
  case packet =>
    refine next_onChip ?_
    unfold engineContextStart
    rw [hon, hpair, Option.isSome_none, hfree, decide_eq_false (Nat.not_le.mpr he), if_neg (by decide)]
    dsimp only
    split
    · next hnone => exact absurd (hnone.symm.trans hp) (Option.some_ne_none p).symm
    · next p' hfirst =>
      cases hfirst.symm.trans hp
      rfl
  case job =>
    refine next_onChip ?_
    have hslot : q.curSlot = s.chip.curSlot := by simp [Chip.curSlot, crossData_rl hq]
    have hepoch : q.curEpoch = s.chip.curEpoch := by simp [Chip.curEpoch, Chip.slot, hslot, crossData_rl hq]
    unfold engineContextStart
    rw [hon, hpair, Option.isSome_some, hfree, decide_eq_false (Nat.not_le.mpr he), if_neg (by decide)]
    dsimp only
    rw [hj]
    dsimp only
    rw [hwait, if_neg (by decide), hq]
    dsimp only
    rw [curEpoch_eq, hslot, hepoch]
  case issue =>
    refine next_onChip ?_
    have hgo : (!s.chip.on d 11 || s.chip.turnOf d e != some x) = false := by simp [hon, hturn]
    have hrange' : (s.chip.passTurn d e x).outOfRange k (tget 0 s.chip.dre.cstore k.pc) = false := hrange
    unfold microwordIssue
    rw [hk]
    dsimp only
    rw [if_neg (ne_true_of_eq_false hgo), if_neg (by decide), Bool.false_and, if_neg (by decide), hill, if_neg (by decide), hnext]
    dsimp only
    rw [if_neg fun h => Nat.not_le.mpr hpc h.2, readCheck_clean, hrange', if_neg (by decide)]
  case last =>
    refine next_onChip ?_
    obtain ⟨st, w⟩ := r
    simp [portOpComplete, hk, ho, hr, hst, hnil, hal]
  case pause => exact next_onChip (by simp [enginePauseEnd, hk, hst, hal, hdue])
  case kill =>
    refine (exec_access hreach rfl).trans (next_onChip ?_)
    have hst' : (k.st != .draining) = true := by simpa using hst
    simp [dreCtxKill, he, hx, hv, hk, hst]
  case idle => exact next_onChip (by simp [engineBlockIdle, hal, hd, hen, hnone])

end Sys2Proof.Proofs
end

section
/-! PROOF. Settles O42: packet-buffer, hash, cipher and DMA operations of a context (spec/10 Ports). -/

namespace Sys2Proof.Proofs
open Sys2Proof.Machine

/-- The descriptor of a context's cipher operation that waits. -/
theorem ciDesc_waits {c : Chip} {d e x code : Nat} {k : Ctx} {o : PortOp} (h : c.waitsOp d e x .ci code k o) : c.ciDesc d e x = o.a := by
  obtain ⟨-, hk, ho, -⟩ := h
  simp [Chip.ciDesc, hk, ho]

/-- A unit of a legal length that lies within its packet is handed to the pool. -/
theorem handUnit_runs {c : Chip} {code d e x least most assoc slot grows : Nat} {kind : UKind} {k : Ctx} {o : PortOp} {p : Pkt}
    (h : c.waitsOp d e x .ci code k o) (hpb : k.pbDone .ci = true) (hp : k.pkt.bind c.pkt = some p) (hleast : least ≤ bitsN o.b 16 15)
    (hmost : bitsN o.b 16 15 ≤ most) (hin : o.b % 2 ^ 14 + bitsN o.b 16 15 ≤ p.len) (hgrow : p.len + grows ≤ 16384) :
    handUnit code d e x least most assoc slot grows kind c = (c.opStarted d e x .ci).setCp fun q =>
      { q with nextUnit := q.nextUnit + 1, units := tmod [] q.units d fun l => l ++
        [⟨c.cp.nextUnit, kind, false, assoc, slot, none, 0, poolEntries (bitsN o.b 16 15 + grows)⟩] } := by
  have hlegal : ¬ (bitsN o.b 16 15 < least ∨ most < bitsN o.b 16 15 ∨ p.len < o.b % 2 ^ 14 + bitsN o.b 16 15 ∨ 16384 < p.len + grows) := by
    omega
  rw [handUnit, withOp_waits _ h]
  dsimp only
  rw [hp, hpb, Option.map_some, Option.getD_some, if_neg (by decide), if_neg hlegal]

/-- A post of a legal length by an instance that may master the bus, whose turn it is. -/
theorem dmaPost_runs {c : Chip} {d e x : Nat} {k : Ctx} {o : PortOp} (h : c.waitsOp d e x .dma 1 k o) (hpb : k.pbDone .dma = true)
    (hl : k.linesDone .dma = true) (hpos : 0 < bitsN o.a 32 25) (hmax : bitsN o.a 32 25 ≤ 16777216)
    (hst : (c.inst (o.a % 2 ^ 12)).st = .active) (hm : c.fnMasters (o.a % 2 ^ 12) = true)
    (hwait : bitN o.a 12 = false → c.dataWaits d (o.a % 2 ^ 12 / 512) (c.ctxHash k) = false) :
    dmaPost d e x c =
      let write := !bitN o.a 12
      let n := bitsN o.a 32 25
      let data := if bitN o.a 13 then c.stateRead d o.c n else ((k.pkt.bind c.pkt).map fun p => p.read o.c n).getD []
      let t := Xfer.fresh (o.a % 2 ^ 12) 0 [] (.post d e x write) (if write then [] else [(o.b % 2 ^ 48, n)])
      match c.crossData d (o.a % 2 ^ 12 / 512) (c.ctxHash k) (if write then n else 0) with
      | none => c.opDone d e x .dma 0x0E []
      | some c => (c.opStarted d e x .dma).addXfer (o.a % 2 ^ 12 / 512) { t with outs := if write then [(o.b % 2 ^ 48, data)] else [] } := by
  have hturn : (!bitN o.a 12 && c.dataWaits d (o.a % 2 ^ 12 / 512) (c.ctxHash k)) = false := by
    cases hw : bitN o.a 12 with
    | false => rw [hwait hw]; rfl
    | true => rfl
  have hend : ((c.inst (o.a % 2 ^ 12)).st == .free || (c.inst (o.a % 2 ^ 12)).st == .resetting || !c.fnMasters (o.a % 2 ^ 12)) = false := by
    rw [hst, hm]
    rfl
  rw [dmaPost, withOp_waits _ h]
  dsimp only
  rw [hpb, hl, if_neg (by decide), if_neg hpos.ne', if_neg (Nat.not_lt.mpr hmax), if_neg (ne_true_of_eq_false hend),
    if_neg (ne_true_of_eq_false hturn)] <;> rfl

/-- Data does not leave its die. -/
theorem crossData_self (c : Chip) (d hash n : Nat) : c.crossData d d hash n = some c := if_pos rfl

/-- Settles O42. -/
theorem packetPortsComplete : Obligations.PacketPortsComplete := by
  intro s d e x k o p
  refine ⟨fun hw hp => ?read, fun hw hp => ?write, fun hw hp => ?setLength, fun hw hp => ?prepend, fun hw hp => ?remove,
    fun hw hjob hnone hfits => ?allocate, fun hw => ?h1h2, fun hw => ?symmetric, fun hw => ?crc,
    fun hw hpb hp henc h5 hmax hin hgrow => ?tls, fun hw hpb hp h16 hmax hin hlen => ?xts,
    fun hw hpb hl hread hpos hmax hst hm hd => ?dmaRead, fun q hw hpb hl hwrite hpos hmax hst hm hstate hwait hq => ?dmaWrite⟩
  case read => exact next_onChip (by rw [pbRead, packetOp_runs _ hw hp]; rfl)
  case write => exact next_onChip (by rw [pbWrite, packetOp_runs _ hw hp])
  case setLength => exact next_onChip (by rw [pbSetLength, packetOp_runs _ hw hp]; rfl)
  case prepend => exact next_onChip (by rw [pbPrepend, packetOp_runs _ hw hp]; rfl)
  case remove => exact next_onChip (by rw [pbRemove, packetOp_runs _ hw hp])
  case allocate =>
    refine next_onChip ?_
    rw [pbAllocate, withOp_waits _ hw]
    dsimp only
    rw [hjob, hnone, hfits]
    rfl
  case h1h2 => exact next_onChip (by rw [hashH1H2, withOp_waits _ hw])
  case symmetric => exact next_onChip (by rw [hashSymmetric, withOp_waits _ hw])
  case crc => exact next_onChip (by rw [hashCrc, withOp_waits _ hw])
  case tls =>
    refine next_onChip ?_
    unfold cipherTlsRecord
    rw [ciDesc_waits hw]
    dsimp only
    rw [henc]
    exact handUnit_runs hw hpb hp h5 hmax hin hgrow
  case xts =>
    refine next_onChip ?_
    unfold cipherXtsUnit
    rw [ciDesc_waits hw]
    exact handUnit_runs hw hpb hp h16 hmax hin hlen
  case dmaRead =>
    refine next_onChip ?_
    rw [dmaPost_runs hw hpb hl hpos hmax hst hm (by rw [hread]; exact nofun), hread, hd]
    dsimp only
    rw [crossData_self]
    rfl
  case dmaWrite =>
    refine next_onChip ?_
    rw [dmaPost_runs hw hpb hl hpos hmax hst hm fun _ => hwait, hwrite, hstate]
    simp only [Bool.not_false, if_true]
    rw [hq]

end Sys2Proof.Proofs
end

section
/-! PROOF. Settles O43: end actions and re-injection (spec/10 Ending a context, spec/01 The engine path). -/

namespace Sys2Proof.Proofs
open Sys2Proof.Machine

/-- A context that has issued an end action, its packet-buffer operations done, takes it. -/
theorem endAction_ends {c : Chip} {d e x code imm : Nat} {args : List Nat} {k : Ctx} (g : Ctx → Nat → List Nat → Chip → Chip)
    (h : c.ends d e x code imm args k) : endAction code d e x g c = g k imm args c := by
  obtain ⟨hal, hk, hst, hops⟩ := h
  have hall : (k.ops.all fun o => o.port != .pb || o.result.isSome) = true := by
    rw [List.all_eq_true]
    intro o ho
    simpa using hops o ho
  unfold endAction
  rw [hk]
  dsimp only
  rw [hst]
  dsimp only
  rw [hal, hall, beq_self_eq_true]
  rfl

/-- Settles O43. -/
theorem endActionsComplete : Obligations.EndActionsComplete := by
  intro s d e x imm args k p
  refine ⟨fun hend hp => ?reinject, fun q g k' m hold hgate hal hblocks hq hfits hctx => ?slot, fun g3 hend hp hargs hdest => ?enqueue,
    fun hend hp => ?drop, fun j hend hnone hj hfull hreach => ?complete⟩
  case reinject =>
    refine next_onChip ?_
    rw [reinject, endAction_ends _ hend, hp]
  case slot =>
    refine next_onChip ?_
    unfold reinjectSlot
    rw [hold, hgate]
    dsimp only
    rw [← hq, hal, hblocks, hfits, if_neg (by decide), hctx]
  case enqueue =>
    have hsend : (!bitN g3 12 && !s.chip.isPort (g3 % 2 ^ 12)) = false := by
      rcases hdest with h | h
      · rw [h]; rfl
      · rw [h, Bool.not_true, Bool.and_false]
    refine next_onChip ?_
    rw [enqueue, endAction_ends _ hend]
    dsimp only
    rw [hp, hargs, show [g3].getD 0 0 = g3 from rfl]
    dsimp only
    rw [if_neg (ne_true_of_eq_false hsend)]
  case drop =>
    refine next_onChip ?_
    rw [drop, endAction_ends _ hend]
    dsimp only
    rw [hp]
  case complete =>
    refine next_onChip ?_
    rw [complete, endAction_ends _ hend]
    dsimp only
    rw [hfull, hreach, hnone, Option.bind_none, hj]
    rfl

end Sys2Proof.Proofs
end

section
/-! PROOF. Settles O44: doorbells and entries of the channels (spec/13, spec/14). -/

namespace Sys2Proof.Proofs
open Sys2Proof.Machine

/-! ### Doorbells -/

/-- A doorbell of a page that answers runs. -/
theorem doorbell_runs {s : State} {f off : Nat} {g t : Chip → Chip} (hb : s.chip.bellOk f = true) (h : g s.chip = t s.chip) :
    (Host.Outcome.next (s.onChip (doorbell f off g)) : Outcome) = .next (s.onChip t) := by
  refine next_onChip ?_
  rw [doorbell, bellRefused_of_bellOk hb]
  exact h

/-- A restart of a ring that has halted, of a function that is not the steward. -/
theorem restartRing_halted {c : Chip} {f v : Nat} {ds : Bool} (hb : c.bellOk f = true)
    (hh : (if ds then (c.chan f).dsHalt != 0 else (c.chan f).cqHalt != 0) = true) (hf : f ≠ stewardFn) :
    restartRing f ds v c =
      let h := if ds then { (c.chan f).discard [] with dsP := v, dsC := v, dsHalt := 0, shadowDirty := true }
        else { c.chan f with cqP := v, cqC := v, cqHalt := 0, shadowDirty := true }
      let q := (c.setChan f h).setInst f { (c.setChan f h).inst f with fresh := false }
      if ds then q else q.drain f := by
  have hstw : (f == stewardFn && !stwSetupOk (c.chan f)) = false := by simp [hf]
  unfold restartRing
  dsimp only
  rw [hb, hh, if_neg (by decide), if_neg (ne_true_of_eq_false hstw)]
  simp only [if_neg hf]

/-- Entries that have all been performed leave nothing to stop. -/
theorem stopUnrun_of_run {c : Chip} {f status : Nat} {all signal : Bool} (h : (c.chan f).started.all (fun e => e.run) = true) :
    c.stopUnrun f status all signal = c := by
  have hnone : ((c.chan f).started.filter fun e => e.moves all) = [] := by
    rw [List.filter_eq_nil_iff]
    intro e he
    simp [Started.moves, List.all_eq_true.mp h e he]
  rw [Chip.stopUnrun, hnone]
  rfl

/-- An aborted send or copy that has more to issue. -/
theorem abort_moving {x : Xfer} (hk : x.kind = .send ∨ x.kind = .copy) (hs : x.status = none) (hi : x.issued < x.total)
    (hc : x.closed = false) (hb : x.bad = none) : x.abort = { x with status := some St.aborted, aborted := true } := by
  have hstop : x.stop St.aborted = { x with status := some St.aborted } := by
    simp [Xfer.stop, hs, hc, Xfer.poisons, hb]
  have hgo : (x.status.isSome || decide (x.total ≤ x.issued)) = false := by simp [hs, hi]
  unfold Xfer.abort
  rcases hk with h | h
  · rw [h]
    dsimp only
    rw [if_neg (ne_true_of_eq_false hgo), hstop]
    simp only [h]
  · rw [h]
    dsimp only
    rw [if_neg (ne_true_of_eq_false hgo), hstop]
    simp only [h]

/-! ### Fetch and start -/

/-- A fetch whose pieces have mappings and whose requests have tags. -/
theorem fetchRead_goes {c c' : Chip} {f lo hi : Nat} {ps : List (Nat × Nat)} {reqs : List (Nat × Nat × Nat)}
    (hx : Chip.xlateAll f (pieces 3 ((c.chan f).dsBase + 32 * (((c.chan f).fetchAt + lo) % 2 ^ (c.chan f).dsK)) (32 * (hi - lo))) c =
      (some ps, c'))
    (hr : reqs = pieceReads (c.fn (pfOfKey (c.fnPci f))).mrrs (32 * lo) ps)
    (ht : reqs.length ≤ (c.freeTags (pfOfKey (c.fnPci f)) reqs.length).length) :
    c.fetchRead f lo hi = ((c.freeTags (pfOfKey (c.fnPci f)) reqs.length).zip reqs).foldl
      (fun q r => q.issueTag f r.1 (.fetch (c.chan f).fetch.gen) r.2.1 r.2.2.1 r.2.2.2 false)
      (c'.setChan f { c.chan f with
        fetch := { (c.chan f).fetch with bytes := slice (c.chan f).fetch.bytes 0 (32 * hi), open_ := reqs.length } }) := by
  unfold Chip.fetchRead
  dsimp only
  rw [hx]
  dsimp only
  rw [← hr, if_neg (Nat.not_lt.mpr ht)]

/-- The later of two writes of a channel stands, where the earlier is not of a channel before its creation. -/
theorem setChan_setChan (c : Chip) (f : Nat) {h h' : Chan} (hn : h ≠ Chan.none) : (c.setChan f h).setChan f h' = c.setChan f h' :=
  congrArg (fun t => { c with chans := t }) (tput_tput _ _ _ hn)

/-- Settles O44. -/
theorem channelRowsComplete : Obligations.ChannelRowsComplete := by
  intro s f
  refine ⟨fun v hb hh hlap hfwd => ?prod, fun v hb hh hlap hback => ?prodBack, fun v hb hh hlap => ?cons, fun v hb hh hf => ?dsRestart,
    fun v hb hh hf => ?cqRestart, fun v hb hh hv => ?invalidate, fun v n x hb hv hx hrun hring hfn hst hk hi hc hbad => ?abort,
    fun lo hi ps c' reqs hf hopen hposted hcache hcase hxl hreqs htags => ?fetch, fun b rest hcache hring hb hmay hok => ?start,
    fun b rest hcache hring hb hord => ?pad, fun e hrun => ?nop, fun e hrun hmin hmax hroom => ?rxPost,
    fun c' a hon hdirty hm hst ht => ?shadow, fun v hb hv hp => ?armSend, fun v hb hv hp => ?arm, fun hal hp harm htime => ?timer⟩
  case prod =>
    refine doorbell_runs hb ?_
    simp [chnDsProd, hb, hh, Nat.not_lt.mpr hlap, Nat.not_lt.mpr hfwd]
  case prodBack =>
    refine doorbell_runs hb ?_
    simp [chnDsProd, hb, hh, Nat.not_lt.mpr hlap, hback]
  case cons =>
    refine doorbell_runs hb ?_
    simp [chnCqCons, hb, hh, Nat.not_lt.mpr hlap]
  case dsRestart => exact doorbell_runs hb (restartRing_halted hb (by simpa using hh) hf)
  case cqRestart => exact doorbell_runs hb (restartRing_halted hb (by simpa using hh) hf)
  case invalidate =>
    refine doorbell_runs hb ?_
    simp only [chnInvalidate, hb, hh, hv]
    rfl
  case abort =>
    refine doorbell_runs hb ?_
    unfold chnAbort
    rw [hb, hv, if_neg (by decide)]
    dsimp only
    rw [hx]
    refine (stopUnrun_of_run (c := s.chip.setDma _ _) hrun).trans ?_
    simp [hfn, abort_moving hk hst hi hc hbad]
  case fetch =>
    refine next_onChip ?_
    have hgo : (!s.chip.fetches f || (s.chip.chan f).fetch.open_ != 0 || (s.chip.chan f).posted == 0 ||
        decide (8 ≤ cacheSlots (s.chip.chan f).cache)) = false := by
      simp [hf, hopen, hposted, hcache]
    rw [← fetchRead_goes hxl hreqs htags]
    unfold entryFetch
    dsimp only
    rw [if_neg (ne_true_of_eq_false hgo)]
    rcases hcase with ⟨hheld, rfl, rfl⟩ | ⟨hheld, hgood, rfl, rfl, hcover, hroom⟩
    · rw [if_pos hheld]
    · rw [if_neg hheld, if_neg (ne_true_of_eq_false hgood), if_neg (by omega)]
  case start =>
    refine next_onChip ?_
    have hgo : (!s.chip.runsRing f || byteAt b 1 == 0) = false := by simp [hring, hb]
    have hfresh : ∀ h : Chan, { h with shadowDirty := true } ≠ Chan.none := fun h he => by
      simpa [Chan.none] using congrArg Chan.shadowDirty he
    unfold entryStart
    dsimp only
    rw [hcache]
    dsimp only
    rw [if_neg (ne_true_of_eq_false hgo), hmay, if_neg (by decide), Chip.consume, chan_setChan]
    dsimp only
    rw [hok]
    exact setChan_setChan _ _ (hfresh { s.chip.chan f with cache := rest, waits := none, dsC := wrapAdd 32 (s.chip.chan f).dsC (entrySlots b) })
  case pad => exact next_onChip (by simp only [padEntry, hcache, hring, hb, hord]; rfl)
  case nop =>
    refine next_onChip ?_
    rw [nopEntry, runEntry_toRun _ hrun]
  case rxPost =>
    refine next_onChip ?_
    obtain ⟨hal, hnext⟩ := hrun
    unfold rxPost
    rw [hal, if_pos rfl, hnext]
    dsimp only
    rw [if_neg (by omega), if_neg (Nat.not_le.mpr hroom)]
  case shadow =>
    refine next_onChip ?_
    have hgo : (s.chip.on (s.chip.fnDie f) 15 && (s.chip.chan f).shadowDirty && s.chip.fnMasters f &&
        (f == stewardFn || ((s.chip.inst f).st != .free && (s.chip.inst f).st != .resetting))) = true := by
      rw [hon, hdirty, hm]
      simpa using hst
    unfold shadowWrite
    dsimp only
    rw [if_pos hgo, ht]
    rfl
  case armSend =>
    refine doorbell_runs hb ?_
    simp only [dmaModArm, hb, hv, hp]
    rfl
  case arm =>
    refine doorbell_runs hb ?_
    simp only [dmaModArm, hb, hv, hp]
    rfl
  case timer => exact next_onChip (by simp [moderationTimer, hal, hp, harm, htime])

end Sys2Proof.Proofs
end

section
/-! PROOF. Settles O45: transfers, bursts and read tags (spec/11, spec/14). -/

namespace Sys2Proof.Proofs
open Sys2Proof.Machine

/-- Marking an entry as performed keeps the entry format of its channel. -/
theorem markRun_ver (c : Chip) (f seq : Nat) : ((c.markRun f seq).chan f).ver = (c.chan f).ver := by
  rw [Chip.markRun, chan_setChan]

/-- A list whose members all have a property, so that nothing of it is kept for lacking it. -/
theorem filter_filter_none {α : Type} {l : List α} {p q : α → Bool} (h : ∀ y ∈ l, p y = true → q y = false) :
    (l.filter p).filter q = [] := by
  rw [List.filter_eq_nil_iff]
  intro y hy
  obtain ⟨hmem, hp⟩ := List.mem_filter.mp hy
  simp [h y hmem hp]

/-- The last successful completion of a live request frees its tag and hands on its data. -/
theorem readCompletion_success {c : Chip} {port link tag : Nat} {b : Bytes} (hl : c.linkUp port link = true)
    (hst : (c.tag (tagKey port link tag)).st = .outstanding) (hp : (c.tag (tagKey port link tag)).poisoned = false) :
    readCompletion port link tag .success b.length b c =
      (c.setTag (tagKey port link tag) Tag.none).takeData (c.tag (tagKey port link tag)) b true := by
  unfold readCompletion
  dsimp only
  rw [hl, hst]
  simp [hp]

/-- Settles O45. -/
theorem transferRowsComplete : Obligations.TransferRowsComplete := by
  intro s f e
  refine ⟨fun hrun hver hmin hmax hsum hseg hts hok => ?send, fun hrun hpos hmax => ?copy, fun hrun hop => ?storage,
    fun die n x hon hnext cells => ?readBurst, fun die n x hon hmaps hnext cells => ?writeBurst,
    fun port link tag b x d n burst hl hst hp huse hx => ?data, fun port link tag b gen hl hst hp huse => ?fetched,
    fun port link tag hal hst htime hp hhold => ?timeout, fun port link tag hal hst htime => ?hold,
    fun die n x t hal hx hk hw hend => ?ends⟩
  case send =>
    refine next_onChip ?_
    have hlen : ¬(leAt e.bytes 12 4 < 14 ∨ (if (sendFields (slice e.bytes 16 16)).segEn then 262656 else 16380) < leAt e.bytes 12 4 ∨
        ((sendSegs e.bytes).map Prod.snd).sum ≠ leAt e.bytes 12 4) := by
      simp only [hseg, hsum]
      simp only [Bool.false_eq_true, if_false]
      omega
    rw [txSend, runEntry_toRun _ hrun]
    simp only [markRun_ver, if_neg hver]
    rw [if_neg hlen, hok]
    simp only [hts]
    rfl
  case copy =>
    refine next_onChip ?_
    rw [dmaCopy, runEntry_toRun _ hrun]
    dsimp only
    rw [if_neg (by omega), if_neg (by omega)]
    rfl
  case storage =>
    refine next_onChip ?_
    rw [storageCmd, runEntry_toRun _ hrun]
    simp [hop]
  case readBurst =>
    refine next_onChip ?_
    unfold burstIssue
    dsimp only
    rw [hon, hnext]
    rfl
  case writeBurst =>
    refine next_onChip ?_
    have hnone : ((s.chip.dma die).xfers.filter (s.chip.writeReady die)).filter (fun e => byteAt e.2.ent 1 == 0x56) = [] :=
      filter_filter_none fun y hy hr => by simpa using hmaps y hy hr
    unfold burstIssue
    dsimp only
    rw [hon, hnone]
    simp only [List.isEmpty_nil, if_true]
    rw [hnext]
    rfl
  case data =>
    refine next_onChip ?_
    rw [readCompletion_success hl hst hp, Chip.takeData, huse]
    dsimp only
    rw [show (s.chip.setTag (tagKey port link tag) Tag.none).xfer d n = some x from hx]
    rfl
  case fetched =>
    refine next_onChip ?_
    rw [readCompletion_success hl hst hp, Chip.takeData, huse]
  case timeout =>
    refine next_onChip ?_
    have hgo : (!s.chip.alive || decide (10 * (s.chip.steady - (s.chip.tag (tagKey port link tag)).since) <
        9 * (s.chip.tag (tagKey port link tag)).limit)) = false := by
      rw [hal, Bool.not_true, Bool.false_or, decide_eq_false_iff_not, Nat.not_lt]
      exact htime
    unfold readTimeout
    dsimp only
    rw [if_neg (ne_true_of_eq_false hgo), hst, hp, hhold, if_pos rfl]
    rfl
  case hold => exact next_onChip (by simp [tagHoldExpiry, hal, hst, htime])
  case ends =>
    refine next_onChip ?_
    rw [transferEnd, hal, hx]
    simp [hw, hend, hk]

end Sys2Proof.Proofs
end

section
/-! PROOF. Settles O46: the steward's rows of instances (spec/12). -/

namespace Sys2Proof.Proofs
open Sys2Proof.Machine

/-- The row of an entry that names an instance which is there and not being reset. -/
theorem instEntry_names {c : Chip} {typ i : Nat} {e : Started} {g : Started → Nat → Chip → Chip} (hrun : c.toRun stewardFn typ e)
    (hi : leAt e.bytes 8 2 = i) (hdie : i < 512 * c.dies) (hfree : ((c.inst i).st == .free) = false)
    (hreset : ((c.inst i).st == .resetting) = false) : instEntry typ g c = g e i (c.markRun stewardFn e.seq) := by
  have hmark : (c.markRun stewardFn e.seq).inst i = c.inst i := rfl
  have hin : ¬ 512 * (c.markRun stewardFn e.seq).dies ≤ i := Nat.not_le.mpr hdie
  rw [instEntry, runEntry_toRun _ hrun]
  dsimp only
  rw [hi, if_neg hin, hmark, hfree, hreset]
  rfl

/-! ### Creation (R345–R347) -/

/-- The instance that a create makes. -/
def newInst (b : Bytes) : Inst := { Inst.none with
  st := .active, port := byteAt b 10, pf := byteAt b 11, vf := leAt b 12 2, vectors := byteAt b 14, entryVer := min (byteAt b 17) 2
  keyBase := leAt b 48 2, keyCount := leAt b 50 2, quota := leAt b 52 4 }

/-- Its channel. -/
def newChan (b : Bytes) (serial : Nat) : Chan := { Chan.none with
  dsBase := leAt b 24 8, cqBase := leAt b 32 8, shadow := leAt b 40 8, dsK := byteAt b 18, cqK := byteAt b 19
  ver := min (byteAt b 17) 2, verNew := min (byteAt b 17) 2, serial := serial }

/-- The part with an instance created from an entry, but for its QoS settings. -/
def created (c : Chip) (b : Bytes) : Chip :=
  let i := leAt b 8 2
  { ((c.setInst i (newInst b)).setChan i (newChan b (c.chan i).serial)).emptyKeys i with
    keygens := tput 0 c.keygens i (wrapAdd 32 (c.keygen i) 1) }

/-- The QoS settings of a create come into force. -/
def withQos (c : Chip) (i : Nat) (g : Option QosChange) : Chip :=
  match g with
  | some (.inst _ g) => c.setQs fun s => { s with qos := c.allDies.foldl (fun t d => tput Qos.none t (d * 4096 + i) g) s.qos }
  | _ => c

section QosKeeps
variable (c : Chip) (i : Nat) (g : Option QosChange)

theorem withQos_inst (j : Nat) : (withQos c i g).inst j = c.inst j := by
  unfold withQos
  split <;> rfl

theorem withQos_chan (j : Nat) : (withQos c i g).chan j = c.chan j := by
  unfold withQos
  split <;> rfl

theorem withQos_keygen (j : Nat) : (withQos c i g).keygen j = c.keygen j := by
  unfold withQos
  split <;> rfl

theorem withQos_cp : (withQos c i g).cp = c.cp := by
  unfold withQos
  split <;> rfl

end QosKeeps

theorem instanceCreate_created {c : Chip} {e : Started} (hrun : c.toRun stewardFn 0x50 e)
    (hok : (c.markRun stewardFn e.seq).createFails e.bytes = none) :
    instanceCreate c = (withQos (created (c.markRun stewardFn e.seq) e.bytes) (leAt e.bytes 8 2)
      (Chg.qos (createQos e.bytes (leAt e.bytes 8 2)))).endWith stewardFn e St.ok 0 0
      (toLE 2 (leAt e.bytes 8 2) ++ toLE 1 (min (byteAt e.bytes 17) 2) ++ toLE 1 0 ++
        toLE 4 (wrapAdd 32 (c.keygen (leAt e.bytes 8 2)) 1)) := by
  rw [instanceCreate, runEntry_toRun _ hrun]
  dsimp only
  rw [hok]
  generalize Chg.qos _ = g
  cases g with
  | none => rfl
  | some g => cases g <;> rfl

theorem inst_setInst (c : Chip) (i : Nat) (x : Inst) : (c.setInst i x).inst i = x := tget_tput_same ..

theorem created_inst (c : Chip) (b : Bytes) : (created c b).inst (leAt b 8 2) = newInst b := inst_setInst c (leAt b 8 2) (newInst b)

theorem created_chan (c : Chip) (b : Bytes) : (created c b).chan (leAt b 8 2) = newChan b (c.chan (leAt b 8 2)).serial :=
  chan_setChan (c.setInst _ _) _ _

theorem created_keygen (c : Chip) (b : Bytes) : (created c b).keygen (leAt b 8 2) = wrapAdd 32 (c.keygen (leAt b 8 2)) 1 :=
  tget_tput_same (d := 0) (t := c.keygens) ..

theorem created_keygen_ne (c : Chip) (b : Bytes) {j : Nat} (h : j ≠ leAt b 8 2) : (created c b).keygen j = c.keygen j :=
  tget_tput_ne 0 c.keygens _ h

/-- The key range of a new instance is empty. -/
theorem created_keys (c : Chip) (b : Bytes) {k : Nat} (hlo : leAt b 48 2 ≤ k) (hhi : k < leAt b 48 2 + leAt b 50 2) :
    tget none (created c b).cp.keySlots (leAt b 8 2 / 512 * 65536 + k) = none := by
  have hinst : ((c.setInst (leAt b 8 2) (newInst b)).setChan (leAt b 8 2) (newChan b (c.chan (leAt b 8 2)).serial)).inst (leAt b 8 2) =
    newInst b := inst_setInst c (leAt b 8 2) (newInst b)
  unfold created Chip.emptyKeys
  dsimp only [Chip.setCp]
  rw [tget_tdrop, hinst, if_pos]
  show (decide (leAt b 8 2 / 512 * 65536 + leAt b 48 2 ≤ leAt b 8 2 / 512 * 65536 + k) &&
    decide (leAt b 8 2 / 512 * 65536 + k < leAt b 8 2 / 512 * 65536 + leAt b 48 2 + leAt b 50 2)) = true
  rw [Bool.and_eq_true, decide_eq_true_eq, decide_eq_true_eq]
  omega

theorem markRun_serial (c : Chip) (f g seq : Nat) : ((c.markRun f seq).chan g).serial = (c.chan g).serial := by
  rcases eq_or_ne g f with rfl | h
  · rw [Chip.markRun, chan_setChan]
  · exact congrArg Chan.serial (tget_tput_ne _ _ _ h)

/-! ### Dirty tracking (R361) -/

/-- With no other instance tracked, none of the die is counted. -/
theorem others_untracked {c : Chip} {i : Nat} (h : ∀ o ∈ c.insts, o.1 ≠ i → o.2.tracking = none) :
    (c.insts.filter fun o => o.1 / 512 == i / 512 && o.1 != i && o.2.tracking.isSome) = [] := by
  rw [List.filter_eq_nil_iff]
  intro o ho hcounts
  simp only [Bool.and_eq_true, bne_iff_ne] at hcounts
  obtain ⟨⟨_, hne⟩, hsome⟩ := hcounts
  simp [h o ho hne] at hsome

/-- Settles O46. -/
theorem instanceRowsComplete : Obligations.InstanceRowsComplete := by
  intro s e i hi hdie
  have hmark : (s.chip.markRun stewardFn e.seq).inst i = s.chip.inst i := rfl
  refine ⟨fun hok hrun => ?create, fun hrun hst => ?destroy, fun hrun hst => ?reset, fun d hal hst hd => ?resetDone,
    fun new hrun hst hok hnew hroom => next_onChip (mapSet_runs hrun hi hdie hst hok hnew hroom),
    fun hrun hst hok => next_onChip (mapClear_runs hrun hi hdie hst hok), fun hal hwait htags hfind => ?settled,
    fun hrun hst hpos hmax hal hothers => ?dirtyStart, fun t hrun hst ht hrange hal => ?dirtySync, fun t hrun hst ht => ?dirtyStop,
    fun hrun hst => ?freeze, fun hal hfr hst hidle => ?drained, fun hrun hst => ?thaw⟩
  case create =>
    subst hi
    have hchan := created_chan (s.chip.markRun stewardFn e.seq) e.bytes
    rw [markRun_serial] at hchan
    refine gives_onChip rfl ⟨_, instanceCreate_created hrun hok, ?_, ?_, ?_, fun j hj => ?_, fun k hl hh => ?_⟩
    · rw [withQos_inst, created_inst]
      rfl
    · rw [withQos_chan, hchan]
      rfl
    · rw [withQos_keygen, created_keygen]
      rfl
    · rw [withQos_keygen, created_keygen_ne _ _ hj]
      rfl
    · rw [withQos_cp, created_keys _ _ hl hh]
  case destroy =>
    refine next_onChip ?_
    have hin : ¬ 512 * (s.chip.markRun stewardFn e.seq).dies ≤ i := Nat.not_le.mpr hdie
    rw [instanceDestroy, runEntry_toRun _ hrun]
    dsimp only
    rw [hi, if_neg hin, hmark, beq_false_of_ne hst]
    rfl
  case reset =>
    refine next_onChip ?_
    rw [instanceReset, instEntry_runs hrun hi hdie hst]
  case resetDone =>
    refine next_onChip ?_
    simp [instanceResetDone, hal, hst, hd]
  case settled =>
    refine next_onChip ?_
    have hnone : (s.chip.tags.any fun t => t.2.fn == i && (t.2.st == .outstanding || t.2.st == .quarantined)) = false := by
      rw [List.any_eq_false]
      intro t ht hbusy
      simp only [Bool.and_eq_true, beq_iff_eq, Bool.or_eq_true] at hbusy
      obtain ⟨hfn, hout⟩ := hbusy
      exact hout.elim (htags t ht hfn).1 (htags t ht hfn).2
    rw [mapSettled, hfind]
    dsimp only
    rw [hi, hal, hwait, hnone]
    rfl
  case dirtyStart =>
    refine next_onChip ?_
    rw [dirtyStart, instEntry_runs hrun hi hdie hst]
    dsimp only
    rw [if_neg (by omega), if_neg (by omega), show (s.chip.markRun stewardFn e.seq).insts = s.chip.insts from rfl, others_untracked hothers,
      if_neg (by decide), hmark]
  case dirtySync =>
    refine next_onChip ?_
    rw [dirtySync, instEntry_runs hrun hi hdie hst]
    dsimp only
    rw [hmark, ht]
    dsimp only
    rw [if_neg (by omega), hrange]
    rfl
  case dirtyStop =>
    refine next_onChip ?_
    rw [dirtyStop, instEntry_runs hrun hi hdie hst]
    dsimp only
    rw [hmark, ht]
    rfl
  case freeze =>
    refine next_onChip ?_
    rw [freeze, instEntry_runs hrun hi hdie hst]
    dsimp only
    rw [hmark, hst]
    rfl
  case drained =>
    refine next_onChip ?_
    simp [freezeDrained, hal, hfr, hst, hidle]
  case thaw =>
    refine next_onChip ?_
    rw [thaw, instEntry_names hrun hi hdie (by rw [hst]; rfl) (by rw [hst]; rfl)]
    dsimp only
    rw [hmark, hst]
    rfl

end Sys2Proof.Proofs
end

section
/-! PROOF. Settles O47: the migration blob (spec/12, Migration). -/

namespace Sys2Proof.Proofs
open Sys2Proof.Machine

/-- What a blob of format 1 that has been read leaves, where its instance takes one and its head is well formed. -/
theorem restoreBlob_format1 {c : Chip} {kek i : Nat} {e : Started} {b : Bytes} (htakes : (c.inst i).takesBlob = true) (hver : byteAt b 4 = 1)
    (hmagic : beAt b 0 4 = 0x4C4D4947) (hlen : beAt b 12 4 ≤ b.length) (hmin : 164 ≤ beAt b 12 4) :
    c.restoreBlob kek e i b =
      match openWrap (c.kekScalar kek stewardFn) (slice b 28 120) with
      | none => c.endWith stewardFn e St.unwrapFail 0 b.length
      | some k =>
        let r := opened 3 k (slice b 16 12) (slice b 0 148) (slice b 148 (beAt b 12 4 - 148 - 16)) (slice b (beAt b 12 4 - 16) 16)
        let l := readSections (beAt b 10 2) r.1
        if r.2 = false then c.endWith stewardFn e St.unwrapFail 0 b.length
        else if byteAt (sectionOf l 1) 0 ≠ (c.inst i).entryVer ∨ ((chunks 80 ((sectionOf l 4).length / 80) (sectionOf l 4)).any
            fun k => decide ((c.inst i).keyCount ≤ beAt k 0 2)) then c.endWith stewardFn e St.restoreMismatch 0 b.length
        else (c.loadBlob i 1 l).endWith stewardFn e St.ok b.length := by
  have hhead : ∀ ok : Bool, (!ok ∨ beAt b 0 4 ≠ 0x4C4D4947 ∨ b.length < beAt b 12 4 ∨ beAt b 12 4 < 148 + 16) ↔ ok = false := by
    intro ok
    rw [Bool.not_eq_true']
    exact ⟨fun h => h.elim id fun h => by omega, Or.inl⟩
  have htake : (!(c.inst i).takesBlob) = false := by rw [htakes]; rfl
  unfold Chip.restoreBlob
  dsimp only
  rw [if_neg (ne_true_of_eq_false htake), hver]
  simp only [if_true, hhead, List.any_map, Function.comp_def] <;> rfl

/-- Settles O47. -/
theorem migrationCompletes : Obligations.MigrationCompletes := by
  intro s e i hi hdie
  have hmark : (s.chip.markRun stewardFn e.seq).inst i = s.chip.inst i := rfl
  refine ⟨fun blob hrun hst hver hblob hdest => ?save, fun hrun hread htakes => ?restore,
    fun n x b hal hread hfind hent hb htakes hver hmagic hlen hmin => ?load⟩
  case save =>
    refine next_onChip ?_
    rw [save, instEntry_names hrun hi hdie (by rw [hst]; rfl) (by rw [hst]; rfl)]
    dsimp only
    rw [hmark, if_neg (not_not.mpr hst), if_neg (Nat.not_lt.mpr hver), ← hblob]
    simp only [hdest, ne_eq, not_true_eq_false, false_or]
  case restore =>
    refine next_onChip ?_
    have hst : (s.chip.inst i).st = .active := by
      simp only [Inst.takesBlob, Bool.and_eq_true, beq_iff_eq] at htakes
      exact htakes.1.1
    unfold restore
    rw [hread]
    dsimp only
    rw [instEntry_runs hrun hi hdie hst, hmark, if_pos htakes]
  case load =>
    refine next_onChip ?_
    subst hb
    unfold restore
    rw [hread]
    dsimp only
    rw [hfind, hal, hent]
    exact restoreBlob_format1 (c := s.chip.delXfer s.chip.stwDie n) htakes hver hmagic hlen hmin

end Sys2Proof.Proofs
end

section
/-! PROOF. Settles O48: PCI Express functions and host links (spec/11, R493). -/

namespace Sys2Proof.Proofs
open Sys2Proof.Machine

/-- A link that comes up shows it. -/
theorem setHostLink_up {c : Chip} {port link speed width : Nat} {flit : Bool} (hal : c.alive = true) (hl : link < 2) :
    (c.setHostLink port link speed width true flit).linkUp port link = true := by
  have hword : (b2n true + (speed % 8) * 2 + (width % 32) * 16 + b2n flit * 512).testBit 0 = true := by
    rw [Nat.testBit_zero, decide_eq_true_eq, show b2n true = 1 from rfl]
    omega
  have hset (q : Chip) (x : Nat) (hx : x.testBit 0 = true) :
      (q.wfld (port / 4) (R.hepEpStatus (port % 4)) (16 * link) 10 x).bit (port / 4) (R.hepEpStatus (port % 4)) (16 * link) = true := by
    rw [bit_wfld_same _ _ _ _ (by omega) (by omega), Nat.sub_self, hx]
  unfold Chip.setHostLink
  dsimp only
  rw [if_pos rfl]
  split
  · exact (Bool.and_eq_true _ _).mpr ⟨hal, hset _ _ hword⟩
  · refine (Bool.and_eq_true _ _).mpr ⟨hal, ?_⟩
    rw [bit_wfld_other _ _ _ _ (by omega) (by omega)]
    exact hset _ _ hword

theorem onFn_fn (c : Chip) (fn : FnId) (f : PciFn → PciFn) : (c.onFn fn f).fn (fnKey fn) = f (c.fn (fnKey fn)) := tget_tput_same ..

/-- Any reset of a link but PERST_N leaves the fuses, the NVM and the recovery registers. -/
theorem conventionalReset_off {s : State} {port link : Nat} {cause : LinkResetCause}
    (h : (s.chip.recovering && cause = .perst && port == s.chip.boot.rcvPort.toNat) = false) :
    exec (.conventionalReset port link cause) s = .next (s.onChip (conventionalReset port link cause)) := by
  show Host.Outcome.next (conventionalResetAll port link cause s) = _
  unfold conventionalResetAll
  dsimp only
  rw [if_neg (ne_true_of_eq_false h)]
  rfl

/-- PERST_N of a port falls: its level is held, and resets the links of a part that runs. -/
theorem perst_taken {c : Chip} {port link : Nat} (hdie : c.hasDie (port / 4) = true) (hp : port ∉ c.pwr.perst) :
    conventionalReset port link .perst c =
      let q := { c with pwr := { c.pwr with perst := c.pwr.perst ++ [port] } }
      if c.alive then (q.linksOf port).foldl (fun c l => c.resetLink port l) q else q := by
  unfold conventionalReset
  dsimp only
  rw [if_pos hdie, if_pos rfl, show c.pwr.perst.contains port = false by simpa using hp]
  rfl

/-- Settles O48. -/
theorem hostRowsComplete : Obligations.HostRowsComplete := by
  intro s fn port link
  refine ⟨fun hth hb => ?clearBme, fun hth hb => ?setBme, fun hth hd => ?d3, fun hth hd => ?d0, fun hth => ?flrPf, fun vf i hth hinst => ?flrVf,
    fun hdie => ?release, fun speed width flit hmay hl hfit => ?up, fun hth hen => ?vfClear, fun hth => ?vfSet, fun n hth hn hen => ?numVfs,
    fun hth => ?unmaskAll, fun v hth hv hnew => ?unmask, fun cause hc hal hdie hl => ?reset, fun hal hdie hrec hp => ?perstDead,
    fun hal hdie hrec hp => ?perst⟩
  case clearBme => exact next_onChip (by simp [busMasterEnableClear, hth, hb])
  case setBme => exact next_onChip (by simp [busMasterEnableSet, hth, hb])
  case d3 => exact next_onChip (by simp [d3hotEntry, hth, hd])
  case d0 => exact next_onChip (by simp [d0Return, hth, hd])
  case flrPf => exact next_onChip (by simp [initiateFlr, hth])
  case flrVf => exact next_onChip (by simp [initiateFlr, hth, hinst])
  case release => exact gives_onChip rfl (by simp [perstRelease, State.onChip, hdie])
  case up =>
    have hal : s.chip.alive = true := by
      simp only [Chip.mayTrain, Bool.and_eq_true] at hmay
      exact hmay.1.1.1.1
    refine gives_onChip rfl ?_
    have hgo : (s.chip.mayTrain port link && s.chip.linkFits port speed width flit) = true := by rw [hmay, hfit]; rfl
    rw [State.onChip, hostLinkChange, if_pos rfl, if_pos hgo]
    exact setHostLink_up hal hl
  case vfClear => exact next_onChip (by simp [vfEnableClear, hth, hen])
  case vfSet =>
    refine gives_onChip rfl ?_
    rw [State.onChip, vfEnableSet, if_pos hth]
    exact onFn_fn ..
  case numVfs =>
    refine gives_onChip rfl ?_
    have hgo : (s.chip.fnThere (.pf port link) && decide (n ≤ s.chip.totalVfs port link)) = true := by simp [hth, hn]
    rw [State.onChip, numvfsWrite, if_pos hgo, hen]
    exact onFn_fn ..
  case unmaskAll => exact next_onChip (by simp [msixUnmask, hth])
  case unmask => exact next_onChip (by simp [msixUnmask, hth, Chip.onFn, hv, hnew])
  case reset =>
    rw [conventionalReset_off (by simp [hc])]
    exact next_onChip (by simp [conventionalReset, hdie, hc, hal, hl])
  case perstDead =>
    rw [conventionalReset_off (by simp [hrec])]
    refine next_onChip ?_
    rw [perst_taken hdie hp, if_neg (ne_true_of_eq_false hal)]
  case perst =>
    rw [conventionalReset_off (by simp [hrec])]
    refine next_onChip ?_
    rw [perst_taken hdie hp, if_pos hal]

end Sys2Proof.Proofs
end

section
/-! PROOF. Settles O49 and O50: neighbours, publication and the epoch barrier of the Span protocol (spec/15). -/

namespace Sys2Proof.Proofs
open Sys2Proof.Machine

/-! ### Received frames (R415–R421) -/

theorem count_neigh (c : Chip) (d : Nat) (a : RegAddr) (n lane : Nat) : (c.count d a n).neigh lane = c.neigh lane := by
  rw [Chip.neigh, Chip.count_sp, Chip.neigh]

/-- A frame that passes the checks of every HSP frame is acted on by the chip that has counted it. -/
theorem hspFrameIn_taken {c q : Chip} {lane : Nat} {b : Bytes} (g : Hsp → Chip → Chip) (h : c.hspTaken lane b q) :
    hspFrameIn lane b g c = g (Hsp.ofFrame b) q := by
  obtain ⟨rfl, _, hdom, hlen, hlo, hhi, hown, hst, hsrc, hver, hsince⟩ := h
  have hform : ¬((Hsp.ofFrame b).domain ≠ (c.count (lane / 64) (R.spnEvtCnt 0)).rd (lane / 64) R.spnDomain ∨
      b.length < 30 + (Hsp.ofFrame b).len ∨ (Hsp.ofFrame b).typ = 0 ∨ 7 < (Hsp.ofFrame b).typ) := by
    rintro (h | h)
    · exact h hdom
    · omega
  have hdev : ¬((c.neigh lane).st ≠ .down ∧ (Hsp.ofFrame b).src ≠ (c.neigh lane).device ∧
      !((Hsp.ofFrame b).typ == 1 && (c.neigh lane).st == .up)) := fun h => h.2.1 hsrc
  have hnever : (!((Hsp.ofFrame b).typ == 1) && ((Hsp.ofFrame b).ver != (c.neigh lane).version || (c.neigh lane).st == .down ||
      (c.neigh lane).st == .versionFail || decide ((Hsp.ofFrame b).ver < Hsp.since (Hsp.ofFrame b).typ))) = false := by
    simp [hver, hst, hver ▸ hsince]
  unfold hspFrameIn
  dsimp only
  rw [if_neg hform, if_neg hown, if_neg hdev, if_neg (ne_true_of_eq_false hnever)]

theorem hspTaken_here {c q : Chip} {lane : Nat} {b : Bytes} (h : c.hspTaken lane b q) : c.hspHere lane b = true := h.2.1

theorem hspTaken_neigh {c q : Chip} {lane : Nat} {b : Bytes} (h : c.hspTaken lane b q) : q.neigh lane = c.neigh lane := by
  rw [h.1, count_neigh]

/-- A barrier message of its type, from a wave neighbour, where no wave is remembered. -/
theorem barrierIn_taken {c q : Chip} {lane typ : Nat} {b : Bytes} (g : Nat → Nat → Bytes → Chip → Chip) (h : c.hspTaken lane b q)
    (ht : byteAt b 16 = typ) (hw : (q.neigh lane).inWave = true) (hp : q.sp.barrier.past = []) :
    barrierIn lane typ b g c = g (beAt (Hsp.ofFrame b).body 0 2) (beAt (Hsp.ofFrame b).body 4 4) (Hsp.ofFrame b).body q := by
  have hknows (coord id : Nat) : q.knows coord id = false := by rw [Chip.knows, hp]; rfl
  have hgo : (!c.hspHere lane b || byteAt b 16 != typ) = false := by simp [hspTaken_here h, ht]
  rw [barrierIn, if_neg (ne_true_of_eq_false hgo), hspFrameIn_taken _ h]
  dsimp only
  rw [hw, hknows]
  rfl

/-! ### Neighbours and publication -/

/-- Settles O49. -/
theorem neighbourRowsComplete : Obligations.NeighbourRowsComplete := by
  intro s lane b
  refine ⟨fun d hon htime => ?timer, fun q h ht hb hmin hmax => ?hello, fun hon htime => ?hold, fun q h ht hb hseq hin => ?publish,
    fun q h ht hb => ?ack, fun seq evs l hon hst hun htime => ?resend, fun e out hrun hout hfit => ?list,
    fun e hrun hen hlane hall hport hst => ?republish⟩
  case timer => exact next_onChip (by simp [helloTimer, hon, htime])
  case hello =>
    refine next_onChip ?_
    have hgo : (!s.chip.hspHere lane b || (decide (1 < byteAt b 16) && decide (byteAt b 16 < 8))) = false := by simp [hspTaken_here h, hb]
    obtain ⟨_, _, _, _, _, _, _, hst, hsrc, _⟩ := id h
    rw [hello, if_neg (ne_true_of_eq_false hgo), hspFrameIn_taken _ h]
    simp [hspTaken_neigh h, hmin, hmax, hsrc]
  case hold => exact next_onChip (by simp [neighbourHoldExpiry, hon, htime])
  case publish =>
    refine next_onChip ?_
    have hgo : (!s.chip.hspHere lane b || byteAt b 16 != 2) = false := by simp [hspTaken_here h, hb]
    rw [publish, if_neg (ne_true_of_eq_false hgo), hspFrameIn_taken _ h]
    dsimp only
    rw [hspTaken_neigh h, if_pos hseq, hseq, if_pos]
    exact hin
  case ack =>
    refine next_onChip ?_
    have hgo : (!s.chip.hspHere lane b || byteAt b 16 != 3) = false := by simp [hspTaken_here h, hb]
    rw [pubAck, if_neg (ne_true_of_eq_false hgo), hspFrameIn_taken _ h]
  case resend => exact next_onChip (by simp [publishResend, hun, hon, hst, htime])
  case list =>
    refine next_onChip ?_
    rw [spanNeighbours, runEntry_toRun _ hrun]
    dsimp only
    rw [← hout, if_neg (Nat.not_lt.mpr hfit)]
  case republish =>
    refine next_onChip ?_
    rw [spanRepublish, runEntry_toRun _ hrun]
    dsimp only
    rw [hlane, show (s.chip.markRun stewardFn e.seq).en 0 16 = true from hen, show (s.chip.markRun stewardFn e.seq).spanPort lane = true from hport,
      show ((s.chip.markRun stewardFn e.seq).neigh lane).st = .up from hst, if_neg hall, if_pos rfl]
    rfl

/-! ### The epoch barrier -/

/-- Settles O50. -/
theorem barrierRowsComplete : Obligations.BarrierRowsComplete := by
  intro s lane b
  refine ⟨fun e hrun hen hcoord hpos hmax htime hbar => ?group, fun g w hal hu hph hme hnone hw => ?start, fun q w h ht hb hin hp hnone hw => ?prepare,
    fun q h ht hb hin hp hwave => ?echo, fun q coord id h ht hb hin hp hc hi hver => ?goLong, fun q coord id h ht hb hin hp hc hi hver => ?goShort,
    fun q coord id h ht hb hin hp hc hi => ?abort, fun w hal hw hpar htime => ?timeout, fun g hal hu hph hst hlate => ?stall,
    fun coord id hal => ?expiry, fun m v hr hv hbar hph => ?cancel, fun m v hr hv hbar hgrp => ?cancelGroup⟩
  case group =>
    refine next_onChip ?_
    have hform : ¬(16383 < leAt e.bytes 12 2 ∨ leAt e.bytes 14 2 = 0 ∨ 16384 < leAt e.bytes 14 2 ∨ leAt e.bytes 16 2 = 0) := by omega
    rw [spanBarrierGroup, runEntry_toRun _ hrun]
    dsimp only
    rw [show (s.chip.markRun stewardFn e.seq).en 0 16 = true from hen, if_neg (by decide), if_neg hform,
      show (s.chip.markRun stewardFn e.seq).commit.barrier = false from hbar]
    rfl
  case start =>
    refine next_onChip ?_
    subst hw
    simp [barrierStart, hu, hal, hph, hme, hnone]
  case prepare =>
    refine next_onChip ?_
    subst hw
    rw [barrierPrepare, barrierIn_taken _ h hb hin hp, hnone]
  case echo =>
    refine next_onChip ?_
    rw [barrierEcho, barrierIn_taken _ h hb hin hp, if_pos hwave]
  case goLong =>
    refine next_onChip ?_
    rw [barrierGo, barrierIn_taken _ h hb hin hp, hc, hi, decide_eq_true hver]
    rfl
  case goShort =>
    refine next_onChip ?_
    rw [barrierGo, barrierIn_taken _ h hb hin hp, hc, hi, decide_eq_false (Nat.not_le.mpr hver)]
    rfl
  case abort =>
    refine next_onChip ?_
    rw [barrierAbort, barrierIn_taken _ h hb hin hp, hc, hi]
  case timeout => exact next_onChip (by simp [barrierTimeout, hw, hal, hpar, htime])
  case stall =>
    refine next_onChip ?_
    have hlong : s.chip.barrierStalls g = true := by
      rcases hlate with ⟨w, hw, hid, hpar, hecho, htime⟩ | ⟨t, hno, ht, htime⟩
      · have hown : (s.chip.sp.barrier.wave.filter fun w => w.id == g.id) = some w := by simp [hw, hid]
        rw [Chip.barrierStalls, hown, BarGroup.limit]
        simp [hpar, hecho, htime]
      · have hnone : (s.chip.sp.barrier.wave.filter fun w => w.id == g.id) = none := by
          rw [Option.filter_eq_none_iff]
          intro w hw
          simpa using hno w hw
        rw [Chip.barrierStalls, hnone, ht]
        exact decide_eq_true htime
    simp [spnBarrierStall, hu, hal, hph, hst, hlong]
  case expiry => exact next_onChip (by simp [waveMemoryExpiry, hal])
  case cancel =>
    rw [exec_access hr rfl]
    exact next_onChip (by simp [barrierCancel, hv, hbar, hph])
  case cancelGroup =>
    rw [exec_access hr rfl]
    exact next_onChip (by simp [barrierCancel, hv, hbar, hgrp])

end Sys2Proof.Proofs
end

section
/-! PROOF. Settles O51: links between dies, scrubbers, the log, the watchdog (spec/20). Refutes O52. -/

namespace Sys2Proof.Proofs
open Sys2Proof.Machine

/-! ### Scrubbers (R503) -/

/-- A visit of the HBM scrubber that is not the last of its pass. -/
theorem scrubVisit_hbm {c : Chip} {d : Nat} (found : ScrubOutcome) (overrun : Bool) (hal : c.alive = true) (hd : c.hasDie d = true)
    (hen : c.bit d R.fltScrubCtrl 0 = true) (hmore : tget 0 c.faults.hbmPos d + 1 < 36 * 2 ^ 23) :
    scrubVisit true d found overrun c =
      let q := ({ c with faults := { c.faults with hbmPos := tput 0 c.faults.hbmPos d (tget 0 c.faults.hbmPos d + 1) } }).readCheck d true
        found { addr := 128 * tget 0 c.faults.hbmPos d, block := 0x20 }
      if overrun && !bitN q.faults.hbmLate d then
        q.watchGuarantee d fun c => (c.setLate true d true).raise Cls.scrubOverrun d { block := 0x20 }
      else q := by
  have hlast : ¬ scrubWords true ≤ tget 0 c.faults.hbmPos d + 1 := by
    rw [scrubWords, if_pos rfl]
    exact Nat.not_le.mpr hmore
  unfold scrubVisit
  simp only [hal, hd, if_true, hen, Bool.and_self, decide_eq_false hlast, Bool.false_eq_true, if_false]

/-- A visit of the SRAM scrubber. -/
theorem scrubVisit_sram {c : Chip} {d n : Nat} (hal : c.alive = true) (hd : c.hasDie d = true) (hen : c.bit d R.fltScrubCtrl 1 = true) :
    scrubVisit false d (.corrected n) false c =
      let pos := tget 0 c.faults.sramPos d
      let last := max 1 Config.sramWords ≤ pos + 1
      let q := ({ c with faults := { c.faults with
        sramPos := tput 0 c.faults.sramPos d (if last then 0 else pos + 1) } }).raise Cls.sramCorrected d { cause := n }
      if last then q.watchGuarantee d fun c => { c with faults := { c.faults with sramLate := setBitN c.faults.sramLate d false } }
      else q := by
  unfold scrubVisit
  simp only [hal, hd, hen, Bool.and_self, Bool.false_eq_true, if_false, if_true, Bool.false_and, scrubWords, decide_eq_true_eq]
  rfl

/-! ### Snapshots of a class (R537) -/

/-- Stores in registers of a die that are not the one read leave its word. -/
theorem rd_foldl_wr {c : Chip} {d : Nat} {a : RegAddr} {g : Nat → RegAddr} {v : Nat → Nat} (l : List Nat) (h : ∀ w ∈ l, bar4 d a ≠ bar4 d (g w)) :
    (l.foldl (fun c w => c.wr d (g w) (v w)) c).rd d a = c.rd d a := by
  induction l generalizing c with
  | nil => rfl
  | cons w l ih =>
    rw [List.foldl_cons, ih fun x hx => h x (List.mem_cons_of_mem _ hx)]
    exact Laws.rd_wr_ne _ _ _ _ _ _ (h w List.mem_cons_self)

theorem cls_setCls (c : Chip) (d cls : Nat) (r : ClassRec) : (c.setCls d cls r).cls d cls = r := tget_tput_same ..

/-- FLT_CLASS_SEL with clear shows the class and empties it. -/
theorem fltClassSel_clear {c : Chip} {d : Nat} {v : Reg32} (hv : v.getLsbD 30 = true) :
    (fltClassSel d v c).cls d (bitsN v.toNat 0 8) =
        { c.cls d (bitsN v.toNat 0 8) with count := 0, first := none, last := none } ∧
      (fltClassSel d v c).rd d R.fltSnapCount = (c.cls d (bitsN v.toNat 0 8)).count % 2 ^ 32 := by
  unfold fltClassSel
  dsimp only
  rw [if_pos hv]
  refine ⟨cls_setCls .., ?_⟩
  show Chip.rd (List.foldl _ _ _) _ _ = _
  rw [rd_foldl_wr _ fun w hw => ?last, rd_foldl_wr _ fun w hw => ?first, Laws.rd_wr_same]
  all_goals
    have hlt := List.mem_range.mp hw
    intro h
    simp only [bar4, R.fltSnapCount, R.fltSnapFirst, R.fltSnapLast, Nat.reduceLT, if_true] at h
    omega

/-! ### The rows -/

/-- Settles O51. -/
theorem faultRowsComplete : Obligations.FaultRowsComplete := by
  intro s d port
  refine ⟨fun hal hd hp hup => ?fail, fun hal hmem => ?trained, fun w n hal hd hen hmore => ?hbm, fun w n hal hd hen => ?sram,
    fun w hal hd hen hmore hlate => ?overrun, fun g hring huns hcons hspaced hal hup => ?message, fun haux hr => ?watchdog,
    fun m v hr hv hport hp hdown => ?retrain, fun m v hr hv => ?release, fun m v hr hv => ?classSel, fun m v hr hle => ?consumed,
    fun m v hr hlap => ?lapped⟩
  case fail => exact next_onChip (by simp [culvertLinkFail, hal, hd, hp, hup])
  case trained => exact gives_onChip rfl (by simp [culvertRetrainDone, State.onChip, hal, hmem])
  case hbm => exact next_onChip (scrubVisit_hbm _ _ hal hd hen hmore)
  case sram => exact next_onChip (scrubVisit_sram hal hd hen)
  case overrun =>
    refine next_onChip ((scrubVisit_hbm _ _ hal hd hen hmore).trans ?_)
    simp only [readCheck_clean, hlate]
    rfl
  case message =>
    refine next_onChip ?_
    unfold logMessage
    rw [hring]
    cases hlast : s.chip.faults.lastMsg with
    | none => simp [huns, hcons, hal, hup]
    | some t => simp [huns, hcons, hal, hup, hspaced t hlast]
  case watchdog => exact next_onChip (by simp [tetWatchdog, haux, hr])
  case retrain =>
    refine gives_access hr rfl ?_
    simp [fltCulRetrain, State.onChip, hv, hport, hp, hdown]
  case release => exact gives_access hr rfl (by simp [fltPinRelease, State.onChip, hv])
  case classSel => exact gives_access hr rfl (fltClassSel_clear hv)
  case consumed => exact gives_access hr rfl (by simp [fltLogCons, State.onChip, hle])
  case lapped =>
    refine gives_access hr rfl ?_
    rw [State.onChip, fltLogCons, if_neg (Nat.not_le.mpr hlap)]
    exact ⟨rfl, bit_wfld_same _ _ _ _ (by omega) (by omega)⟩

/-! ### The configuration check -/

/-- The part with every gate of die 0 closed, where the words that the sweeps found list one offset twice. -/
def sweptTwice : State := State.reset.onChip fun c =>
  { c.wr 0 R.clkGate 0 with cfg := { c.cfg with swept := [(0, 1), (0, 2)] } }

/-- Refutes O52: of a word that is listed twice the sweep keeps the later entry, while the earlier one is what is read. The statement
bears on every state, also one whose tables are not in canonical form. -/
theorem not_reportRowsComplete : ¬ Obligations.ReportRowsComplete := by
  intro h
  obtain ⟨-, -, -, -, -, -, -, hkept, -⟩ := h sweptTwice
  have hchanged : tget 0#32 sweptTwice.chip.sweep.cfg.swept 0 ≠ tget 0#32 sweptTwice.chip.cfg.swept 0 := by decide +kernel
  exact hchanged (hkept 0 (by decide +kernel))

end Sys2Proof.Proofs
end

section
/-! PROOF. Settles O59: the management transports (spec/17, spec/11 DOE). -/

namespace Sys2Proof.Proofs
open Sys2Proof.Machine

/-! ### SPDM (R464) -/

/-- A request in its order, of a part that has booted. -/
theorem spdm_taken {c : Chip} {via : SpdmVia} {order : Nat → Bool} (f : Chip → Chip) (hup : c.spdmUp via = true) (hb : c.booted = true)
    (ho : order (c.session via).phase = true) : spdm via order f c = f c := by
  have hdone : c.boot.state = .done := by simpa [Chip.booted] using hb
  simp [spdm, hup, hdone, Chip.booted, ho]

/-- A request on the sideband that is not taken. -/
theorem spdm_silent {c : Chip} {smb : Smb} {order : Nat → Bool} (f : Chip → Chip) (h : c.sideband smb = false) :
    spdm (.sideband smb) order f c = c := by
  rw [spdm, Chip.spdmUp, h]
  rfl

/-- No measurement has index 0. -/
theorem no_measurement_zero (s : State) : (s.measurements.filter fun m => 0 == 255 || m.index == 0) = [] := by
  rw [List.filter_eq_nil_iff]
  intro m hm
  simp only [State.measurements, List.mem_cons, List.mem_map] at hm
  rcases hm with rfl | rfl | ⟨x, -, rfl⟩ <;> simp

/-! ### The test port (R461) -/

theorem debugOk_of_locked {s : State} (h : s.root.locked = true) : s.debugOk = false := by
  rw [State.debugOk, h, Bool.not_true, Bool.and_false]

/-- A byte written into a record memory is read back, and the other records stay. -/
theorem recByte_setRecByte (n : Nat) (t : Tab Nat) (a : Nat) (b : Byte) :
    recByte n (setRecByte n t a b) a = b.toNat ∧ ∀ k, k ≠ a / n → tget 0 (setRecByte n t a b) k = tget 0 t k := by
  refine ⟨?_, fun k hk => tget_tput_ne _ _ _ hk⟩
  rw [recByte, setRecByte, tget_tput_same, bitsN_setBitsN_same]
  exact Nat.mod_eq_of_lt b.isLt

/-- Settles O59. -/
theorem transportRowsComplete : Obligations.TransportRowsComplete := by
  intro s
  refine ⟨fun smb hsb => ⟨fun eid => ?eid, ?getEid, fun n hn hpg hmd => ?sensor, fun n hn hmd => ?stale, ?bootStatus, fun d k hd hk hf hl => ?classRead⟩,
    fun smb hsb eid n d k what i hi => ?silent, fun hdoe herr => ⟨?doe0, ?doe1⟩, fun hdoe => ?abort, fun via hup hb => ⟨?version,
      fun req hph => ?capabilities, fun req hph hfmt hasym hhash => ?algorithms, fun hph hcert => ⟨?digests, fun off len hoff => ?certificate,
      fun nonce => ?challenge, fun nonce slot => ?count, fun nonce slot x hx => ?measurement⟩⟩,
    fun haux => ⟨?idcode, ?bypass, fun hok => ?halt, fun d a hok hd => ?read, fun d a b hok hd ha => ?write, fun hlock off v d mem a b i hi => ?locked⟩⟩
  case eid => exact next_onChip (by simp [setEndpointId, hsb])
  case getEid => exact next_onChip (by simp [mctpDiscovery, hsb])
  case sensor => exact next_onChip (by simp [pldmSensorRead, hsb, hn, hpg, hmd])
  case stale => exact next_onChip (by simp [pldmSensorRead, hsb, hn, hmd])
  case bootStatus =>
    show Host.Outcome.next (vendorBootStatus smb s) = _
    rw [vendorBootStatus, if_pos hsb]
  case classRead => exact next_onChip (by simp [vendorClassRead, hsb, hd, hk, hf, hl])
  case silent =>
    simp only [List.mem_cons, List.not_mem_nil, or_false] at hi
    rcases hi with rfl | rfl | rfl | rfl | rfl | rfl
    · exact next_onChip_self (by simp [setEndpointId, hsb])
    · exact next_onChip_self (by simp [mctpDiscovery, hsb])
    · exact next_onChip_self (by simp [pldmSensorRead, hsb])
    · show Host.Outcome.next (vendorBootStatus smb s) = _
      rw [vendorBootStatus, if_neg (ne_true_of_eq_false hsb)]
    · exact next_onChip_self (by simp [vendorClassRead, hsb])
    · exact next_onChip_self (spdm_silent _ hsb)
  case doe0 =>
    refine next_onChip ?_
    simp only [doeDiscovery, hdoe, herr]
    rfl
  case doe1 =>
    refine next_onChip ?_
    simp only [doeDiscovery, hdoe, herr]
    rfl
  case abort => exact gives_onChip rfl (by simp [doeAbort, State.onChip, hdoe])
  case version =>
    refine next_onChip ((spdm_taken _ hup hb rfl).trans ?_)
    cases via <;> rfl
  case capabilities => exact next_onChip (spdm_taken _ hup hb (by simp [hph]))
  case algorithms =>
    refine next_onChip ((spdm_taken _ hup hb (by simp [hph])).trans ?_)
    simp only [hfmt, hasym, hhash]
    rfl
  case digests =>
    refine next_onChip ((spdm_taken _ hup hb (by simp [hph, spdmReady])).trans ?_)
    rw [hcert]
    rfl
  case certificate =>
    refine next_onChip ((spdm_taken _ hup hb (by simp [hph, spdmReady])).trans ?_)
    dsimp only
    rw [if_neg (by simp [hcert, hoff])]
  case challenge =>
    refine next_onChip ((spdm_taken _ hup hb (by simp [hph, spdmReady])).trans ?_)
    simp [hcert]
  case count =>
    refine next_onChip ((spdm_taken _ hup hb (by simp [hph, spdmReady])).trans ?_)
    simp only [no_measurement_zero]
    rfl
  case measurement =>
    refine next_onChip ((spdm_taken _ hup hb (by simp [hph, spdmReady])).trans ?_)
    have hone : (s.measurements.filter fun m => 1 == 255 || m.index == 1) = [x] := hx
    dsimp only
    rw [hone]
    simp [b2n]
  case idcode => simp only [exec, execTestPortInstruction, testPort, haux]; rfl
  case bypass => simp only [exec, execTestPortInstruction, testPort, haux]; rfl
  case halt => simp only [exec, execTestPortInstruction, testPort, haux, hok]; rfl
  case read =>
    simp only [exec, execTestPortInstruction, testPort, haux, hok, Bool.not_true, Bool.false_eq_true, if_false, if_true]
    refine next_onChip ?_
    rw [if_pos hd]
    rfl
  case write =>
    obtain ⟨hsame, hother⟩ := recByte_setRecByte 24 s.chip.dre.cstore a b
    have hwrite : exec (.testPortInstruction (.debugMemWrite d .controlStore a b)) s = .next (s.onChip fun c =>
        c.setDre fun x => { x with cstore := setRecByte 24 x.cstore a b }) := by
      simp only [exec, execTestPortInstruction, testPort, haux, hok, Bool.not_true, Bool.false_eq_true, if_false, if_true]
      refine next_onChip ?_
      rw [if_pos hd, Chip.debugWrite]
      exact if_pos ha
    exact gives_onChip hwrite ⟨hsame, hother, rfl, rfl, rfl⟩
  case locked =>
    have hno := debugOk_of_locked hlock
    simp only [List.mem_cons, List.not_mem_nil, or_false] at hi
    rcases hi with rfl | rfl | rfl | rfl | rfl
    all_goals
      simp only [exec, execTestPortInstruction, testPort, haux, hno]
      rfl

end Sys2Proof.Proofs
end

section
/-! PROOF. Settles O20 (spec/07, Queues and admission) and O25 (spec/19, Pin and link states; spec/20, Error classes). -/

namespace Sys2Proof.Proofs
open Sys2Proof.Machine

/-! ### Admission (R192–R195) -/

/-- A check that drops has been passed where the decision is not to drop. -/
theorem check_passed {p : Prop} [Decidable p] {r : Nat} {x a : Admit} (ha : ∀ r, a ≠ .drop r) (h : (if p then .drop r else x) = a) :
    ¬ p ∧ x = a := by
  split at h
  · exact absurd h.symm (ha r)
  · exact ⟨‹_›, h⟩

/-- What admission decides between the die and the Spillway, once the checks that they share are passed (R193, R195). -/
def place (c : Chip) (d : Nat) (inst : Bool) (dest tc n : Nat) : Admit :=
  if !decide (c.poolUsed d (fun q => isSpill q && ofQueue inst dest tc q) ≠ 0) &&
      decide (c.poolUsed d (fun q => isTenant q && ofDest inst dest q) + n ≤ c.onDieCap d inst dest) && decide (n ≤ c.poolFree d)
    then .onDie
  else if c.mode = 3 then .drop Dr.onDieFull
  else if !c.bit d R.bufCtrl 2 then .drop Dr.blockDisabled
  else if 33554432 < c.poolUsed d isSpill + n then .drop Dr.spillwayFull
  else if 4096 < tget 0 c.qs.staged d + n then .drop Dr.spillBusy
  else .spilled

section Admission
variable {c : Chip} {d dest tc n : Nat} {inst : Bool}

/-- A packet that is not dropped has passed the checks that the die and the Spillway share. -/
theorem takeIn_passed {a : Admit} (ha : ∀ r, a ≠ .drop r) (h : c.takeIn d inst dest tc n = a) :
    (c.en d 5 = true ∧ c.poolUsed d (ofDest inst dest) + n ≤ c.share d inst dest ∧
      c.poolUsed d (ofQueue inst dest tc) + n ≤ c.share d inst dest * c.classFrac d tc / 256 ∧
      (inst = true → (c.inst dest).st ≠ .free ∧ (c.inst dest).st ≠ .resetting ∧ (c.chan dest).full = false)) ∧
    place c d inst dest tc n = a := by
  obtain ⟨hen, h⟩ := check_passed ha h
  obtain ⟨hfree, h⟩ := check_passed ha h
  obtain ⟨-, h⟩ := check_passed ha h
  obtain ⟨hreset, h⟩ := check_passed ha h
  obtain ⟨hfull, h⟩ := check_passed ha h
  obtain ⟨-, h⟩ := check_passed ha h
  obtain ⟨hshare, h⟩ := check_passed ha h
  obtain ⟨hclass, h⟩ := check_passed ha h
  refine ⟨⟨by simpa using hen, Nat.not_lt.mp hshare, Nat.not_lt.mp hclass, ?_⟩, h⟩
  rintro rfl
  exact ⟨by simpa using hfree, by simpa using hreset, by simpa using hfull⟩

theorem place_onDie (h : place c d inst dest tc n = .onDie) :
    c.poolUsed d (fun q => isTenant q && ofDest inst dest q) + n ≤ c.onDieCap d inst dest ∧ n ≤ c.poolFree d ∧
      c.poolUsed d (fun q => isSpill q && ofQueue inst dest tc q) = 0 := by
  unfold place at h
  split at h
  · next hroom =>
    simp only [Bool.and_eq_true, Bool.not_eq_true', decide_eq_true_eq, decide_eq_false_iff_not, ne_eq, not_not] at hroom
    obtain ⟨⟨hspill, hcap⟩, hfree⟩ := hroom
    exact ⟨hcap, hfree, hspill⟩
  · obtain ⟨-, h⟩ := check_passed (fun _ => by simp) h
    obtain ⟨-, h⟩ := check_passed (fun _ => by simp) h
    obtain ⟨-, h⟩ := check_passed (fun _ => by simp) h
    obtain ⟨-, h⟩ := check_passed (fun _ => by simp) h
    cases h

theorem place_spilled (h : place c d inst dest tc n = .spilled) :
    c.mode ≠ 3 ∧ c.bit d R.bufCtrl 2 = true ∧ c.poolUsed d isSpill + n ≤ 33554432 := by
  unfold place at h
  split at h
  · cases h
  · obtain ⟨hmode, h⟩ := check_passed (fun _ => by simp) h
    obtain ⟨hon, h⟩ := check_passed (fun _ => by simp) h
    obtain ⟨hroom, -⟩ := check_passed (fun _ => by simp) h
    exact ⟨hmode, by simpa using hon, Nat.not_lt.mp hroom⟩

end Admission

/-- Settles O20. -/
theorem admissionBounds : Obligations.AdmissionBounds := by
  intro c d dest tc n inst
  refine ⟨fun h => ?shared, fun h => place_onDie (takeIn_passed (fun _ => by simp) h).2,
    fun h => place_spilled (takeIn_passed (fun _ => by simp) h).2⟩
  rcases h with h | h
  · exact (takeIn_passed (fun _ => by simp) h).1
  · exact (takeIn_passed (fun _ => by simp) h).1

/-! ### FAULT_N and SMB_ALERT_N (R515) -/

theorem faultN_of_held {c : Chip} (h : c.faults.held ≠ []) : c.faultN = true := by
  rw [Chip.faultN, isEmpty_of_ne_nil h, Bool.not_false, Bool.or_true]

theorem smbAlertN_of_held {c : Chip} (h : c.faults.held ≠ []) : c.smbAlertN = true := by
  rw [Chip.smbAlertN, isEmpty_of_ne_nil h, Bool.not_false, Bool.true_or]

theorem mem_held_hold (c : Chip) (h : Held) : h ∈ (c.hold h).faults.held := by
  unfold Chip.hold
  split
  · simpa using ‹c.faults.held.contains h = true›
  · simp

theorem hold_dp (c : Chip) (h : Held) : (c.hold h).dp = c.dp := by
  unfold Chip.hold
  split <;> rfl

theorem raise_held (c : Chip) (cls die : Nat) (e : Ev) : (c.raise cls die e).faults.held = c.faults.held := by
  obtain ⟨regs, fns, faults, out, ht, hheld, -⟩ := c.raise_reports cls die e
  rw [ht]
  exact hheld

/-- A write of FLT_PIN leaves the held conditions. -/
theorem fltPinRelease_held (c : Chip) (v : Reg32) : (fltPinRelease c v).faults.held = c.faults.held := by
  unfold fltPinRelease
  split <;> rfl

/-! ### Pins and lanes (R496) -/

/-- A part that is tripped, in reset or without a supply has no block that runs. -/
theorem on_of_dead {c : Chip} (h : c.alive = false) (d b : Nat) : c.on d b = false := by
  rw [Chip.on, h]
  rfl

theorem alive_of_tripped {c : Chip} (h : c.clk.stage = .tripped) : c.alive = false := by simp [Chip.alive, h]

theorem alive_of_inReset {c : Chip} (h : c.pwr.inReset = true) : c.alive = false := by simp [Chip.alive, h]

/-- Settles O25. -/
theorem pinsAndLanes : Obligations.PinsAndLanes := by
  refine ⟨fun s m d v hr => ⟨fun hv hheld => ?release, fun hheld => ?held, fun hv => ?no, fun haux hrst => ?watchdog⟩,
    fun c lane port link => ⟨fun haux => ?off, fun haux hrst => ?inReset, fun haux hmd => ?mainDown, fun haux hd hpg hmd hb => ?notBooted,
      fun haux hd hpg hmd hst => ?tripped, fun haux hrst h hh => ?faults, fun hal hb hd hpg hmd hen hg => ?runs⟩⟩
  case release => exact gives_access hr rfl (by simp [fltPinRelease, State.onChip, hv, Chip.faultN, hheld])
  case held =>
    have hkept : (s.onChip fun c => fltPinRelease c v).chip.faults.held ≠ [] := by
      rw [State.onChip, fltPinRelease_held]
      exact hheld
    exact gives_access hr rfl ⟨faultN_of_held hkept, smbAlertN_of_held hkept⟩
  case no =>
    rw [exec_access hr rfl]
    exact next_onChip_self (if_neg (ne_true_of_eq_false hv))
  case watchdog =>
    have hgo : (s.chip.pwr.aux && !s.chip.pwr.inReset) = true := by simp [haux, hrst]
    have hmem : .tetWatchdog ∈ (tetWatchdog s.chip).faults.held := by
      rw [tetWatchdog, if_pos hgo, raise_held]
      exact mem_held_hold _ _
    refine gives_onChip rfl ⟨faultN_of_held (List.ne_nil_of_mem hmem), smbAlertN_of_held (List.ne_nil_of_mem hmem), hmem, ?_⟩
    show (tetWatchdog s.chip).dp = s.chip.dp
    rw [tetWatchdog, if_pos hgo, raise_frame (f := Chip.dp) (hf := fun _ _ _ _ => rfl), hold_dp]
  case off => simp [Chip.txLine, Chip.rxLine, Chip.hostLine, Chip.faultPin, Chip.alertPin, Chip.supplyPins, haux]
  case inReset =>
    refine ⟨by simp [Chip.faultPin, haux, hrst], by simp [Chip.alertPin, haux, hrst], by simp [Chip.linkUp, alive_of_inReset hrst], ?_⟩
    unfold Chip.hostLine
    simp only [haux, hrst, if_true]
    split
    · exact .inr rfl
    · split
      · exact .inl rfl
      · exact .inr rfl
  case mainDown =>
    refine ⟨by simp [Chip.txLine, Chip.railsUp, hmd], by simp [Chip.rxLine, Chip.railsUp, hmd], fun hrst hd => ?_⟩
    simp [Chip.hostLine, haux, hrst, hd, hmd]
  case notBooted => simp [Chip.txLine, Chip.rxLine, Chip.railsUp, haux, hd, hpg, hmd, hb]
  case tripped =>
    have hdead := alive_of_tripped hst
    simp [Chip.txLine, Chip.rxLine, Chip.railsUp, haux, hd, hpg, hmd, hdead, on_of_dead hdead]
  case faults =>
    have hheld := List.ne_nil_of_mem hh
    simp [Chip.faultPin, Chip.alertPin, haux, hrst, faultN_of_held hheld, smbAlertN_of_held hheld]
  case runs =>
    have haux : c.pwr.aux = true := by
      simp only [Chip.alive, Bool.and_eq_true] at hal
      exact hal.1.1.1
    have hon : c.on (lane / 64) 8 = true := by simp [Chip.on, Chip.gateOpen, hal, hd, hen, hg]
    simp [Chip.txLine, Chip.rxLine, Chip.railsUp, haux, hd, hpg, hmd, hal, hb, hon]

end Sys2Proof.Proofs
end

section
/-! What the end of a packet leaves: the supplies, the clocks, and the registers of the MAC blocks. -/

namespace Sys2Proof.Proofs
open Sys2Proof.Machine

/-- `t` is `c` but for what may change when a packet ends or a record is written: supplies, clocks and the MAC blocks' registers stay. -/
structure Quiet (c t : Chip) : Prop where
  pwr : t.pwr = c.pwr
  clk : t.clk = c.clk
  word : ∀ x, x / 0x100000 % 64 = 8 → t.word x = c.word x

theorem Quiet.refl (c : Chip) : Quiet c c := ⟨rfl, rfl, fun _ _ => rfl⟩

theorem Quiet.trans {a b c : Chip} (h : Quiet a b) (k : Quiet b c) : Quiet a c :=
  ⟨k.pwr.trans h.pwr, k.clk.trans h.clk, fun x hx => (k.word x hx).trans (h.word x hx)⟩

/-- What comes after a step that is quiet: the step's own lemma goes first, so that it fixes the state between. -/
theorem Quiet.after {a b c : Chip} (k : Quiet b c) (h : Quiet a b) : Quiet a c := h.trans k

theorem Quiet.foldl {α : Type} {g : Chip → α → Chip} (h : ∀ c x, Quiet c (g c x)) (l : List α) (c : Chip) : Quiet c (l.foldl g c) :=
  List.foldlRecOn (motive := fun q => Quiet c q) _ _ (.refl c) fun q hq x _ => hq.trans (h q x)

theorem Quiet.ite {c t u : Chip} {p : Prop} [Decidable p] (ht : Quiet c t) (hu : Quiet c u) : Quiet c (if p then t else u) := by
  split
  · exact ht
  · exact hu

theorem quiet_of_parts {c t : Chip} (h : (t.pwr, t.clk, t.regs) = (c.pwr, c.clk, c.regs)) : Quiet c t := by
  simp only [Prod.mk.injEq] at h
  obtain ⟨hp, hk, hr⟩ := h
  exact ⟨hp, hk, fun x _ => congrArg (tget 0#32 · x) hr⟩

theorem setTb_quiet (c : Chip) (g : Tables → Tables) : Quiet c (c.setTb g) := quiet_of_parts rfl

theorem setDp_quiet (c : Chip) (g : Packets → Packets) : Quiet c (c.setDp g) := quiet_of_parts rfl

/-- A register of a die's block other than the MAC. -/
abbrev OffMac (a : RegAddr) : Prop := a.blk < 20 ∧ a.blk ≠ 8 ∧ a.off < 0x100000

theorem bar4_offMac {a : RegAddr} (h : OffMac a) (d : Nat) : bar4 d a / 0x100000 % 64 ≠ 8 := by
  obtain ⟨hb, hne, ho⟩ := h
  rw [bar4, if_pos hb]
  omega

theorem bar4_mac (d : Nat) {o : Nat} (ho : o < 0x100000) : bar4 d ⟨8, o⟩ / 0x100000 % 64 = 8 := by
  have hdie : (⟨8, o⟩ : RegAddr).blk < 20 := by simp
  rw [bar4, if_pos hdie]
  show (d * 0x04000000 + 8 * 0x00100000 + o) / 0x100000 % 64 = 8
  omega

section Counted
variable (c : Chip) (d : Nat)

theorem wr_quiet {a : RegAddr} (h : OffMac a) (v : Nat) : Quiet c (c.wr d a v) :=
  ⟨rfl, rfl, fun _ hx => tget_tput_ne _ _ _ fun he => bar4_offMac h d (he ▸ hx)⟩

theorem count_quiet {a : RegAddr} (h : OffMac a) (n : Nat := 1) : Quiet c (c.count d a n) := by
  unfold Chip.count
  split
  · exact wr_quiet c d h _
  · exact .refl c

theorem raise_quiet (cls : Nat) (e : Ev) : Quiet c (c.raise cls d e) :=
  ⟨raise_frame c cls d e Chip.pwr fun _ _ _ _ => rfl, raise_frame c cls d e Chip.clk fun _ _ _ _ => rfl,
    fun _ hx => raise_word c cls d e fun he => bar4_offMac (a := R.fltLogOvf) (by decide) 0 (he ▸ hx)⟩

end Counted

/-! ### Rings, records and messages -/

section Rings
variable (c : Chip) (f : Nat)

theorem setChan_quiet (h : Chan) : Quiet c (c.setChan f h) := quiet_of_parts rfl

theorem signal_quiet (v : Nat) : Quiet c (c.signal f v) := by
  unfold Chip.signal Chip.msix Chip.msixSend
  dsimp only
  split
  · split
    · exact quiet_of_parts rfl
    · split
      · exact .refl c
      · exact quiet_of_parts rfl
  · exact .refl c

theorem abortCommit_quiet (i : Nat) (cache : List Bytes) : Quiet c (c.abortCommit i cache) := by
  unfold Chip.abortCommit
  dsimp only
  split
  · exact .refl c
  · split
    · exact setChan_quiet ..
    · exact (raise_quiet ..).after (quiet_of_parts rfl)

theorem haltRings_quiet {code : Nat} (hcode : code < 64) (ds cq : Bool) (ring index : Nat) : Quiet c (c.haltRings f code ds cq ring index) := by
  have hoff : OffMac (R.chnHaltCnt code) := by simp only [OffMac, R.chnHaltCnt]; omega
  have hhalt (h : Chan) : Quiet c ((c.setChan f h).count (c.fnDie f) (R.chnHaltCnt code)) := (count_quiet _ _ hoff).after (setChan_quiet ..)
  unfold Chip.haltRings
  dsimp only
  refine .ite (.refl c) ?_
  generalize hq : Chip.count _ _ (R.chnHaltCnt code) _ = q
  have hreport : Quiet c (if [0x02, 0x03, 0x05, 0x06, 0x07].contains code then
      q.raise Cls.chnHalt (c.fnDie f) { block := 14, unit := fnUnit f, cause := code, addr := 12 * ring, value := index } else q) :=
    hq ▸ .ite ((raise_quiet ..).after (hhalt _)) (hhalt _)
  have habort := Quiet.ite (p := (ds && (c.chan f).dsHalt == 0 && f == stewardFn) = true)
    ((abortCommit_quiet _ (c.chan f).dsC (c.chan f).cache).after hreport) hreport
  exact .ite habort ((signal_quiet ..).after habort)

theorem cacheXlate_quiet (d i page size : Nat) (mapped : Bool) : Quiet c (c.cacheXlate d i page size mapped) := by
  have hmiss := count_quiet c d (a := R.insXltMisses) (by decide)
  have hput (m : DieDma) : Quiet c ((c.count d R.insXltMisses).setDma d m) := hmiss.trans (quiet_of_parts rfl)
  have hdraw (m : DieDma) : Quiet c ((c.count d R.insXltMisses).draw.setDma d m) := hmiss.trans (quiet_of_parts rfl)
  unfold Chip.cacheXlate
  dsimp only
  split
  · exact count_quiet _ _ (by decide)
  · split
    · exact hmiss
    · split
      · exact hput _
      · exact hdraw _

theorem translate_quiet (iova : Nat) (write : Bool) : Quiet c (c.translate f iova write).2 := by
  have hoff : OffMac (R.insXltFault (f % 512)) := by simp only [OffMac, R.insXltFault]; omega
  unfold Chip.translate
  dsimp only
  split
  · exact .refl c
  · have hlook (leaf : Option (Nat × Leaf)) : Quiet c (match leaf with
        | some (p, l) => c.cacheXlate (f / 512) f p l.size true
        | none => c.cacheXlate (f / 512) f (iova % 2 ^ 48 / 4096 * 4096) 0 false) := by
      split <;> exact cacheXlate_quiet ..
    split
    · split
      · exact (hlook _).trans (quiet_of_parts rfl)
      · exact hlook _
    · exact (raise_quiet ..).after ((count_quiet _ _ hoff).after (hlook _))

theorem modSend_quiet : Quiet c (c.modSend f) := (signal_quiet ..).after (setChan_quiet ..)

theorem modRecord_quiet : Quiet c (c.modRecord f) := by
  have hcheck (q : Chip) : Quiet q (q.modCheck f) := by
    unfold Chip.modCheck
    exact .ite (modSend_quiet ..) (.refl q)
  exact (hcheck _).after (setChan_quiet ..)

theorem writeRec_quiet (r : Bytes) : Quiet c (c.writeRec f r) := by
  have htr := translate_quiet c f ((c.chan f).cqBase + 32 * ((c.chan f).cqP % 2 ^ (c.chan f).cqK)) true
  unfold Chip.writeRec
  dsimp only
  generalize c.translate f ((c.chan f).cqBase + 32 * ((c.chan f).cqP % 2 ^ (c.chan f).cqK)) true = x at htr
  obtain ⟨a | a, q⟩ := x
  · exact (haltRings_quiet _ _ (by decide) ..).after ((count_quiet _ _ (by decide)).after htr)
  · have hput (o : Out) (h : Chan) (d : Nat) : Quiet c (((q.emit o).setChan f h).count d (R.dmaEvtCnt 0)) :=
      (count_quiet _ _ (by decide)).after (htr.trans (quiet_of_parts rfl))
    dsimp only
    split
    · exact (modRecord_quiet ..).after (hput ..)
    · exact hput ..

theorem placeRec_quiet (r : Bytes) : Quiet c (c.placeRec f r) := by
  have hoff : OffMac (R.dmaFullCnt (if f = stewardFn then 512 else f % 512)) := by
    simp only [OffMac, R.dmaFullCnt]
    split <;> omega
  have hstash (h : Chan) : Quiet c ((c.count (c.fnDie f) (R.dmaEvtCnt 1)).setChan f h) := (setChan_quiet ..).after (count_quiet _ _ (by decide))
  have hlost (x : Inst) : Quiet c ((c.countRecord f).setInst f x) := (count_quiet c _ (by decide)).trans (quiet_of_parts rfl)
  unfold Chip.placeRec
  dsimp only
  split
  · exact hlost _
  · split
    · exact setChan_quiet ..
    · split
      · exact writeRec_quiet ..
      · split
        · exact (raise_quiet ..).after ((count_quiet _ _ hoff).after (hstash _))
        · exact hstash _

theorem flushStarted_quiet (n : Nat) (c : Chip) : Quiet c (Chip.flushStarted f n c) := by
  induction n generalizing c with
  | zero => exact .refl c
  | succ n ih =>
    have hplace (l : List Bytes) (q : Chip) : Quiet q (l.foldl (fun q r => q.placeRec f r) q) := .foldl (fun q r => placeRec_quiet q f r) _ _
    have hstamps (x : Chan) (l : List Bytes) : Quiet c (l.foldl (fun q r => q.placeRec f r) (c.setChan f x)) :=
      (hplace ..).after (setChan_quiet ..)
    unfold Chip.flushStarted
    dsimp only
    split
    · exact .refl c
    · split
      · exact .refl c
      · split
        · exact hstamps ..
        · split
          · exact hstamps ..
          · exact (ih _).after ((hplace ..).after ((setChan_quiet ..).after (hstamps ..)))

theorem sendStamp_quiet (p : Pkt) (t : Nat) : Quiet c (c.sendStamp p t) := by
  unfold Chip.sendStamp
  split
  · exact .refl c
  · split
    · exact .refl c
    · exact (flushStarted_quiet ..).after (setChan_quiet ..)

end Rings

/-! ### Verdict records -/

section Verdicts
variable (c : Chip) (d : Nat)

theorem verdictLost_quiet (v : Verd) : Quiet c (c.verdictLost d v) := by
  have hlost (x : Verd) : Quiet c ((c.setVerd d x).count d R.fltVerdictOvf) := (count_quiet _ _ (by decide)).after (quiet_of_parts rfl)
  unfold Chip.verdictLost
  dsimp only
  split
  · exact (raise_quiet ..).after (hlost _)
  · exact hlost _

theorem settleQueue_quiet (inst : Bool) (dest tc : Nat) : Quiet c (c.settleQueue inst dest tc) := by
  refine .foldl (fun q k => ?_) _ _
  unfold Chip.settleShaper
  exact .ite (quiet_of_parts rfl) (.refl q)

theorem wakeShapers_quiet (inst : Bool) (dest tc : Nat) : Quiet c (c.wakeShapers inst dest tc) := by
  refine .foldl (fun q k => ?_) _ _
  exact .ite (quiet_of_parts rfl) (.refl q)

theorem enqueueAs_quiet (p : Pkt) (spill : Bool) : Quiet c (c.enqueueAs p d spill) := by
  unfold Chip.enqueueAs
  refine (wakeShapers_quiet ..).after ?_
  exact .ite (quiet_of_parts rfl) (quiet_of_parts rfl)

theorem verdWrite_quiet (w : VerdWait) : Quiet c (c.verdWrite w) := by
  unfold Chip.verdWrite
  dsimp only
  split
  · exact .ite (quiet_of_parts rfl) (quiet_of_parts rfl)
  · exact quiet_of_parts rfl

theorem verdTake_quiet (v : Verd) (bytes : Bytes) : Quiet c (c.verdTake d v bytes) := by
  unfold Chip.verdTake
  dsimp only
  split
  · exact (verdWrite_quiet ..).after (quiet_of_parts rfl)
  · exact quiet_of_parts rfl

theorem verdictSend_quiet (v : Verd) (p : Pkt) (disp : Nat) (fate : Fate) : Quiet c (c.verdictSend d v p disp fate) := by
  have hframe (x : Verd) (p q : Pkt) (s : Bool) : Quiet c (((c.setVerd d x).addPkt p).enqueueAs q d s) :=
    (enqueueAs_quiet ..).after (quiet_of_parts rfl)
  unfold Chip.verdictSend
  dsimp only
  generalize (if v.window = c.ns / 1000000 then v else _) = w
  split
  · exact verdictLost_quiet ..
  · split
    · split
      · exact verdictLost_quiet ..
      · exact hframe ..
    · split
      · exact verdTake_quiet ..
      · exact verdictLost_quiet ..

theorem verdict_quiet (p : Pkt) (disp : Nat) (fate : Fate) : Quiet c (c.verdict d p disp fate) := by
  unfold Chip.verdict
  dsimp only
  split
  · exact .refl c
  generalize hgo : (if p.dropN = 0 then (true, c) else if fate.reason = 0 then (false, c) else _) = go
  have hkept : Quiet c go.2 := by
    rw [← hgo]
    split
    · exact .refl c
    · split
      · exact .refl c
      · exact quiet_of_parts rfl
  split
  · exact hkept
  · split
    · exact hkept
    · exact (verdictSend_quiet ..).after hkept

end Verdicts

/-! ### The port's own frames and flow control -/

section Ports
variable (c : Chip) (lane : Nat)

theorem readCheck_quiet (d : Nat) (hbm : Bool) (found : ScrubOutcome) (e : Ev) : Quiet c (c.readCheck d hbm found e) := by
  unfold Chip.readCheck
  split
  · exact .refl c
  · exact raise_quiet ..
  · exact raise_quiet ..

theorem slotRead_quiet (n : Nat) (found : ScrubOutcome) : Quiet c (c.slotRead n found) := by
  unfold Chip.slotRead
  refine (readCheck_quiet ..).after ?_
  split
  · exact (count_quiet _ _ (by decide)).after (quiet_of_parts rfl)
  · exact .refl c

theorem takeSeq_quiet (a : Nat) (x : Assoc) : Quiet c (c.takeSeq a x).2 := by
  have hsoft (q : Chip) (y : Assoc) : Quiet q (q.softCheck a y) := by
    unfold Chip.softCheck
    exact .ite ((raise_quiet ..).after (quiet_of_parts rfl)) (.refl q)
  unfold Chip.takeSeq
  split
  · split
    · exact .refl c
    · exact (raise_quiet ..).after ((count_quiet _ _ (by decide)).after (quiet_of_parts rfl))
  · exact (hsoft ..).after (quiet_of_parts rfl)

/-- What securing a frame leaves, and the codes it drops one with. -/
theorem macsecTx_quiet (cipher : Option Nat) (b : Bytes) (found : ScrubOutcome) :
    Quiet c (c.macsecTx lane cipher b found).2 ∧ ∀ e, (c.macsecTx lane cipher b found).1 = .error e → e < 256 := by
  unfold Chip.macsecTx
  dsimp only
  split
  · exact ⟨.refl c, fun e h => nomatch h⟩
  split
  · exact ⟨.refl c, fun e h => by cases h; decide⟩
  split
  · exact ⟨.refl c, fun e h => nomatch h⟩
  split
  · exact ⟨.refl c, fun e h => by cases h; decide⟩
  next a x _ =>
    have hslot := slotRead_quiet c (lane / 64 * 65536 + x.slot) found
    split
    · exact ⟨hslot, fun e h => by cases h; decide⟩
    · have hseq := takeSeq_quiet (c.slotRead (lane / 64 * 65536 + x.slot) found) a x
      generalize (c.slotRead (lane / 64 * 65536 + x.slot) found).takeSeq a x = r at hseq
      obtain ⟨pn | pn, q⟩ := r
      · exact ⟨hslot.trans hseq, fun e h => by cases h; decide⟩
      · exact ⟨hslot.trans hseq, fun e h => nomatch h⟩

theorem ownFrame_quiet (o : Own) : Quiet c (c.ownFrame lane o).2 ∧ ∀ e, (c.ownFrame lane o).1 = .error e → e < 256 := by
  cases o with
  | fc q n => exact ⟨.refl c, fun e h => nomatch h⟩
  | hsp f => exact macsecTx_quiet ..

theorem leave_quiet (o : Own) (b : Bytes) : Quiet c (o.leave lane b c) := by
  cases o <;> exact quiet_of_parts rfl

theorem bufDropTotal_offMac {r : Nat} (h : r < 256) : OffMac (R.bufDropTotal r) := by
  simp only [OffMac, R.bufDropTotal]
  omega

theorem ownStep_quiet : Quiet c (c.ownStep lane) := by
  unfold Chip.ownStep
  dsimp only
  split
  · exact .refl c
  next o _ =>
    split
    all_goals
      refine .ite (.refl c) ?_
      generalize hframe : c.ownFrame lane _ = r
      have hquiet := hframe ▸ ownFrame_quiet c lane _
      obtain ⟨e | b, q⟩ := r
      · exact (count_quiet _ _ (bufDropTotal_offMac (hquiet.2 e rfl))).after (hquiet.1.trans (quiet_of_parts rfl))
      · have hcount : Quiet q (q.macCount lane 17) := quiet_of_parts rfl
        have hcut (b : Bool) : Quiet c (if b then q.macCount lane 17 else q) := (Quiet.ite hcount (.refl q)).after hquiet.1
        exact .ite (.refl c) ((leave_quiet ..).after ((setDp_quiet ..).after ((setDp_quiet ..).after ((setDp_quiet ..).after (hcut _)))))

theorem ownFlush_quiet : Quiet c (c.ownFlush lane) := .foldl (fun q _ => ownStep_quiet q lane) _ _

theorem sendOwn_quiet (o : Own) : Quiet c (c.sendOwn lane o) := (ownFlush_quiet ..).after (quiet_of_parts rfl)

theorem fcOne_quiet (q : Nat) : Quiet c (c.fcOne lane q) := by
  unfold Chip.fcOne
  exact .ite ((sendOwn_quiet ..).after (quiet_of_parts rfl)) (.ite ((sendOwn_quiet ..).after (quiet_of_parts rfl)) (.refl c))

theorem fcPort_quiet : Quiet c (c.fcPort lane) := by
  unfold Chip.fcPort
  split
  · exact .refl c
  · split
    · exact fcOne_quiet ..
    · exact .foldl (fun q x => fcOne_quiet q lane x) _ _
    · exact .refl c

end Ports

/-! ### The end of a packet -/

section Ends
variable (c : Chip) (p : Pkt)

theorem countDrop_quiet (d : Nat) {reason : Nat} (h : reason < 256) (srcInst : Bool) (src : Nat) (dest : Option Nat) :
    Quiet c (c.countDrop d reason srcInst src dest) := by
  have htotal := count_quiet c d (bufDropTotal_offMac h)
  unfold Chip.countDrop
  dsimp only
  split
  · exact .refl c
  · split
    · exact (setTb_quiet ..).after htotal
    · split
      · exact (setTb_quiet ..).after htotal
      · exact (setTb_quiet ..).after ((setTb_quiet ..).after htotal)

theorem backBufs_quiet : Quiet c (c.backBufs p) := by
  unfold Chip.backBufs
  exact .ite (.refl c) (setChan_quiet ..)

theorem dropPkt_quiet {reason : Nat} (h : reason < 256) (atQueue : Bool) : Quiet c (c.dropPkt p reason atQueue) := by
  have hback : Quiet c ((c.delPkt p.id).backBufs p) := (backBufs_quiet (c.delPkt p.id) p).after (quiet_of_parts rfl)
  unfold Chip.dropPkt
  dsimp only
  generalize hgone : (if p.stage == .queued then ((c.delPkt p.id).backBufs p).settleQueue p.dstInst p.dst p.tc else _) = gone
  have hq : Quiet c gone := hgone ▸ .ite ((settleQueue_quiet ..).after hback) hback
  split
  · exact (count_quiet _ _ (bufDropTotal_offMac h)).after hq
  have hif (q : Chip) (hq : Quiet c q) (r : Prop) [Decidable r] {a : RegAddr} (ha : OffMac a) : Quiet c (if r then q.count p.die a else q) :=
    .ite ((count_quiet _ _ ha).after hq) hq
  have hcounted := hif _ (hif _ ((countDrop_quiet gone p.die h p.srcInst p.src
    (if atQueue && p.dstInst && p.dst != 0xFFFF then some p.dst else none)).after hq) (reason = Dr.instanceReset) (a := R.insEvtCnt 2)
    (by decide)) (reason = Dr.scanBusy) (a := R.hgtScanBusyCnt) (by decide)
  generalize (if reason = Dr.scanBusy then _ else _) = counted at hcounted
  have hverdict : Quiet c (if p.stage == .arrived then counted else counted.verdict p.die { p with txTime := 0 } p.dispCode { reason := reason }) :=
    .ite hcounted ((verdict_quiet ..).after hcounted)
  split
  · exact (sendStamp_quiet ..).after hverdict
  · exact (fcPort_quiet ..).after ((sendStamp_quiet ..).after hverdict)

theorem fcOf_quiet : Quiet c (c.fcOf p) := by
  unfold Chip.fcOf
  exact .ite (.refl c) (fcPort_quiet ..)

theorem stompFrom_quiet (known limit : Nat) : Quiet c (c.stompFrom p known limit) := by
  unfold Chip.stompFrom Chip.stomp
  exact (fcOf_quiet ..).after ((sendStamp_quiet ..).after ((verdict_quiet ..).after (quiet_of_parts rfl)))

theorem faulty_quiet {reason : Nat} (h : reason < 256) (limit : Nat) : Quiet c (c.faulty p reason limit) := by
  unfold Chip.faulty
  split
  · exact stompFrom_quiet ..
  · exact (dropPkt_quiet _ _ h _).after (quiet_of_parts rfl)

theorem closeRx_quiet (r : Rx) (lane counter : Nat) {reason : Nat} (h : reason < 256) (limit : Nat) :
    Quiet c (c.closeRx r lane counter reason limit) := by
  unfold Chip.closeRx
  dsimp only
  split
  · exact (faulty_quiet _ _ h _).after (quiet_of_parts rfl)
  · split
    · exact (countDrop_quiet _ _ h ..).after (quiet_of_parts rfl)
    · exact quiet_of_parts rfl

theorem abortRx_quiet (lane inner outer : Nat) : Quiet c (c.abortRx lane inner outer) := by
  unfold Chip.abortRx
  refine (Quiet.foldl (fun q e => ?_) _ _).after (quiet_of_parts rfl)
  split
  · exact .refl q
  · exact closeRx_quiet _ _ _ _ (by decide) _

theorem cutLine_quiet (lane : Nat) {reason : Nat} (h : reason < 256) : Quiet c (c.cutLine lane reason) := by
  unfold Chip.cutLine
  refine (Quiet.foldl (fun q x => ?_) _ _).after (quiet_of_parts rfl)
  split
  · refine (dropPkt_quiet _ _ h _).after ?_
    exact .ite (quiet_of_parts rfl) (.refl q)
  · exact .refl q

end Ends

/-! ### What stays -/

theorem Quiet.alive {c t : Chip} (h : Quiet c t) : t.alive = c.alive := by
  rw [Chip.alive, h.pwr, h.clk, Chip.alive]

theorem Quiet.rd {c t : Chip} (h : Quiet c t) (d : Nat) {o : Nat} (ho : o < 0x100000) : t.rd d ⟨8, o⟩ = c.rd d ⟨8, o⟩ := by
  have hw := h.word _ (bar4_mac d ho)
  unfold Chip.word at hw
  unfold Chip.rd Chip.rdw
  rw [hw]

end Sys2Proof.Proofs
end

section
/-! PROOF. Settles O60: pause timers, preemption verification and link changes (spec/08 Lanes, ports and breakouts, PAUSE and PFC,
Frame preemption, Receive errors and stomping). -/

namespace Sys2Proof.Proofs
open Sys2Proof.Machine

/-! ### Pauses -/

/-- Package time itself lies before the next edge, whatever rate the time base runs at. -/
theorem due_now (c : Chip) : c.due c.now = true := by
  have hrate : -(2 ^ 31 : Int) ≤ c.rate := by
    unfold Chip.rate toSigned
    split <;> omega
  have hstep : 0 < c.tbStep := by
    unfold Chip.tbStep
    omega
  have hnow : c.now * 10240 ≤ c.clk.tb := Nat.div_mul_le_self ..
  simp only [Chip.due, decide_eq_true_eq]
  omega

/-- The pauses that PAUSE_EXPIRY leaves of a list: the one in force that stays so, and those to come. -/
def leftPauses (c : Chip) (l : List PauseIv) : List PauseIv := pastPause c l ++ l.filter fun i => decide (c.now < i.from_)

/-- The pauses that are in force by package time, of those that PAUSE_EXPIRY leaves. -/
theorem inForce_left (c : Chip) (l : List PauseIv) :
    (leftPauses c l).filter (fun i => decide (i.from_ ≤ c.now)) = pastPause c l := by
  have hlater : ((l.filter fun i => decide (c.now < i.from_)).filter fun i => decide (i.from_ ≤ c.now)) = [] := by
    simp [List.filter_filter]
  rw [leftPauses, List.filter_append, hlater, List.append_nil, List.filter_eq_self]
  unfold pastPause
  split
  · next i hi =>
    obtain ⟨-, hfrom⟩ := List.mem_filter.mp (List.mem_of_getLast? hi)
    split
    · simp
    · simpa using hfrom
  · simp

/-- The end of the pause in force after PAUSE_EXPIRY: that of the one before, unless it has run out. -/
theorem pauseAt_left (c : Chip) (l : List PauseIv) :
    pauseAt (leftPauses c l) c.now =
      (pauseAt l c.now).filter fun u => !c.due u := by
  unfold pauseAt
  rw [inForce_left]
  unfold pastPause
  cases (l.filter fun i => decide (i.from_ ≤ c.now)).getLast? with
  | none => rfl
  | some i =>
    dsimp only
    cases hdue : c.due i.until_ with
    | true => by_cases hin : c.now < i.until_ <;> simp [Option.filter, hin, hdue]
    | false => by_cases hin : c.now < i.until_ <;> simp [Option.filter, hin, hdue]

theorem mem_left (c : Chip) (l : List PauseIv) {i : PauseIv} (h : c.now < i.from_) :
    i ∈ leftPauses c l ↔ i ∈ l := by
  have hpast : i ∉ pastPause c l := fun hi => by
    rw [← inForce_left, List.mem_filter] at hi
    exact absurd (of_decide_eq_true hi.2) (Nat.not_le.mpr h)
  simp [leftPauses, hpast, h]

/-! ### An own frame on a free line -/

theorem unheld_of_none {c : Chip} {lane : Nat} (h : c.pausesOf lane 8 = []) (t : Nat) : c.unheld lane t = t := by
  unfold Chip.unheld
  rw [h]
  rfl

/-- On a line with nothing committed and without a pause, an express frame starts at once and cuts nothing. -/
theorem expressStart_of_idle {c : Chip} {lane : Nat} (htx : c.txOf lane = []) (hp : c.pausesOf lane 8 = []) (n t : Nat) :
    c.expressStart lane n t (c.unheld lane) = (t, [], false) := by
  have hplain : (c.unheld lane (c.lineFree lane t), c.txOf lane, false) = (t, [], false) := by
    rw [unheld_of_none hp, htx, Chip.lineFree, htx]
    rfl
  unfold Chip.expressStart
  dsimp only
  rw [hplain, htx]
  split <;> rfl

/-- A port's part with flow control just sent: it starts at once, counted, as the line's one commitment. -/
def fcSent (c : Chip) (lane q n : Nat) : Chip :=
  Own.leave lane (.fc q n) (List.replicate 60 0)
    (((c.setDp fun d => { d with own := tput [] d.own lane [] }).setTx lane
      [⟨c.dp.nextPkt, c.now, c.now + c.byteTime lane 64, 64, true, 0, 0⟩]).setDp fun d => { d with nextPkt := d.nextPkt + 1 })

section Sent
variable (c : Chip) (lane q n : Nat)

theorem fcSent_out : (fcSent c lane q n).out = c.out ++ [.pause lane (q != 8) (if q = 8 then 0 else 2 ^ q) n] := by
  simp only [fcSent, Own.leave, Chip.macCount, Chip.setTx, Chip.setTb_out, Chip.emit_out, Chip.setDp_out]

theorem fcSent_mac : (fcSent c lane q n).mac lane 16 = wrapAdd 64 (c.mac lane 16) 1 := mac_macCount_same ..

theorem fcSent_regs : (fcSent c lane q n).regs = c.regs := by
  simp only [fcSent, Own.leave, Chip.macCount, Chip.setTx, Chip.setTb_regs, Chip.emit_regs, Chip.setDp_regs]

theorem fcSent_dp : (fcSent c lane q n).dp = { c.dp with
    own := tput [] c.dp.own lane []
    tx := tput [] c.dp.tx lane [⟨c.dp.nextPkt, c.now, c.now + c.byteTime lane 64, 64, true, 0, 0⟩]
    nextPkt := c.dp.nextPkt + 1 } := by
  simp only [fcSent, Own.leave, Chip.macCount, Chip.setTx, Chip.setTb_dp, Chip.emit_dp, Chip.setDp_dp]

theorem fcSent_own : tget [] (fcSent c lane q n).dp.own lane = [] := by
  rw [fcSent_dp]
  exact tget_tput_same ([] : List Own) c.dp.own lane []

theorem fcSent_txOf : (fcSent c lane q n).txOf lane = [⟨c.dp.nextPkt, c.now, c.now + c.byteTime lane 64, 64, true, 0, 0⟩] := by
  rw [Chip.txOf, fcSent_dp]
  dsimp only
  exact tget_tput_same ..

end Sent

/-- Flow control is sent on a port that is up and idle. -/
theorem ownFlush_fc {c : Chip} {lane q n : Nat} (hup : c.portUp lane = true) (hown : tget [] c.dp.own lane = [.fc q n])
    (htx : c.txOf lane = []) (hp : c.pausesOf lane 8 = []) (hheld : c.heldFor lane = []) : c.ownFlush lane = fcSent c lane q n := by
  have hfits : c.fitsLine lane c.now 64 = true := by
    rw [Chip.fitsLine, hheld]
    rfl
  have hkeeps (l : List Tx) : c.keepsHeld lane l = true := by
    rw [Chip.keepsHeld, hheld]
    rfl
  unfold Chip.ownFlush
  rw [hown]
  simp only [List.foldl_cons, List.foldl_nil]
  unfold Chip.ownStep
  simp only [hown, Own.next, List.find?_cons, expressStart_of_idle htx hp, hup, due_now, Chip.ownFrame, List.length_replicate, hfits, hkeeps,
    List.nil_append, List.erase_cons_head]
  rfl

theorem sendOwn_fc {c : Chip} {lane q n : Nat} (hup : c.portUp lane = true) (hown : tget [] c.dp.own lane = [])
    (htx : c.txOf lane = []) (hp : c.pausesOf lane 8 = []) (hheld : c.heldFor lane = []) :
    c.sendOwn lane (.fc q n) =
      fcSent (c.setDp fun d => { d with own := tput [] d.own lane (tget [] d.own lane ++ [.fc q n]) }) lane q n := by
  have hqueued : tget [] (tput [] c.dp.own lane (tget [] c.dp.own lane ++ [Own.fc q n])) lane = [Own.fc q n] := by
    rw [tget_tput_same, hown]
    rfl
  rw [Chip.sendOwn]
  exact ownFlush_fc hup hqueued htx hp hheld

/-! ### What leaves a port's link -/

theorem apart_pmp_status (p q : Nat) (hp : p < 64) (hq : q < 64) : Apart (R.macPortPmp p) (R.macPortStatus q) := by
  simp only [Apart, R.macPortPmp, R.macPortStatus, ne_eq, RegAddr.mk.injEq]
  omega

theorem apart_status_pmp (p q : Nat) (hp : p < 64) (hq : q < 64) : Apart (R.macPortStatus p) (R.macPortPmp q) := by
  simp only [Apart, R.macPortPmp, R.macPortStatus, ne_eq, RegAddr.mk.injEq]
  omega

theorem apart_cfg_pmp (p q : Nat) (hp : p < 64) (hq : q < 64) : Apart (R.macPortCfg p) (R.macPortPmp q) := by
  simp only [Apart, R.macPortPmp, R.macPortCfg, ne_eq, RegAddr.mk.injEq]
  omega

theorem apart_low_pmp (q : Nat) (hq : q < 64) {a : RegAddr} (ha : a.blk < 20) (ho : a.off < 0x1000) : Apart a (R.macPortPmp q) := by
  obtain ⟨b, o⟩ := a
  simp only [Apart, R.macPortPmp, ne_eq, RegAddr.mk.injEq] at *
  omega

theorem mod_lane (lane : Nat) : lane % 64 < 64 := Nat.mod_lt _ (by decide)

/-- A port is up if its die runs and the registers that say so are as they were. -/
theorem portUp_congr {c t : Chip} {lane : Nat} (hal : t.alive = c.alive) (hdies : t.dies = c.dies)
    (hcfg : t.rd (lane / 64) (R.macPortCfg (lane % 64)) = c.rd (lane / 64) (R.macPortCfg (lane % 64)))
    (hctrl : t.rd (lane / 64) ⟨8, 0⟩ = c.rd (lane / 64) ⟨8, 0⟩) (hgate : t.rd (lane / 64) R.clkGate = c.rd (lane / 64) R.clkGate)
    (hst : t.bit (lane / 64) (R.macPortStatus (lane % 64)) 0 = c.bit (lane / 64) (R.macPortStatus (lane % 64)) 0) :
    t.portUp lane = c.portUp lane := by
  simp only [Chip.portUp, Chip.isPort, Chip.on, Chip.hasDie, Chip.en, Chip.gateOpen, hal, hdies, bit_of_rd hcfg, bit_of_rd hctrl,
    bit_of_rd hgate, hst]

section Link
variable (c : Chip) (lane : Nat)

theorem portUp_wfld_changed (x : Nat) : (c.wfld (lane / 64) (R.macPortStatus (lane % 64)) 1 1 x).portUp lane = c.portUp lane :=
  portUp_congr rfl rfl (rd_wfld_apart (apart_status_cfg _ _ (mod_lane _) (mod_lane _)) ..)
    (rd_wfld_apart (apart_status_low _ (mod_lane _) (a := ⟨8, 0⟩) (by decide) (by decide)) ..)
    (rd_wfld_apart (apart_status_low _ (mod_lane _) (a := R.clkGate) (by decide) (by decide)) ..) (bit_wfld_other _ _ _ _ (by decide) (by decide))

theorem portUp_wfld_pmp (lo w x : Nat) : (c.wfld (lane / 64) (R.macPortPmp (lane % 64)) lo w x).portUp lane = c.portUp lane :=
  portUp_congr rfl rfl (rd_wfld_apart (apart_cfg_pmp _ _ (mod_lane _) (mod_lane _)) ..)
    (rd_wfld_apart (apart_low_pmp _ (mod_lane _) (a := ⟨8, 0⟩) (by decide) (by decide)) ..)
    (rd_wfld_apart (apart_low_pmp _ (mod_lane _) (a := R.clkGate) (by decide) (by decide)) ..)
    (bit_of_rd (rd_wfld_apart (apart_status_pmp _ _ (mod_lane _) (mod_lane _)) ..) 0)

theorem portUp_raise (cls d : Nat) (e : Ev) : (c.raise cls d e).portUp lane = c.portUp lane :=
  have hq := raise_quiet c d cls e
  portUp_congr hq.alive (raise_frame c cls d e Chip.dies fun _ _ _ _ => rfl)
    (hq.rd _ (by have := mod_lane lane; omega)) (hq.rd _ (by decide))
    (c.raise_rd cls d e _ _ (bar4_ne_of_apart (a := R.clkGate) (b := R.fltLogOvf) (by decide) _ _)) (bit_of_rd (hq.rd _ (by have := mod_lane lane; omega)) 0)

end Link

/-! ### A link that changes -/

/-- The part with a link's change on record: the status, link_changed and LINK_EVENT. -/
def linkChanged (c : Chip) (lane w : Nat) : Chip :=
  ((c.wr (lane / 64) (R.macPortStatus (lane % 64)) w).wfld (lane / 64) (R.macPortStatus (lane % 64)) 1 1 1).raise Cls.linkEvent (lane / 64)
    { block := 8, unit := lane }

theorem portUp_linkChanged (c : Chip) (lane w : Nat) :
    (linkChanged c lane w).portUp lane = (c.wr (lane / 64) (R.macPortStatus (lane % 64)) w).portUp lane := by
  rw [linkChanged, portUp_raise, portUp_wfld_changed]

theorem linkChanged_frame {α : Type} (c : Chip) (lane w : Nat) (f : Chip → α)
    (hf : ∀ (q : Chip) regs fns faults out, f { q with regs := regs, fns := fns, faults := faults, out := out } = f q) :
    f (linkChanged c lane w) = f c :=
  (raise_frame _ _ _ _ f (hf _)).trans (hf c _ c.fns c.faults c.out)

theorem linkChanged_alive (c : Chip) (lane w : Nat) : (linkChanged c lane w).alive = c.alive := (raise_quiet ..).alive

/-- A change of the link's state leaves the port's preemption register. -/
theorem bit_linkChanged (c : Chip) (lane w i : Nat) :
    (linkChanged c lane w).bit (lane / 64) (R.macPortPmp (lane % 64)) i = c.bit (lane / 64) (R.macPortPmp (lane % 64)) i := by
  have happ := apart_pmp_status _ _ (mod_lane lane) (mod_lane lane)
  have hoff : 0x100c + 0x40 * (lane % 64) < 0x100000 := by
    have := mod_lane lane
    omega
  exact bit_of_rd (((raise_quiet ..).rd _ hoff).trans ((rd_wfld_apart happ ..).trans (rd_wr_apart happ ..))) i

theorem setLink_up {c : Chip} {lane : Nat} (h : c.bit (lane / 64) (R.macPortStatus (lane % 64)) 0 = false) (lf rf an : Bool) (reason : Nat) :
    c.setLink lane true lf rf an reason =
      let d := lane / 64
      let pm := R.macPortPmp (lane % 64)
      let c' := linkChanged c lane ((c.rd d (R.macPortStatus (lane % 64)) &&& 2) ||| (1 + 4 * b2n lf + 8 * b2n rf + 16 * b2n an))
      if !c.bit d pm 0 then c' else if c.bit d pm 1 then (c'.wfld d pm 10 2 1).emit (.verify lane false) else c'.wfld d pm 10 2 2 := by
  dsimp only
  rw [← bit_linkChanged c lane _ 0, ← bit_linkChanged c lane _ 1, Chip.setLink, h]
  rfl

theorem setLink_down {c : Chip} {lane : Nat} (h : c.bit (lane / 64) (R.macPortStatus (lane % 64)) 0 = true) (lf rf an : Bool) (reason : Nat) :
    c.setLink lane false lf rf an reason =
      (((linkChanged c lane ((c.rd (lane / 64) (R.macPortStatus (lane % 64)) &&& 2) ||| (4 * b2n lf + 8 * b2n rf + 16 * b2n an))).wfld
        (lane / 64) (R.macPortPmp (lane % 64)) 10 2 0).abortRx lane 16380 16380).cutLine lane reason := by
  rw [Chip.setLink, h, show b2n false = 0 from rfl, Nat.zero_add]
  rfl

/-- What LINK_STATE_CHANGE makes of the link, where boot has completed and the lane is a port of a running block. -/
theorem linkStateChange_booted {c : Chip} {lane : Nat} (hb : c.booted = true) (hp : c.isPort lane = true) (hon : c.on (lane / 64) 8 = true)
    {up lf rf an link : Bool} (hlink : (up && !lf && !rf && ((c.negotiates lane && an) || !c.negotiates lane)) = link) :
    linkStateChange lane up lf rf an c = c.setLink lane link lf rf (c.negotiates lane && an) Dr.linkDown := by
  rw [linkStateChange, hb, hp, hon]
  dsimp only
  rw [hlink]
  rfl

theorem neighDown_of_down {c : Chip} {lane : Nat} (h : (c.neigh lane).st = .down) : c.neighDown lane = c := if_pos h

/-- Frames in transmission: with none, only the line and the port's own frames go. -/
theorem cutLine_of_idle {c : Chip} {lane : Nat} (h : c.txOf lane = []) (reason : Nat) :
    c.cutLine lane reason = (c.setTx lane []).setDp fun d => { d with own := tput [] d.own lane [] } := by
  rw [Chip.cutLine, h]
  rfl

theorem abortRx_of_idle {c : Chip} {lane : Nat} (h : c.rxOf lane = []) (inner outer : Nat) : c.abortRx lane inner outer = c.setRx lane [] := by
  rw [Chip.abortRx, h]
  rfl

theorem linkStateChangeSpan_eq {c t : Chip} {lane : Nat} {up lf rf an : Bool} (h : linkStateChange lane up lf rf an c = t) :
    linkStateChangeSpan lane up lf rf an c = if !t.alive || t.portUp lane then t else t.neighDown lane := by
  rw [linkStateChangeSpan, h]

/-- A link that comes up stays so, whatever the preemption register then says. -/
theorem setLink_up_portUp {c : Chip} {lane : Nat} (hp : c.isPort lane = true) (hon : c.on (lane / 64) 8 = true)
    (hdown : c.bit (lane / 64) (R.macPortStatus (lane % 64)) 0 = false) (an : Bool) (reason : Nat) :
    (c.setLink lane true false false an reason).portUp lane = true := by
  have hbit : bitN ((c.rd (lane / 64) (R.macPortStatus (lane % 64)) &&& 2) ||| (1 + 4 * b2n false + 8 * b2n false + 16 * b2n an)) 0 = true := by
    rw [bitN_eq_testBit, Nat.testBit_or, Nat.testBit_and]
    cases an <;> simp [b2n]
  have hup := (portUp_linkChanged c lane _).trans ((portUp_wr_status (status_lt _ true false false an) hp hon).trans hbit)
  have hemit (q : Chip) (o : Out) : (q.emit o).portUp lane = q.portUp lane := rfl
  rw [setLink_up hdown]
  dsimp only
  split
  · exact hup
  · split
    · rw [hemit, portUp_wfld_pmp]
      exact hup
    · rw [portUp_wfld_pmp]
      exact hup

/-- Settles O60. -/
theorem flowControlAndLinkComplete : Obligations.FlowControlAndLinkComplete := by
  intro s lane
  refine ⟨fun q hal => ?expiry, fun q hup hx hn hown htx hp hheld => ?resent, fun q hup hx hn => ?tested, fun hup hen => ?verified,
    fun hal => ?timeout, fun up lf rf an hb => ?unbooted, fun an hb hp hon hdown han => ?up, fun up lf rf an hb hp hon hup hwhy => ?down⟩
  case expiry =>
    refine gives_onChip rfl ?_
    have hrow := pauseExpiry_alive hal lane q
    have hleft : (pauseExpiry lane q s.chip).pausesOf lane (q.getD 8) = leftPauses s.chip (s.chip.pausesOf lane (q.getD 8)) := by
      rw [hrow]
      exact tget_tput_same ..
    have hother (l r : Nat) (hne : l * 16 + r ≠ lane * 16 + q.getD 8) :
        (pauseExpiry lane q s.chip).pausesOf l r = s.chip.pausesOf l r := by
      rw [hrow]
      exact tget_tput_ne _ _ _ hne
    rw [State.onChip_chip, hleft, pauseAt_left]
    refine ⟨fun u hu hdue => ?_, fun u hu hdue => ?_, fun hnone => ?_, fun i hi => mem_left _ _ hi, hother, ?_, ?_, ?_⟩
    · rw [hu, Option.filter_some, hdue]
      rfl
    · rw [hu, Option.filter_some, hdue]
      rfl
    · rw [hnone]
      rfl
    · rw [hrow]
      rfl
    · rw [hrow]
      rfl
    · rw [hrow]
      rfl
  case resent =>
    refine gives_onChip rfl ?_
    have hrow : pauseResend lane q s.chip = s.chip.sendOwn lane (.fc (q.getD 8) 0xFFFF) := by
      rw [pauseResend, hup, hx]
      exact if_pos hn
    rw [State.onChip_chip, hrow, sendOwn_fc hup hown htx hp hheld]
    rw [fcSent_out, fcSent_mac, fcSent_txOf, fcSent_own, fcSent_regs, fcSent_dp]
    exact ⟨rfl, rfl, rfl, rfl, rfl, rfl, rfl⟩
  case tested =>
    refine next_onChip ?_
    rw [pauseResend, hup, hx]
    exact if_neg (Nat.not_lt.mpr hn)
  case verified =>
    refine gives_onChip rfl ?_
    rw [State.onChip_chip]
    by_cases hst : s.chip.fld (lane / 64) (R.macPortPmp (lane % 64)) 10 2 = 1
    · have hrow : preemptVerify lane s.chip = s.chip.wfld (lane / 64) (R.macPortPmp (lane % 64)) 10 2 2 := by
        simp [preemptVerify, hup, hen, hst]
      rw [hrow]
      refine ⟨fun _ => ⟨?_, rfl⟩, fun h => absurd hst h, rfl⟩
      rw [Chip.preempting, fld_wfld_same _ _ _ _ (by decide)]
      rfl
    · have hrow : preemptVerify lane s.chip = s.chip.emit (.verify lane true) := by
        simp [preemptVerify, hup, hen, hst]
      rw [hrow]
      exact ⟨fun h => absurd h hst, fun _ => ⟨rfl, rfl⟩, rfl⟩
  case timeout =>
    refine gives_onChip rfl ?_
    rw [State.onChip_chip]
    by_cases hst : s.chip.fld (lane / 64) (R.macPortPmp (lane % 64)) 10 2 = 1
    · have hrow : verifyTimeout lane s.chip = s.chip.wfld (lane / 64) (R.macPortPmp (lane % 64)) 10 2 3 := by
        simp [verifyTimeout, hal, hst]
      rw [hrow]
      exact ⟨fun _ => fld_wfld_same _ _ _ _ (by decide), fun h => absurd hst h, rfl, rfl⟩
    · have hrow : verifyTimeout lane s.chip = s.chip := by simp [verifyTimeout, hst]
      rw [hrow]
      exact ⟨fun h => absurd h hst, fun _ => rfl, rfl, rfl⟩
  case unbooted =>
    refine next_onChip (linkStateChangeSpan_eq ?_)
    rw [linkStateChange, hb]
    rfl
  case up =>
    have hbit : s.chip.bit (lane / 64) (R.macPortStatus (lane % 64)) 0 = false := by
      rw [Chip.portUp, hp, hon] at hdown
      exact hdown
    have hlink : (true && !false && !false && ((s.chip.negotiates lane && an) || !s.chip.negotiates lane)) = true := by
      cases hn : s.chip.negotiates lane with
      | false => rfl
      | true => rw [han hn]; rfl
    refine next_onChip ?_
    rw [linkStateChangeSpan_eq (linkStateChange_booted hb hp hon hlink), setLink_up_portUp hp hon hbit, Bool.or_true, if_pos rfl,
      setLink_up hbit]
    rfl
  case down =>
    obtain ⟨-, -, hbit⟩ := (portUp_iff _ _).1 hup
    have hlink : (up && !lf && !rf && ((s.chip.negotiates lane && an) || !s.chip.negotiates lane)) = false := by
      rcases hwhy with h | h | h | ⟨hn, ha⟩
      · simp [h]
      · simp [h]
      · simp [h]
      · simp [hn, ha]
    have hal : s.chip.alive = true := by
      by_contra h
      rw [on_of_dead (Bool.eq_false_iff.mpr h)] at hon
      exact absurd hon (by decide)
    refine gives_onChip rfl ?_
    rw [State.onChip_chip, linkStateChangeSpan_eq (linkStateChange_booted hb hp hon hlink), setLink_down hbit]
    dsimp only
    unfold linkChanged
    generalize hc : (Chip.raise _ Cls.linkEvent _ _).wfld _ _ 10 2 0 = c
    have hdp : c.dp = s.chip.dp := by
      rw [← hc]
      exact linkChanged_frame s.chip lane _ Chip.dp fun _ _ _ _ _ => rfl
    have hsp : c.sp = s.chip.sp := by
      rw [← hc]
      exact linkChanged_frame s.chip lane _ Chip.sp fun _ _ _ _ _ => rfl
    have hkept : ((c.abortRx lane 16380 16380).cutLine lane Dr.linkDown).alive = true := by
      rw [(cutLine_quiet _ lane (by decide)).alive, (abortRx_quiet ..).alive, ← hc]
      exact (linkChanged_alive ..).trans hal
    refine ⟨fun hrx htx hst => ?idle, fun hdown => ?busy⟩
    case idle =>
      have hline : ((c.setRx lane []).txOf lane) = [] := (congrArg (fun d : Packets => tget [] d.tx lane) hdp).trans htx
      have hneigh : (((c.setRx lane []).cutLine lane Dr.linkDown).neigh lane).st = .down := by
        rw [cutLine_of_idle hline]
        exact (congrArg (fun x : Span => (tget Neigh.none x.neigh lane).st) hsp).trans hst
      rw [abortRx_of_idle ((congrArg (fun d : Packets => tget [] d.rx lane) hdp).trans hrx), neighDown_of_down hneigh, ite_self]
    case busy =>
      rw [hkept, hdown]
      rfl

end Sys2Proof.Proofs
end

section
/-! PROOF. Settles O32: frames on a port (spec/08 Frame length, Receive errors and stomping, PAUSE and PFC; spec/07 The cell buffer). -/

namespace Sys2Proof.Proofs
open Sys2Proof.Machine

/-! ### Flow control leaves the packets and the frames under reception -/

/-- `t` has the packets and the frames under reception of `c`. -/
def SameFrames (c t : Chip) : Prop := t.dp.pkts = c.dp.pkts ∧ t.dp.rx = c.dp.rx

theorem SameFrames.refl (c : Chip) : SameFrames c c := ⟨rfl, rfl⟩

theorem SameFrames.after {a b c : Chip} (k : SameFrames b c) (h : SameFrames a b) : SameFrames a c :=
  ⟨k.1.trans h.1, k.2.trans h.2⟩

theorem SameFrames.ite {c t u : Chip} {p : Prop} [Decidable p] (ht : SameFrames c t) (hu : SameFrames c u) :
    SameFrames c (if p then t else u) := by
  split
  · exact ht
  · exact hu

theorem sameFrames_of_dp {c t : Chip} (h : t.dp = c.dp) : SameFrames c t := ⟨congrArg Packets.pkts h, congrArg Packets.rx h⟩

theorem setDp_sameFrames (c : Chip) {g : Packets → Packets} (h : ∀ d, (g d).pkts = d.pkts ∧ (g d).rx = d.rx) : SameFrames c (c.setDp g) :=
  h c.dp

theorem SameFrames.foldl {α : Type} {g : Chip → α → Chip} (h : ∀ c x, SameFrames c (g c x)) (l : List α) (c : Chip) :
    SameFrames c (l.foldl g c) :=
  List.foldlRecOn (motive := fun q => SameFrames c q) _ _ (.refl c) fun q hq x _ => (h q x).after hq

section FlowControl
variable (c : Chip) (lane : Nat)

theorem raise_dp (cls d : Nat) (e : Ev) : (c.raise cls d e).dp = c.dp := raise_frame c cls d e Chip.dp fun _ _ _ _ => rfl

theorem slotRead_dp (n : Nat) (found : ScrubOutcome) : (c.slotRead n found).dp = c.dp := by
  unfold Chip.slotRead
  rw [readCheck_frame _ _ _ _ _ Chip.dp fun _ _ _ _ _ => rfl]
  split
  · exact Chip.count_dp ..
  · rfl

theorem takeSeq_dp (a : Nat) (x : Assoc) : (c.takeSeq a x).2.dp = c.dp := by
  have hsoft (q : Chip) (y : Assoc) : (q.softCheck a y).dp = q.dp := by
    unfold Chip.softCheck
    split
    · exact raise_dp ..
    · rfl
  unfold Chip.takeSeq
  split
  · split
    · rfl
    · exact (raise_dp ..).trans (Chip.count_dp ..)
  · exact hsoft ..

/-- Securing a frame takes a sequence number and reports: no packet and no line changes. -/
theorem macsecTx_dp (cipher : Option Nat) (b : Bytes) (found : ScrubOutcome) : (c.macsecTx lane cipher b found).2.dp = c.dp := by
  unfold Chip.macsecTx
  dsimp only
  split
  · rfl
  split
  · rfl
  split
  · rfl
  split
  · rfl
  next a x _ =>
    split
    · exact slotRead_dp ..
    · have hseq := takeSeq_dp (c.slotRead (lane / 64 * 65536 + x.slot) found) a x
      rw [slotRead_dp] at hseq
      generalize (c.slotRead (lane / 64 * 65536 + x.slot) found).takeSeq a x = r at hseq
      obtain ⟨pn | pn, q⟩ := r
      · exact hseq
      · exact hseq

theorem ownFrame_dp (o : Own) : (c.ownFrame lane o).2.dp = c.dp := by
  cases o with
  | fc q n => rfl
  | hsp f => exact macsecTx_dp ..

theorem leave_sameFrames (o : Own) (b : Bytes) : SameFrames c (o.leave lane b c) := by
  cases o with
  | fc q n => exact ⟨rfl, rfl⟩
  | hsp f => exact ⟨rfl, rfl⟩

theorem ownStep_sameFrames : SameFrames c (c.ownStep lane) := by
  unfold Chip.ownStep
  dsimp only
  split
  · exact .refl c
  next o _ =>
    split
    all_goals
      refine .ite (.refl c) ?_
      generalize hframe : c.ownFrame lane _ = r
      have hdp := hframe ▸ ownFrame_dp c lane _
      obtain ⟨e | b, q⟩ := r
      · exact (sameFrames_of_dp (Chip.count_dp ..)).after ((setDp_sameFrames q fun _ => ⟨rfl, rfl⟩).after (sameFrames_of_dp hdp))
      · have hcounted : SameFrames c (q.macCount lane 17) := sameFrames_of_dp ((Chip.setTb_dp ..).trans hdp)
        have hcut (b : Bool) : SameFrames c (if b then q.macCount lane 17 else q) := .ite hcounted (sameFrames_of_dp hdp)
        refine .ite (.refl c) ((leave_sameFrames ..).after ?_)
        refine .after (setDp_sameFrames _ fun _ => ⟨rfl, rfl⟩) (.after (setDp_sameFrames _ fun _ => ⟨rfl, rfl⟩) ?_)
        exact .after (setDp_sameFrames _ fun _ => ⟨rfl, rfl⟩) (hcut _)

theorem sendOwn_sameFrames (o : Own) : SameFrames c (c.sendOwn lane o) :=
  SameFrames.foldl (g := fun q (_ : Own) => q.ownStep lane) (fun q _ => ownStep_sameFrames q lane) _ _

theorem fcOne_sameFrames (q : Nat) : SameFrames c (c.fcOne lane q) := by
  unfold Chip.fcOne
  exact .ite (sendOwn_sameFrames _ lane _) (.ite (sendOwn_sameFrames _ lane _) (.refl c))

theorem fcPort_sameFrames : SameFrames c (c.fcPort lane) := by
  unfold Chip.fcPort
  split
  · exact .refl c
  · split
    · exact fcOne_sameFrames ..
    · exact .foldl (fun q x => fcOne_sameFrames q lane x) _ _
    · exact .refl c

end FlowControl

/-! ### An arriving frame -/

/-- A frame on a port without MACsec on receive is seen as it came. -/
theorem macsecRx_of_off {c : Chip} {lane : Nat} (h : bitN (c.macsecReg lane) 1 = false) (b : Bytes) (x : ScrubOutcome) :
    c.macsecRx lane b x = (.ok (b, false), c) := by
  rw [Chip.macsecRx, h]
  rfl

/-- What a Headgate's turn leaves of the packets and lines. -/
theorem dispatch_dp (c : Chip) (d : Nat) :
    (c.dispatch d).2.dp.pkts = c.dp.pkts ∧ (c.dispatch d).2.dp.rx = c.dp.rx ∧ (c.dispatch d).2.dp.nextPkt = c.dp.nextPkt ∧
      (c.dispatch d).2.dp.stamp = c.dp.stamp := by
  unfold Chip.dispatch
  split
  · exact ⟨rfl, rfl, rfl, rfl⟩
  · exact ⟨rfl, rfl, rfl, rfl⟩

/-! ### A link that goes down with its frame -/

theorem portUp_of_status {c : Chip} {lane : Nat} (h : c.bit (lane / 64) (R.macPortStatus (lane % 64)) 0 = false) : c.portUp lane = false := by
  rw [Chip.portUp, h, Bool.and_false]

section LinkDown
variable (c : Chip) (lane : Nat) (lf rf an : Bool)

/-- The status of a link that is down. -/
theorem bit_status_down :
    (c.wr (lane / 64) (R.macPortStatus (lane % 64)) ((c.rd (lane / 64) (R.macPortStatus (lane % 64)) &&& 2) |||
      (b2n false + 4 * b2n lf + 8 * b2n rf + 16 * b2n an))).bit (lane / 64) (R.macPortStatus (lane % 64)) 0 = false := by
  rw [Chip.bit, Laws.rd_wr_same, Nat.mod_eq_of_lt (status_lt _ false lf rf an), bitN_eq_testBit, Nat.testBit_or, Nat.testBit_and]
  have hodd : (b2n false + 4 * b2n lf + 8 * b2n rf + 16 * b2n an).testBit 0 = false := by
    cases lf <;> cases rf <;> cases an <;> rfl
  rw [hodd, show Nat.testBit 2 0 = false from rfl, Bool.and_false]
  rfl

/-- A change of the link on record shows the state that was written. -/
theorem bit_status_linkChanged (w : Nat) :
    ((linkChanged c lane w).wfld (lane / 64) (R.macPortPmp (lane % 64)) 10 2 0).bit (lane / 64) (R.macPortStatus (lane % 64)) 0 =
      (c.wr (lane / 64) (R.macPortStatus (lane % 64)) w).bit (lane / 64) (R.macPortStatus (lane % 64)) 0 := by
  have hoff : 0x1014 + 0x40 * (lane % 64) < 0x100000 := by
    have := mod_lane lane
    omega
  have hpmp := rd_wfld_apart (apart_status_pmp (lane % 64) (lane % 64) (mod_lane _) (mod_lane _)) (linkChanged c lane w) (lane / 64) (lane / 64)
    10 2 0
  rw [bit_of_rd (hpmp.trans ((raise_quiet ..).rd _ hoff)), bit_wfld_other _ _ _ _ (by decide) (by decide)]

/-- A link set down is down, and the part runs as before. -/
theorem setLink_false :
    (c.setLink lane false lf rf an Dr.linkDown).alive = c.alive ∧ (c.setLink lane false lf rf an Dr.linkDown).portUp lane = false := by
  have hoff : 0x1014 + 0x40 * (lane % 64) < 0x100000 := by
    have := mod_lane lane
    omega
  cases hwas : c.bit (lane / 64) (R.macPortStatus (lane % 64)) 0 with
  | false =>
    rw [setLink_same hwas]
    exact ⟨rfl, portUp_of_status (bit_status_down ..)⟩
  | true =>
    rw [setLink_down hwas]
    generalize hc : (linkChanged c lane _).wfld _ _ 10 2 0 = t
    have hquiet : Quiet t ((t.abortRx lane 16380 16380).cutLine lane Dr.linkDown) :=
      (cutLine_quiet _ lane (by decide)).after (abortRx_quiet ..)
    have hbit : t.bit (lane / 64) (R.macPortStatus (lane % 64)) 0 = false := by
      have hdown := bit_status_down c lane lf rf an
      rw [show b2n false = 0 from rfl, Nat.zero_add] at hdown
      rw [← hc, bit_status_linkChanged, hdown]
    refine ⟨hquiet.alive.trans ?_, portUp_of_status ((bit_of_rd (hquiet.rd _ hoff) 0).trans hbit)⟩
    rw [← hc]
    exact linkChanged_alive ..

end LinkDown

/-- Settles O32. -/
theorem receptionCompletes : Obligations.ReceptionCompletes := by
  intro s lane
  refine ⟨fun phase b x hup hroom he => ?control, fun phase b x hup hroom he hcons hblocks hsec hfits => ?ordinary,
    fun phase b x hup hroom he hcons hsec => ?hsp, fun r l hal hrx hend hlen => ?oversize,
    fun r l n m hal hrx hend hmin hmax hpkt hcopies => ?goodEnd, fun n m r hal hrx hend hpkt => ?stop⟩
  case control =>
    refine next_onChip ?_
    simp [frameArrival, hup, hroom, he, Chip.openRx]
  case ordinary =>
    refine gives_onChip rfl ?_
    rw [State.onChip_chip, frameArrival, hup, hroom, if_neg (by decide), if_neg he]
    dsimp only
    rw [macsecRx_of_off hsec]
    dsimp only
    have hfit : ¬ (!s.chip.fits (lane / 64) .ingress (ceilDiv (b.length + 4) 256)) = true := by
      rw [hfits]
      decide
    obtain ⟨hpkts, hrx, hnext, hstamp⟩ := dispatch_dp s.chip (lane / 64)
    rw [if_neg (ne_true_of_eq_false hcons), hblocks, if_neg (by decide), if_neg]
    case hnc => exact hfit
    obtain ⟨hp, hr⟩ := fcPort_sameFrames (((s.chip.dispatch (lane / 64)).2.addPkt _).openRx lane _) lane
    refine ⟨hp.trans ?_, (congrArg (tget [] · lane) hr).trans ?_⟩
    · have hadd (q : Chip) (p : Pkt) : (q.addPkt p).dp.pkts = q.dp.pkts ++ [{ p with id := q.dp.nextPkt, stamp := q.dp.stamp }] := rfl
      rw [Chip.openRx, setRx_pkts, hadd, hpkts, hnext, hstamp]
      rfl
    · have hopen (q : Chip) (x : Rx) : tget [] (q.openRx lane x).dp.rx lane = x :: q.rxOf lane :=
        tget_tput_same ([] : List Rx) q.dp.rx lane (x :: q.rxOf lane)
      rw [hopen, hnext]
      exact congrArg _ (congrArg (tget [] · lane) hrx)
  case hsp =>
    refine next_onChip ?_
    rw [frameArrival, hup, hroom, if_neg (by decide), if_neg he]
    dsimp only
    rw [macsecRx_of_off hsec]
    exact if_pos hcons
  case oversize =>
    refine next_onChip ?_
    rw [oversizeDetected, hrx]
    simp [hal, hend, hlen]
  case goodEnd =>
    refine gives_onChip rfl ?_
    have hrow : frameEnd lane true false n 0 s.chip =
        ((((s.chip.macCount lane 7 n).macCount lane 8 0).setRx lane l).macCount lane 0).macCount lane 1 (r.bytes.length + 4) := by
      have hM : (((s.chip.macCount lane 7 n).macCount lane 8 0).setRx lane l).maxFrame lane = s.chip.maxFrame lane := rfl
      simp only [frameEnd, hrx, Bool.false_eq_true, if_false, List.head?_cons, List.tail_cons, hal, hend, hM, Chip.goodEnd, hpkt, hcopies]
      rw [if_neg (by decide), if_neg (Nat.not_lt.mpr hmin), if_neg (Nat.not_lt.mpr hmax), if_neg (by decide)]
      rfl
    have hset (q : Chip) (k : Nat) : (q.setRx lane l).mac lane k = q.mac lane k := rfl
    rw [State.onChip_chip, hrow]
    refine ⟨tget_tput_same .., ?_, ?_, ?_, fun h0 h1 h7 h8 _ => ?_⟩
    · rw [mac_macCount_ne _ _ _ (by decide), mac_macCount_same, hset, mac_macCount_ne _ _ _ (by decide), mac_macCount_ne _ _ _ (by decide)]
    · rw [mac_macCount_same, mac_macCount_ne _ _ _ (by decide), hset, mac_macCount_ne _ _ _ (by decide), mac_macCount_ne _ _ _ (by decide)]
    · rw [mac_macCount_ne _ _ _ (by decide), mac_macCount_ne _ _ _ (by decide), hset, mac_macCount_ne _ _ _ (by decide), mac_macCount_same]
    · rw [mac_macCount_ne _ _ _ h1, mac_macCount_ne _ _ _ h0, hset, mac_macCount_ne _ _ _ h8, mac_macCount_ne _ _ _ h7]
  case stop =>
    refine next_onChip ?_
    have hrow : rxStop lane n m s.chip = ((s.chip.setRx lane []).closeRx r lane 5 Dr.rxAborted n).setLink lane false
        (bitN (s.chip.rd (lane / 64) (R.macPortStatus (lane % 64))) 2) (bitN (s.chip.rd (lane / 64) (R.macPortStatus (lane % 64))) 3)
        (bitN (s.chip.rd (lane / 64) (R.macPortStatus (lane % 64))) 4) Dr.linkDown := by
      rw [rxStop, Chip.abortRx, hal, hrx]
      simp [hend]
    have halive : ((s.chip.setRx lane []).closeRx r lane 5 Dr.rxAborted n).alive = true :=
      ((closeRx_quiet _ r lane 5 (by decide) n).alive).trans hal
    obtain ⟨hkept, hdown⟩ := setLink_false ((s.chip.setRx lane []).closeRx r lane 5 Dr.rxAborted n) lane
      (bitN (s.chip.rd (lane / 64) (R.macPortStatus (lane % 64))) 2) (bitN (s.chip.rd (lane / 64) (R.macPortStatus (lane % 64))) 3)
      (bitN (s.chip.rd (lane / 64) (R.macPortStatus (lane % 64))) 4)
    rw [rxStopSpan, hrow, hkept, hdown, halive]
    rfl

end Sys2Proof.Proofs
end
